-- ==== Sys2Proof/Word.lean ====
section
/-!
DEFINITION. Sys2Proof/Word.lean: the widths the manual names (R19, R22) and nothing else.
-/
namespace Sys2Proof

/-- One byte (R19: little-endian, the least significant byte at the lowest address). -/
abbrev Byte := BitVec 8
/-- One 32-bit word: a scalar register (R56), a control register (R57), a page register (R26). -/
abbrev Word := BitVec 32
/-- One 64-bit float-bank register (R107). -/
abbrev DWord := BitVec 64
/-- A scalar register name g0 to g31 as the encodings carry it (R65). -/
abbrev GReg := BitVec 5
/-- A float register name f0 to f255 (R107). -/
abbrev FReg := BitVec 8
/-- A group number G (0 to 31) of the float bank, or 4k for the long register vk (R108). -/
abbrev Grp := BitVec 5
/-- A 40-bit accumulator component (R122). -/
abbrev Acc40 := BitVec 40

end Sys2Proof
end

