-- ==== Sys2Proof/Syntax.lean ====
section
/-!
DEFINITION. Sys2Proof/Syntax.lean: the commands of the block, one constructor per row of spec/opcode_table.json, in the
table's order. A choice that the manual leaves to the hardware (which task, which executor, which address, which of the
events in flight arrives) is an operand; a meaning checks it against the rules and leaves the state as it is where the
rules do not allow it. Core operations carry the physical core `k`, the slot where two slots allow the operation
(`b` true: slot B), their fields as the encodings of R65 to R69 and R136 to R138 give them, and `fin`: this operation
is the last of its bundle (R59).
-/
namespace Sys2Proof

/-- An executor: a physical core, a physical engine instance of a class (1 BFE to 8 TCE, R141), or a delivery ring
of a function (R273). -/
inductive Exec where
  | core (k : Nat)
  | engine (cls inst : Nat)
  | host (fn ring : Nat)
deriving DecidableEq, Repr

/-- Who makes a register access: a host function through BAR0 (0 the PF), Ward over the management ring, or a DMA
channel owned by the PF (R355, R505, R509). -/
inductive Agent where
  | fn (f : Nat)
  | ward
  | dma (ch : Nat)
deriving DecidableEq, Repr

/-- A data flit as it reaches its target (R340): the ring it came on (0 to 7), header fields, the payload, the byte-enable
mask if MASKED, how often a hop took it again (R348), and what the payload check found (R349): corrected words, and
the 64-bit words that are uncorrectable. -/
structure Flit where
  ring : Nat
  dst : Nat
  src : Nat
  agent : Nat
  tag : Nat
  seq : Nat
  addr : Nat
  len : Nat
  last : Bool
  unord : Bool
  mask : Option Nat
  data : List Byte
  hops : Nat
  corr : Nat
  unc : List Nat
deriving DecidableEq, Repr

/-- How the transition that a RISE or RESUME begins goes on, where the manual leaves it to the part (R507): READY at once,
later, or a failed check or load with its REASON and DETAIL. -/
inductive RiseHow where
  | ready
  | slow
  | fails (reason detail : Nat)
deriving DecidableEq, Repr

/-- What a PCIe configuration request asks for (R485, R491): a word of the configuration space, Bus Master Enable, NumVFs with
VF Enable (0 clears it), MSI-X Enable, or the power state, D0 or D3hot. -/
inductive CfgReq where
  | read (off : Nat)
  | busMaster (on : Bool)
  | vfEnable (num : Nat)
  | msixEnable (on : Bool)
  | power (d3 : Bool)
deriving DecidableEq, Repr

/-- What the manual leaves to the hardware when a register write triggers it: how a RISE or RESUME goes on or whether a load
passes its length check, and a number: the address of a BIND, or the mismatches that an eye measurement counts. -/
structure Aux where
  how : RiseHow
  place : Nat
deriving DecidableEq, Repr

/-- The commands. -/
inductive Instr where
  /-- TICK (R43): An enabled tick generator reaches boundary minus LEAD_TC and posts the SLOT or SYMBOL tick of that boundary. -/
  | tick (g : Nat)
  /-- ADD (R67): Format T add: gd gets ga plus gb, modulo 2^32. -/
  | add (k : Nat) (b : Bool) (gd ga gb : GReg) (fin : Bool)
  /-- SUB (R67): Format T subtract: gd gets ga minus gb. -/
  | sub (k : Nat) (b : Bool) (gd ga gb : GReg) (fin : Bool)
  /-- AND (R67): Format T bitwise AND. -/
  | and (k : Nat) (b : Bool) (gd ga gb : GReg) (fin : Bool)
  /-- OR (R67): Format T bitwise OR. -/
  | or (k : Nat) (b : Bool) (gd ga gb : GReg) (fin : Bool)
  /-- XOR (R67): Format T bitwise XOR. -/
  | xor (k : Nat) (b : Bool) (gd ga gb : GReg) (fin : Bool)
  /-- SHL (R67): Format T left shift by gb[4:0]. -/
  | shl (k : Nat) (b : Bool) (gd ga gb : GReg) (fin : Bool)
  /-- SHR (R67): Format T logical right shift by gb[4:0]. -/
  | shr (k : Nat) (b : Bool) (gd ga gb : GReg) (fin : Bool)
  /-- SAR (R67): Format T arithmetic right shift by gb[4:0]. -/
  | sar (k : Nat) (b : Bool) (gd ga gb : GReg) (fin : Bool)
  /-- LT (R67): Format T signed less-than compare. -/
  | lt (k : Nat) (b : Bool) (gd ga gb : GReg) (fin : Bool)
  /-- LTU (R67): Format T unsigned less-than compare. -/
  | ltu (k : Nat) (b : Bool) (gd ga gb : GReg) (fin : Bool)
  /-- MIN (R67): Format T signed minimum. -/
  | min (k : Nat) (b : Bool) (gd ga gb : GReg) (fin : Bool)
  /-- MAX (R67): Format T signed maximum. -/
  | max (k : Nat) (b : Bool) (gd ga gb : GReg) (fin : Bool)
  /-- MINU (R67): Format T unsigned minimum. -/
  | minu (k : Nat) (b : Bool) (gd ga gb : GReg) (fin : Bool)
  /-- MAXU (R67): Format T unsigned maximum. -/
  | maxu (k : Nat) (b : Bool) (gd ga gb : GReg) (fin : Bool)
  /-- LZ (R67): Format T count of leading zeros of ga. -/
  | lz (k : Nat) (b : Bool) (gd ga : GReg) (fin : Bool)
  /-- PICK (R67): Format T conditional move: gd gets ga if gb is non-zero, else keeps its value. -/
  | pick (k : Nat) (b : Bool) (gd ga gb : GReg) (fin : Bool)
  /-- MUL (R67): Format T multiply, low 32 bits, with latency 3. -/
  | mul (k : Nat) (b : Bool) (gd ga gb : GReg) (fin : Bool)
  /-- MULHI (R67): Format T signed multiply, high 32 bits. -/
  | mulhi (k : Nat) (b : Bool) (gd ga gb : GReg) (fin : Bool)
  /-- MULHIU (R67): Format T unsigned multiply, high 32 bits. -/
  | mulhiu (k : Nat) (b : Bool) (gd ga gb : GReg) (fin : Bool)
  /-- ADD_K (R66): Add of a sign-extended 14-bit constant. -/
  | addK (k : Nat) (b : Bool) (gd ga : GReg) (k14 : BitVec 14) (fin : Bool)
  /-- AND_K (R66): AND with a zero-extended constant. -/
  | andK (k : Nat) (b : Bool) (gd ga : GReg) (k14 : BitVec 14) (fin : Bool)
  /-- OR_K (R66): OR with a zero-extended constant. -/
  | orK (k : Nat) (b : Bool) (gd ga : GReg) (k14 : BitVec 14) (fin : Bool)
  /-- XOR_K (R66): XOR with a zero-extended constant. -/
  | xorK (k : Nat) (b : Bool) (gd ga : GReg) (k14 : BitVec 14) (fin : Bool)
  /-- LT_K (R66): Signed compare with a sign-extended constant. -/
  | ltK (k : Nat) (b : Bool) (gd ga : GReg) (k14 : BitVec 14) (fin : Bool)
  /-- LTU_K (R66): Unsigned compare with a zero-extended constant. -/
  | ltuK (k : Nat) (b : Bool) (gd ga : GReg) (k14 : BitVec 14) (fin : Bool)
  /-- SHL_K (R66): Left shift by a constant. -/
  | shlK (k : Nat) (b : Bool) (gd ga : GReg) (k14 : BitVec 14) (fin : Bool)
  /-- SHR_K (R66): Logical right shift by a constant. -/
  | shrK (k : Nat) (b : Bool) (gd ga : GReg) (k14 : BitVec 14) (fin : Bool)
  /-- SAR_K (R66): Arithmetic right shift by a constant. -/
  | sarK (k : Nat) (b : Bool) (gd ga : GReg) (k14 : BitVec 14) (fin : Bool)
  /-- MUL_K (R66): Multiply by a sign-extended constant, low 32 bits. -/
  | mulK (k : Nat) (b : Bool) (gd ga : GReg) (k14 : BitVec 14) (fin : Bool)
  /-- SETU (R66): Sets gd to k18 times 2^14. -/
  | setu (k : Nat) (b : Bool) (gd : GReg) (k18 : BitVec 18) (fin : Bool)
  /-- B_EQ (R79): Branches if ga equals gb, after two delay slots. -/
  | bEq (k : Nat) (b : Bool) (ga gb : GReg) (disp : BitVec 15) (fin : Bool)
  /-- B_NE (R79): Branches if ga differs from gb. -/
  | bNe (k : Nat) (b : Bool) (ga gb : GReg) (disp : BitVec 15) (fin : Bool)
  /-- B_LT (R79): Branches on signed less-than. -/
  | bLt (k : Nat) (b : Bool) (ga gb : GReg) (disp : BitVec 15) (fin : Bool)
  /-- B_GE (R79): Branches on signed greater-or-equal. -/
  | bGe (k : Nat) (b : Bool) (ga gb : GReg) (disp : BitVec 15) (fin : Bool)
  /-- B_LTU (R79): Branches on unsigned less-than. -/
  | bLtu (k : Nat) (b : Bool) (ga gb : GReg) (disp : BitVec 15) (fin : Bool)
  /-- B_GEU (R79): Branches on unsigned greater-or-equal. -/
  | bGeu (k : Nat) (b : Bool) (ga gb : GReg) (disp : BitVec 15) (fin : Bool)
  /-- JMP_L (R66): Relative jump and link, with two delay slots. -/
  | jmpL (k : Nat) (b : Bool) (gd : GReg) (disp : BitVec 17) (fin : Bool)
  /-- JMP_LR (R66): Indirect jump to ga and link; a bad target raises ACCESS_FAULT. -/
  | jmpLr (k : Nat) (b : Bool) (gd ga : GReg) (fin : Bool)
  /-- LOOP_I (R80): Hardware-loop setup with an immediate count. -/
  | loopI (k : Nat) (b : Bool) (one rot : Bool) (count e : BitVec 12) (fin : Bool)
  /-- LOOP_R (R80): Hardware-loop setup with the count taken from ga. -/
  | loopR (k : Nat) (b : Bool) (one rot : Bool) (ga : GReg) (e : BitVec 12) (fin : Bool)
  /-- LOOP_BACK_EDGE (R81): The bundle at LEk issues with LCk at least 1: the count decrements, control goes back to LBk and ROT may advance. -/
  | loopBackEdge (k : Nat)
  /-- RDC (R57): Reads a control register into gd. -/
  | rdc (k : Nat) (b : Bool) (gd : GReg) (csel : BitVec 6) (fin : Bool)
  /-- WRC (R57): Writes a control register from ga; an RO register or an unlisted selector raises ILLEGAL. -/
  | wrc (k : Nat) (b : Bool) (csel : BitVec 6) (ga : GReg) (fin : Bool)
  /-- IE_OFF (R66): Clears IE and masks interrupts. -/
  | ieOff (k : Nat) (b : Bool) (fin : Bool)
  /-- IE_ON (R66): Sets IE, except while EXL is 1. -/
  | ieOn (k : Nat) (b : Bool) (fin : Bool)
  /-- ERET (R90): Returns from an exception: restores STAT from ESTAT and continues at EPC, or re-issues the V operation from VIDX. -/
  | eret (k : Nat) (b : Bool) (fin : Bool)
  /-- TRAP (R66): Raises the TRAP exception with DETAIL k13. -/
  | trap (k : Nat) (b : Bool) (k13 : BitVec 13) (fin : Bool)
  /-- PREEMPT (R102): The core takes the pre-emption interrupt at an allowed bundle boundary and enters the handler. -/
  | preempt (k : Nat)
  /-- MASK_OVERRUN (R94): A masked region reaches 4,096 Tc, and the core ends the task with a terminal cause. -/
  | maskOverrun (k : Nat)
  /-- FETCH_POISON (R89): An instruction fetch meets poison: the task fails terminally and the instruction memory is reloaded. -/
  | fetchPoison (k : Nat)
  /-- LD_B (R69): Loads a byte, sign-extended. -/
  | ldB (k : Nat) (rd base : GReg) (off16 : BitVec 16) (fin : Bool)
  /-- LD_BU (R69): Loads a byte, zero-extended. -/
  | ldBu (k : Nat) (rd base : GReg) (off16 : BitVec 16) (fin : Bool)
  /-- LD_H (R69): Loads a halfword, sign-extended. -/
  | ldH (k : Nat) (rd base : GReg) (off16 : BitVec 16) (fin : Bool)
  /-- LD_HU (R69): Loads a halfword, zero-extended. -/
  | ldHu (k : Nat) (rd base : GReg) (off16 : BitVec 16) (fin : Bool)
  /-- LD_W (R73): Loads a word; the access and its code check finish before the next bundle issues. -/
  | ldW (k : Nat) (rd base : GReg) (off16 : BitVec 16) (fin : Bool)
  /-- ST_B (R69): Stores a byte. -/
  | stB (k : Nat) (rs base : GReg) (off16 : BitVec 16) (fin : Bool)
  /-- ST_H (R69): Stores a halfword. -/
  | stH (k : Nat) (rs base : GReg) (off16 : BitVec 16) (fin : Bool)
  /-- ST_W (R74): Stores a word, directly or through the store-gather buffer. -/
  | stW (k : Nat) (rs base : GReg) (off16 : BitVec 16) (fin : Bool)
  /-- LD_W_PM (R69): Loads a word, then adds the offset to the base. -/
  | ldWPm (k : Nat) (rd base : GReg) (off16 : BitVec 16) (fin : Bool)
  /-- ST_W_PM (R69): Stores a word, then adds the offset to the base. -/
  | stWPm (k : Nat) (rs base : GReg) (off16 : BitVec 16) (fin : Bool)
  /-- LD_D (R69): Loads 64 bits into an f register. -/
  | ldD (k : Nat) (fd : FReg) (base : GReg) (off13 : BitVec 13) (fin : Bool)
  /-- ST_D (R69): Stores 64 bits from an f register. -/
  | stD (k : Nat) (fs : FReg) (base : GReg) (off13 : BitVec 13) (fin : Bool)
  /-- LDF_W (R71): Far load of a word at a 48-bit device address. -/
  | ldfW (k : Nat) (rd base : GReg) (off16 : BitVec 16) (fin : Bool)
  /-- STF_W (R71): Far store of a word. -/
  | stfW (k : Nat) (rs base : GReg) (off16 : BitVec 16) (fin : Bool)
  /-- LDF_D (R71): Far load of 64 bits into an f register. -/
  | ldfD (k : Nat) (fd : FReg) (base : GReg) (off13 : BitVec 13) (fin : Bool)
  /-- STF_D (R71): Far store of 64 bits. -/
  | stfD (k : Nat) (fs : FReg) (base : GReg) (off13 : BitVec 13) (fin : Bool)
  /-- CSAVE (R95): Stores the selected control registers to a 64-byte control block. -/
  | csave (k : Nat) (off5 : BitVec 5) (base : GReg) (mask16 : BitVec 16) (fin : Bool)
  /-- CREST (R95): Loads the selected control registers from a control block. -/
  | crest (k : Nat) (off5 : BitVec 5) (base : GReg) (mask16 : BitVec 16) (fin : Bool)
  /-- STORE_GATHER_DRAIN (R74): A store-gather entry drains to its target, at any time and in any order. -/
  | storeGatherDrain (k e : Nat)
  /-- SETTLE (R76): Waits until all store-gather entries have landed, then drops the read-buffer lines. -/
  | settle (k : Nat) (fin : Bool)
  /-- DONE (R99): Ends the task: completes all operations, settles, and reports completion with STATUS. -/
  | done (k : Nat) (status : Byte) (fin : Bool)
  /-- WAIT_TASK (R96): The core idles until a dispatch arrives. -/
  | waitTask (k : Nat) (fin : Bool)
  /-- WAIT_EV (R101): Waits until all or any of up to 4 match entries have matched, then issues with the match mask. -/
  | waitEv (k : Nat) (rd rs : GReg) (imm11 : BitVec 11) (fin : Bool)
  /-- YIELD_PRE (R103): Suspends the pre-empted task and returns the core to idle for the pre-empting dispatch. -/
  | yieldPre (k : Nat) (fin : Bool)
  /-- Q_PUSH (R100): Enqueues a 64-byte descriptor on a queue and returns ACCEPTED, DROPPED or REFUSED. -/
  | qPush (k : Nat) (rd rs rt : GReg) (imm11 : BitVec 11) (fin : Bool)
  /-- EQ_PUSH (R139): Settles and pushes an engine command block, and returns a tag and a status. -/
  | eqPush (k : Nat) (rd rs rt : GReg) (imm11 : BitVec 11) (fin : Bool)
  /-- ESAVE (R145): Core operation that pushes the save of a resident engine context to memory. -/
  | esave (k : Nat) (rd rs rt : GReg) (imm11 : BitVec 11) (fin : Bool)
  /-- EREST (R145): Core operation that pushes the load of a context image into an engine slot. -/
  | erest (k : Nat) (rd rs rt : GReg) (imm11 : BitVec 11) (fin : Bool)
  /-- VLD_Q (R127): Loads 64 bytes into a group. -/
  | vldQ (k : Nat) (grp : Grp) (gb : GReg) (off16 : BitVec 16) (fin : Bool)
  /-- VLD_Q_PM (R138): Loads 64 bytes into a group, with post-modify of the base. -/
  | vldQPm (k : Nat) (grp : Grp) (gb : GReg) (off16 : BitVec 16) (fin : Bool)
  /-- VST_Q (R127): Stores a group of 64 bytes. -/
  | vstQ (k : Nat) (grp : Grp) (gb : GReg) (off16 : BitVec 16) (fin : Bool)
  /-- VST_Q_PM (R138): Stores a group, with post-modify of the base. -/
  | vstQPm (k : Nat) (grp : Grp) (gb : GReg) (off16 : BitVec 16) (fin : Bool)
  /-- VLD_V (R127): Loads 256 bytes into a long register. -/
  | vldV (k : Nat) (v : BitVec 3) (gb : GReg) (off16 : BitVec 16) (fin : Bool)
  /-- VST_V (R127): Stores 256 bytes from a long register. -/
  | vstV (k : Nat) (v : BitVec 3) (gb : GReg) (off16 : BitVec 16) (fin : Bool)
  /-- VLD_B (R127): Loads bfpN blocks into a long register, unpacking mantissas and exponents. -/
  | vldB (k : Nat) (v : BitVec 3) (gb : GReg) (off16 : BitVec 16) (fin : Bool)
  /-- VLD_B_PM (R138): Loads bfp blocks with post-modify by the packed size. -/
  | vldBPm (k : Nat) (v : BitVec 3) (gb : GReg) (off16 : BitVec 16) (fin : Bool)
  /-- VST_B (R127): Packs bfp blocks to memory, narrowing mantissas and setting SATF. -/
  | vstB (k : Nat) (v : BitVec 3) (gb : GReg) (off16 : BitVec 16) (fin : Bool)
  /-- VST_B_PM (R138): Packs bfp blocks with post-modify. -/
  | vstBPm (k : Nat) (v : BitVec 3) (gb : GReg) (off16 : BitVec 16) (fin : Bool)
  /-- VLDF_Q (R127): Far load of a group. -/
  | vldfQ (k : Nat) (grp : Grp) (gb : GReg) (off16 : BitVec 16) (fin : Bool)
  /-- VSTF_Q (R127): Far store of a group. -/
  | vstfQ (k : Nat) (grp : Grp) (gb : GReg) (off16 : BitVec 16) (fin : Bool)
  /-- VLDF_B (R127): Far load of bfp blocks. -/
  | vldfB (k : Nat) (v : BitVec 3) (gb : GReg) (off16 : BitVec 16) (fin : Bool)
  /-- VSTF_B (R127): Far store of bfp blocks. -/
  | vstfB (k : Nat) (v : BitVec 3) (gb : GReg) (off16 : BitVec 16) (fin : Bool)
  /-- MFR (R131): Copies 32 bits of an f register to a g register. -/
  | mfr (k : Nat) (gd : GReg) (fs : FReg) (h : Bool) (fin : Bool)
  /-- ASAVE (R132): Saves a 640-byte accumulator image to near memory. -/
  | asave (k : Nat) (a : Bool) (gb : GReg) (off16 : BitVec 16) (fin : Bool)
  /-- AREST (R132): Restores an accumulator image from near memory. -/
  | arest (k : Nat) (a : Bool) (gb : GReg) (off16 : BitVec 16) (fin : Bool)
  /-- VADD (R120): Element-wise add. -/
  | vadd (k : Nat) (long : Bool) (vd va vb : Grp) (sc : Bool) (fin : Bool)
  /-- VSUB (R120): Element-wise subtract. -/
  | vsub (k : Nat) (long : Bool) (vd va vb : Grp) (sc : Bool) (fin : Bool)
  /-- VMUL (R120): Element-wise multiply, complex for cq16, cf32 and bfp. -/
  | vmul (k : Nat) (long : Bool) (vd va vb : Grp) (sc cj : Bool) (fin : Bool)
  /-- VMIN (R120): Element-wise minimum. -/
  | vmin (k : Nat) (long : Bool) (vd va vb : Grp) (sc : Bool) (fin : Bool)
  /-- VMAX (R120): Element-wise maximum. -/
  | vmax (k : Nat) (long : Bool) (vd va vb : Grp) (sc : Bool) (fin : Bool)
  /-- VAND (R120): Element-wise bitwise AND. -/
  | vand (k : Nat) (long : Bool) (vd va vb : Grp) (sc : Bool) (fin : Bool)
  /-- VOR (R120): Element-wise bitwise OR. -/
  | vor (k : Nat) (long : Bool) (vd va vb : Grp) (sc : Bool) (fin : Bool)
  /-- VXOR (R120): Element-wise bitwise XOR. -/
  | vxor (k : Nat) (long : Bool) (vd va vb : Grp) (sc : Bool) (fin : Bool)
  /-- VSRA (R120): Element-wise arithmetic right shift with rounding. -/
  | vsra (k : Nat) (long : Bool) (vd va : Grp) (t : BitVec 5) (fin : Bool)
  /-- VSLL (R120): Element-wise left shift with narrowing. -/
  | vsll (k : Nat) (long : Bool) (vd va : Grp) (t : BitVec 5) (fin : Bool)
  /-- VPOW (R120): Power of cq16 elements as i32. -/
  | vpow (k : Nat) (long : Bool) (vd va : Grp) (fin : Bool)
  /-- VCVT (R121): Converts elements between types, bfp included. -/
  | vcvt (k : Nat) (long : Bool) (vd va : Grp) (tgt : BitVec 4) (fin : Bool)
  /-- VBCST (R120): Broadcasts a scalar to every element. -/
  | vbcst (k : Nat) (long : Bool) (vd : Grp) (gb : GReg) (fin : Bool)
  /-- VMOV (R120): Copies a whole operand. -/
  | vmov (k : Nat) (long : Bool) (vd va : Grp) (fin : Bool)
  /-- VZERO (R120): Writes zero over a whole operand. -/
  | vzero (k : Nat) (long : Bool) (vd : Grp) (fin : Bool)
  /-- CMAC (R123): Complex multiply-accumulate into an accumulator, applying bfp exponents. -/
  | cmac (k : Nat) (long ad : Bool) (tb : BitVec 2) (cj : Bool) (va vb : Grp) (fin : Bool)
  /-- CMUL (R123): Complex multiply into an accumulator. -/
  | cmul (k : Nat) (long ad : Bool) (tb : BitVec 2) (cj : Bool) (va vb : Grp) (fin : Bool)
  /-- ACLR (R123): Clears every lane of an accumulator. -/
  | aclr (k : Nat) (ad : Bool) (fin : Bool)
  /-- ARD_C (R124): Reads an accumulator into cq16 elements with shift and rounding. -/
  | ardC (k : Nat) (long : Bool) (vd : Grp) (a : Bool) (sh : BitVec 6) (fin : Bool)
  /-- ARD_V (R124): Reads an accumulator into normalized bfp blocks. -/
  | ardV (k : Nat) (vd : Grp) (a : Bool) (sh : BitVec 6) (fin : Bool)
  /-- VMIN_IX (R125): Finds the minimum and the index of its first occurrence. -/
  | vminIx (k : Nat) (long : Bool) (fd : FReg) (src : Grp) (abs : Bool) (fin : Bool)
  /-- VMAX_IX (R125): Finds the maximum and the index of its first occurrence. -/
  | vmaxIx (k : Nat) (long : Bool) (fd : FReg) (src : Grp) (abs : Bool) (fin : Bool)
  /-- VMIN2_IX (R126): Finds min1, its index and min2 for min-sum. -/
  | vmin2Ix (k : Nat) (long : Bool) (fd : FReg) (src : Grp) (abs : Bool) (fin : Bool)
  /-- VLDS (R128): Strided element load to near memory addresses. -/
  | vlds (k : Nat) (long : Bool) (vd : Grp) (base stride : GReg) (fin : Bool)
  /-- VSTS (R128): Strided element store. -/
  | vsts (k : Nat) (long : Bool) (vs : Grp) (base stride : GReg) (fin : Bool)
  /-- VGTH (R128): Indexed gather of elements. -/
  | vgth (k : Nat) (long : Bool) (vd : Grp) (base : GReg) (idx : Grp) (fin : Bool)
  /-- VSCT (R128): Indexed scatter of elements. -/
  | vsct (k : Nat) (long : Bool) (vs : Grp) (base : GReg) (idx : Grp) (fin : Bool)
  /-- COMBINE (R148): BFE uplink command combining antenna planes into streams for each RE. -/
  | combine (inst : Nat)
  /-- PRECODE (R148): BFE downlink command precoding layer planes into antenna planes. -/
  | precode (inst : Nat)
  /-- LOAD_WEIGHTS (R156): Copies a weight set into the inactive bank and marks it pending for its target slot. -/
  | loadWeights (inst : Nat)
  /-- DETECT (R171): DTE MMSE-IRC detection per PRB, with LLR demapping or equalized output. -/
  | detect (inst : Nat)
  /-- DEMAP (R177): DTE max-log demapping of symbols to int8 LLRs. -/
  | demap (inst : Nat)
  /-- WEIGHT_CALC (R178): DTE computes an MF or RZF weight set from sounding channels. -/
  | weightCalc (inst : Nat)
  /-- HINV (R179): DTE inverts or factors packed Hermitian matrices. -/
  | hinv (inst : Nat)
  /-- TRANSFORM (R185): TFE FFT, IFFT, DFT or IDFT with CP, phase and half-shift handling. -/
  | transform (inst : Nat)
  /-- FILTER (R214): FDC command that queues input samples of a channel for processing in slices. -/
  | filter (inst sn : Nat)
  /-- CONTROL (R216): FDC command changing DC mode, FTW, phase, coefficients, SYNC or threshold at the next slice turn. -/
  | control (inst sn : Nat)
  /-- FDC_SLICE (R211): The instance serves a slice of up to 128 outputs for the next channel in rotation. -/
  | fdcSlice (inst : Nat)
  /-- GLOBAL_FREEZE (R218): Write of FDC_DCB_CTRL that holds every DC estimate from each channel's next slice boundary. -/
  | globalFreeze (by_ : Agent) (inst : Nat) (v : Word)
  /-- DECODE (R228): LDE dematches, combines with HARQ data, decodes and writes back the code blocks of a transport block. -/
  | decode (inst : Nat)
  /-- TBCRC (R234): LDE checks a transport-block CRC and may release the HARQ entry. -/
  | tbcrc (inst : Nat)
  /-- ENCODE (R246): LEE encodes, rate-matches, scrambles, modulates and layer-maps one codeword. -/
  | encode (inst : Nat)
  /-- PCE_ENCODE (R251): PCE polar-encodes DCI or BCH codewords. -/
  | pceEncode (inst : Nat)
  /-- PCE_DECODE (R252): PCE SCL-decodes UCI codewords. -/
  | pceDecode (inst : Nat)
  /-- TURBO_DEC (R253): TCE decodes a whole LTE transport block with HARQ combining. -/
  | turboDec (inst : Nat)
  /-- TURBO_ENC (R255): TCE encodes an LTE codeword into the layer grid. -/
  | turboEnc (inst : Nat)
  /-- ENGINE_ESAVE (R145): The engine writes a resident context image and frees its slot unless KEEP is set. -/
  | engineEsave (cls inst sn : Nat)
  /-- ENGINE_EREST (R145): The engine loads a context image into a free slot, once a READY instance has room. -/
  | engineErest (cls inst sn : Nat)
  /-- CMD_SHED (R142): An engine command not yet started passes its deadline and completes with SHED. -/
  | cmdShed (sn : Nat)
  /-- HARQ_SCAN (R243): After a pseudo-channel loss, the directory part marks affected entries LOST. -/
  | harqScan (channel : Nat)
  /-- ENQUEUE (R266): A descriptor arrives at a queue and is accepted, held, dropped or refused. -/
  | enqueue (q fn : Nat) (desc : List Word)
  /-- STALL_END (R283): Space frees in a full STALL queue, or it is disabled, and the held enqueue completes. -/
  | stallEnd (q : Nat)
  /-- WG_OPEN (R296): Service descriptor that opens a wait group with a supervisor queue. -/
  | wgOpen (fn : Nat) (group sup : Nat) (ext : Bool)
  /-- WG_CLOSE (R296): Service descriptor that closes a wait group. -/
  | wgClose (fn group : Nat)
  /-- POST (R295): Service descriptor that publishes a software event with code 0x80-0xFF. -/
  | post (fn : Nat) (core : Option Nat) (payload : Word)
  /-- ABORT (R286): Service descriptor that aborts a named task of the producer's function with reason REQUESTED. -/
  | abort (fn : Nat) (taskid : Word)
  /-- EVENT (R288): An event reaches the fabric and is delivered to a task, enqueued as a note, or offered to triggers and waits. -/
  | event (n : Nat)
  /-- DISPATCH (R269): For a free executor the fabric selects the oldest eligible task at the highest level, Tilth places it, and it is dispatched. -/
  | dispatch (x : Exec) (sn : Nat) (taskid : Word) (save : Nat) (places : List Nat)
  /-- TASK_RELEASE (R276): A completed task whose commands and predecessors are done has its resources freed and its chain and events issued. -/
  | taskRelease (taskid : Word)
  /-- CHAINED_ENQUEUE (R277): The fabric fetches and enqueues the chained descriptor, waiting if the queue is a full STALL queue. -/
  | chainedEnqueue (taskid : Word)
  /-- PREEMPT_DECISION (R278): A pre-empting task is at the head with no free executor, and Tilth names a victim core. -/
  | preemptDecision (sn victim : Nat)
  /-- TASK_RESUME (R279): A free core resumes its best suspended task. -/
  | taskResume (k : Nat)
  /-- SHED_QUEUED (R282): A queued descriptor in a DROP_LATE queue fails the periodic lateness test and is shed. -/
  | shedQueued (sn : Nat)
  /-- EXPIRED (R268): An armed descriptor reaches its deadline and is removed. -/
  | expired (sn : Nat)
  /-- DEADLINE_WAIT (R284): A task in wait.ev reaches its deadline and is aborted. -/
  | deadlineWait (taskid : Word)
  /-- DEADLINE_RUN (R284): A running or suspended ABORT_LATE task reaches its deadline and is aborted. -/
  | deadlineRun (taskid : Word)
  /-- WATCHDOG (R285): A task's running time reaches RUN_LIMIT, it is aborted and a fault is reported. -/
  | watchdog (taskid : Word)
  /-- DEADLOCK (R298): The fabric finds a wait group deadlocked and notes the supervisor. -/
  | deadlock (fn group : Nat)
  /-- HFW_DB (R494): Host doorbell write setting a descriptor ring's new TAIL. -/
  | hfwDb (f n : Nat) (v : Word)
  /-- RING_FETCH (R300): The fabric fetches host ring descriptors in order and enqueues them, pausing on a full STALL queue. -/
  | ringFetch (f n : Nat) (data : List Word)
  /-- PUSH_SLOT (R301): A 64-byte push-window write is one enqueue; it is discarded if the queue is full. -/
  | pushSlot (f sl : Nat) (data : List Word) (whole : Bool)
  /-- HFW_DONE_HI (R498): Host completion doorbell that completes the staged host task with STATUS. -/
  | hfwDoneHi (f : Nat) (v : Word)
  /-- QCMD_READ (R304): TFB_QCMD READ of a QCB into staging, clearing NOTE_LOST. -/
  | qcmdRead (by_ : Agent)
  /-- QCMD_WRITE (R261): TFB_QCMD WRITE of staging into an idle QCB. -/
  | qcmdWrite (by_ : Agent)
  /-- QCMD_ENABLE (R261): TFB_QCMD ENABLE after a range check of the QCB. -/
  | qcmdEnable (by_ : Agent)
  /-- QCMD_DISABLE (R261): TFB_QCMD DISABLE, refusing later enqueues and releasing held producers. -/
  | qcmdDisable (by_ : Agent)
  /-- QCMD_FLUSH (R261): TFB_QCMD FLUSH of every queued and armed descriptor of a disabled queue. -/
  | qcmdFlush (by_ : Agent)
  /-- PCMD_READ (R333): TLT_PCMD READ of a pool record and status into staging. -/
  | pcmdRead (by_ : Agent)
  /-- PCMD_COMMIT (R308): TLT_PCMD COMMIT by Ward of a staged pool record after the checks. -/
  | pcmdCommit (by_ : Agent)
  /-- HCMD_READ (R623): TLT_HCMD READ of a handle entry. -/
  | hcmdRead (by_ : Agent)
  /-- HCMD_BIND (R623): TLT_HCMD BIND of a declared standing handle. -/
  | hcmdBind (by_ : Agent) (place : Nat)
  /-- HCMD_RELEASE (R623): TLT_HCMD RELEASE of a standing handle with REFS 0. -/
  | hcmdRelease (by_ : Agent)
  /-- MIGRATE (R325): Tilth copies an idle buffer to new storage and commits the new address. -/
  | migrate (handle : Word) (start : Bool) (place : Nat)
  /-- SHED_SLACK (R329): Tilth's periodic finish estimate sheds a ready DROP_LATE descriptor. -/
  | shedSlack (sn : Nat)
  /-- REPLACE (R315): Every 4,096 Tc, Tilth moves an unstarted engine command to an instance that can meet its slack. -/
  | replace (sn inst : Nat)
  /-- CTX_MOVE (R326): A draining engine's resident contexts are moved to another instance. -/
  | ctxMove (cls src ctx fn dst : Nat)
  /-- RERUN_PLACE (R327): An abandoned task or command is placed again at the head of its level. -/
  | rerunPlace (sn : Nat) (places : List Nat)
  /-- WRITE (R342): A data write flit reaches its target and is written with its codes. -/
  | write (f : Flit)
  /-- READ_REQ (R343): A read request flit reaches its target, which returns read data. -/
  | readReq (f : Flit)
  /-- READ_DATA (R349): Read data reaches its master, corrected or marked POISON. -/
  | readData (n hops corr unc : Nat)
  /-- WRITE_ACK (R342): A write acknowledge reaches its master and completes the write. -/
  | writeAck (n : Nat)
  /-- ABORT_TAIL (R353): A target receives the tail of an aborted burst, discards the held line and acknowledges ABORTED. -/
  | abortTail (ring src agent dst tag seq : Nat)
  /-- ERROR (R340): An error flit reaches its master with a status. -/
  | error (n : Nat)
  /-- CREDIT (R343): A credit flit returns write credits to a source stop. -/
  | credit (src dst n : Nat)
  /-- NAK (R347): A control packet with a CRC mismatch is discarded and NAKed, and the source retransmits. -/
  | nak (src agent dst seq : Nat)
  /-- CTRL_RETRANSMIT (R347): A REG_RD with no response for 2 µs is retransmitted. -/
  | ctrlRetransmit (src agent dst seq off : Nat)
  /-- SEGMENT_FAIL (R350): A segment times out or fails parity repeatedly and its streams move to the other ring. -/
  | segmentFail (ring stop : Nat) (lost : List (Nat × Nat × Nat)) (items : List Nat)
  /-- SCRUB (R381): The patrol scrub reads a location in its slot and corrects it if needed. -/
  | scrub (pg found sym : Nat)
  /-- CORRECTION_WRITEBACK (R376): A corrected line or byte is written back in the bank's next slot. -/
  | correctionWriteback (addr sym : Nat)
  /-- POISON_WRITE (R372): An uncorrectable location is written with POISON and reported. -/
  | poisonWrite (addr requester : Nat) (second : Bool)
  /-- AUTO_ROW_RETIRE (R379): A row reaching THRESH corrections is copied into a spare row. -/
  | autoRowRetire (pg row : Nat)
  /-- TEND_ROW (R379): MEM_BK_ROW_CMD write that retires a named row. -/
  | tendRow (by_ : Agent) (pg row : Nat)
  /-- PIN_FAIL (R377): 64 corrections on one symbol position mark an HBM pin failed. -/
  | pinFail (p sym : Nat)
  /-- CHANNEL_LOSS (R388): A pseudo-channel faults: mirrors are served from the other copy, interleaved blocks relocated and the slice poisoned. -/
  | channelLoss (p reason detail : Nat) (rebuild : Bool)
  /-- BANK_LOSS (R388): A deep-buffer bank faults and its range reads as poison. -/
  | bankLoss (b reason detail : Nat)
  /-- HOST_BAR2_READ (R488): A host read through PF BAR2 or a VF aperture. -/
  | hostBar2Read (f off len : Nat)
  /-- HOST_BAR2_WRITE (R488): A host posted write through BAR2. -/
  | hostBar2Write (f off : Nat) (data : List Byte)
  /-- DMA_REQUEST (R397): A requester raises a request on a DMA line; it is held pending or refused if the line is full. -/
  | dmaRequest (line addr len : Nat) (data : List Byte)
  /-- DMA_BURST (R398): At its turn, a channel moves one burst for its oldest request, reshaping as its MODE says. -/
  | dmaBurst (ch rf rfAt landed : Nat) (host : List Byte)
  /-- BURST_COMPLETE (R397): A burst's writes are all acknowledged; its request is acknowledged and the entry events fire. -/
  | burstComplete (ch : Nat)
  /-- DMA_RESUME (R406): DMA_CH_CMD RESUME re-runs the failing burst. -/
  | dmaResume (by_ : Agent) (ch : Nat)
  /-- DMA_SKIP (R406): DMA_CH_CMD SKIP fails the request and advances one burst. -/
  | dmaSkip (by_ : Agent) (ch : Nat)
  /-- DMA_RESET (R406): DMA_CH_CMD RESET aborts bursts, fails pending requests and rewinds the lists. -/
  | dmaReset (by_ : Agent) (ch : Nat)
  /-- KICK (R408): DMA_CH_CMD KICK adds one request to a MEM channel. -/
  | kick (by_ : Agent) (ch : Nat)
  /-- SLIP (R424): LN_ALIGN write that delays the word boundary by one bit and clears LOCK. -/
  | slip (by_ : Agent) (l : Nat)
  /-- LOCK_CONFIRM (R425): After a hold, the PCS checks the next two markers. -/
  | lockConfirm (l : Nat) (ok : Bool)
  /-- CDR_LOSS (R436): A READY lane loses CDR lock. -/
  | cdrLoss (l : Nat)
  /-- RECAL_RX (R432): LN_RECAL RX trims the receiver and measures the middle eye on a TENDING lane. -/
  | recalRx (by_ : Agent) (l : Nat) (both : Bool)
  /-- RECAL_TX (R432): LN_RECAL TX trims the driver swing and termination. -/
  | recalTx (by_ : Agent) (l : Nat)
  /-- RECAL_DONE (R432): A recalibration ends with OK, EYE_LOW or NO_SIGNAL. -/
  | recalDone (l eye : Nat) (cdr : Bool)
  /-- EYE_MEASURE (R421): LN_EYE_CTRL START counts monitor mismatches over 2^L UI. -/
  | eyeMeasure (by_ : Agent) (l : Nat) (v : Word) (n : Nat)
  /-- SWEEP (R422): LN_SWEEP_CTRL START measures each receiver candidate setting in turn. -/
  | sweep (by_ : Agent) (l count : Nat)
  /-- SWEEP_DONE (R422): The last candidate is measured and the lane's own settings are restored. -/
  | sweepDone (l : Nat) (found : List (List Nat))
  /-- TX_SLEEP (R426): LN_SLEEP TX_SLEEP write that puts the transmitter to sleep or wakes it. -/
  | txSleep (by_ : Agent) (l : Nat) (on : Bool)
  /-- RX_SLEEP (R427): LN_SLEEP RX_SLEEP write that sleeps or wakes the receiver by hand. -/
  | rxSleep (by_ : Agent) (l : Nat) (on : Bool)
  /-- WINDOW_OPEN (R429): A scheduled window opens and the receiver stops sampling. -/
  | windowOpen (l : Nat)
  /-- WINDOW_WAKE (R430): A receiver starts to wake 4,096 Tc before a window END. -/
  | windowWake (l : Nat)
  /-- SCHED_COMMIT (R428): LNG_SCHED_CTRL COMMIT checks a schedule's staging. -/
  | schedCommit (by_ : Agent) (o k : Nat)
  /-- SCHED_APPLY (R428): A committed schedule is copied in at its next period boundary. -/
  | schedApply (o k : Nat)
  /-- RX_FRAME (R438): The MAC checks and stamps a received frame and sends it to the framer or the time base. -/
  | rxFrame (p sub : Nat) (bytes host : List (BitVec 8))
  /-- TX_FRAME (R439): The highest eligible egress queue sends one whole frame. -/
  | txFrame (p : Nat)
  /-- U_PLANE_FRAME (R444): The framer judges a U-plane frame against its window and writes its sections to staging. -/
  | uPlaneFrame (f : Nat)
  /-- EARLY_RELEASE (R444): A held early frame is processed when its window opens. -/
  | earlyRelease (f : Nat)
  /-- RX_WINDOW_CLOSE (R445): A symbol's window ends and the missing PRBs are zero-filled. -/
  | rxWindowClose (f c start : Nat)
  /-- SYMBOL_COMPLETE (R445): Once every write of the symbol is acknowledged, the framer posts SYMBOL_COMPLETE. -/
  | symbolComplete (f c start : Nat)
  /-- STAGING_NOTICE (R447): An engine notice counts toward releasing or readying a staging half. -/
  | stagingNotice (n : Nat)
  /-- RING_POLL (R448): The framer reads its command ring head, at least every 1 µs. -/
  | ringPoll (f : Nat)
  /-- CPLANE (R448): A CPLANE ring entry is framed and sent at TX_TIME, or discarded if too late. -/
  | cplane (f : Nat)
  /-- READY (R448): A READY ring entry counts as a notice for a BY_RING carrier. -/
  | ready (f : Nat)
  /-- RELEASE (R448): A RELEASE ring entry counts as a notice for a BY_RING carrier. -/
  | release (f : Nat)
  /-- EGRESS (R449): Egress of a downlink symbol starts at its window start, or when its half is ready. -/
  | egress (f c h : Nat)
  /-- EGRESS_MISSED (R449): A half not ready at WIN_END is freed and the symbol is not sent. -/
  | egressMissed (f c h : Nat)
  /-- FRAMER_TAKEOVER (R452): Framer #16 takes over a failed framer's tables and ring position. -/
  | framerTakeover (f : Nat) (how : RiseHow)
  /-- OWD_REQUEST (R453): A received one-way delay request is answered with a response. -/
  | owdRequest (f : Nat)
  /-- OWD_RESPONSE (R453): A received response records the delay. -/
  | owdResponse (f : Nat)
  /-- OWD_REMOTE_REQUEST (R453): A remote request makes the framer send a request at once. -/
  | owdRemoteRequest (f : Nat)
  /-- FRM_READ (R482): FRM_TCMD READ of a flow or carrier entry. -/
  | frmRead (by_ : Agent) (f : Nat)
  /-- FRM_WRITE (R440): FRM_TCMD WRITE of a disabled entry. -/
  | frmWrite (by_ : Agent) (f : Nat)
  /-- FRM_ENABLE (R482): FRM_TCMD ENABLE of an entry. -/
  | frmEnable (by_ : Agent) (f : Nat)
  /-- FRM_DISABLE (R482): FRM_TCMD DISABLE of an entry. -/
  | frmDisable (by_ : Agent) (f : Nat)
  /-- SLEW (R458): TB_SLEW write slews AIRTIME by an offset through a bounded rate change. -/
  | slew (by_ : Agent) (v : BitVec 32)
  /-- STEP (R458): TB_STEP_HI write steps AIRTIME forward at once, or holds a backward step. -/
  | step (by_ : Agent) (v : BitVec 64)
  /-- STEP_APPLY (R458): A held backward step is applied once every generator is disabled. -/
  | stepApply
  /-- PPS_OUT (R463): PPS_OUT rises at each second boundary plus the offset. -/
  | ppsOut
  /-- PPS_IN (R463): A PPS_IN rising edge is stamped. -/
  | ppsIn (sub : Nat)
  /-- TOD_TX (R464): A 16-byte ToD message is sent after a PPS_OUT edge. -/
  | todTx (utc : BitVec 16)
  /-- TOD_RX (R464): A received ToD message is checked and latched. -/
  | todRx (msg : List (BitVec 8))
  /-- PTP_TX (R462): A transmit-ring PTP entry is sent and stamped. -/
  | ptpTx (host : List (BitVec 8))
  /-- TIMED_REQUEST (R466): A timed request raises its DMA line at BASE plus k times PERIOD. -/
  | timedRequest (t : Nat)
  /-- GEN_ENABLE (R467): GEN_CFG write that enables a tick generator with a checked layout. -/
  | genEnable (by_ : Agent) (g : Nat) (v : BitVec 32)
  /-- TRAINING (R474): The LEAD end trains the Realvin link, numbers and deskews its lanes and resolves the roles. -/
  | training (n : Nat) (lead : Bool) (peer : BitVec 64) (timeout : BitVec 16) (lanes : Nat)
  /-- RV_WRITE (R476): A WRITE packet from the peer lands in an inbound window or is rejected. -/
  | rvWrite (n : Nat) (pkt : List (BitVec 8))
  /-- RV_ENQUEUE (R477): An ENQUEUE packet is enqueued on PEER_Q as the link's function. -/
  | rvEnqueue (n : Nat) (pkt : List (BitVec 8))
  /-- RV_EVENT (R478): A forwarded event is published with source class 0x08. -/
  | rvEvent (n : Nat) (pkt : List (BitVec 8))
  /-- REPLAY (R471): On a NAK, the sender replays from the first unacknowledged packet. -/
  | replay (n : Nat) (pkt : List (BitVec 8))
  /-- REPLAY_TIMEOUT (R471): A packet unacknowledged for REPLAY_TIMEOUT is replayed. -/
  | replayTimeout (n : Nat)
  /-- RETRAIN (R471): After 4 replays without progress, or loss of the last lane, the link retrains. -/
  | retrain (n : Nat)
  /-- LINK_DOWN (R471): Retraining fails within 100 ms and the link goes down, losing unacknowledged packets. -/
  | linkDown (n : Nat)
  /-- SILT_ADJUST (R470): At each frame end, the elastic buffer deletes or doubles the Silt block. -/
  | siltAdjust (n : Nat) (above below : Bool)
  /-- LANE_REMOVED (R473): A failing lane is removed by AM handshake and traffic re-striped. -/
  | laneRemoved (n lane : Nat)
  /-- LANE_ADDED (R473): A recovered lane is trained, deskewed and added at a confirmed frame. -/
  | laneAdded (n lane : Nat)
  /-- SWAP_REQ (R475): RV_SWAP REQ write sends SWAP_REQ in the AMs. -/
  | swapReq (by_ : Agent) (n : Nat)
  /-- SWAP_ACK (R475): An answer or a crossing request arrives and the roles exchange at the next frame. -/
  | swapAck (n : Nat) (request : Bool) (timeout : BitVec 16)
  /-- RV_TCMD_READ (R484): RV_TCMD READ of a window, map or filter entry. -/
  | rvTcmdRead (by_ : Agent) (n : Nat)
  /-- RV_TCMD_WRITE (R484): RV_TCMD WRITE of a window, map or filter entry. -/
  | rvTcmdWrite (by_ : Agent) (n : Nat)
  /-- PERST_N (R486): PERST_N resets the PCIe domain and the host interface. -/
  | perstN (low : Bool) (rate width : Nat)
  /-- FLR (R503): Function Level Reset stops rings, fails host tasks and resets the delivery rings of one function. -/
  | flr (f : Nat)
  /-- REGISTER_WRITE (R27): A write to a register with no row of its own, checked against access code, range, ownership and lock. -/
  | registerWrite (by_ : Agent) (off width : Nat) (v : Word) (aux : Aux)
  /-- PG_IRQ_FORCE (R506): Write that sets PG_IRQ_STAT bits as hardware would, possibly raising the vector. -/
  | pgIrqForce (by_ : Agent) (pg : Nat) (v : Word)
  /-- PG_OWNER (R509): Write of owner, lock and vector, judged whole under the ownership rules. -/
  | pgOwner (by_ : Agent) (pg : Nat) (v : Word)
  /-- MBX_GO (R500): GO submits the mailbox request to Ward's queue, or returns BUSY. -/
  | mbxGo (f : Nat)
  /-- MBX_SERVE (R500): Ward takes the next queued request, runs it and writes the response. -/
  | mbxServe (aux : Aux) (pass : Bool)
  /-- QCB_READ (R501): Mailbox read of a QCB the requester owns. -/
  | qcbRead
  /-- QCB_WRITE (R501): Mailbox write of QCB words 0-5. -/
  | qcbWrite
  /-- QUEUE_ENABLE (R501): Mailbox enable of a queue. -/
  | queueEnable
  /-- QUEUE_DISABLE (R501): Mailbox disable of a queue. -/
  | queueDisable
  /-- QUEUE_FLUSH (R501): Mailbox flush of a queue. -/
  | queueFlush
  /-- HANDLE_BIND (R501): Mailbox bind of a standing handle. -/
  | handleBind (place : Nat)
  /-- HANDLE_RELEASE (R501): Mailbox release of a standing handle. -/
  | handleRelease
  /-- HANDLE_READ (R501): Mailbox read of a handle entry. -/
  | handleRead
  /-- REG_READ (R501): Mailbox read of a register on a page the requester owns. -/
  | regRead
  /-- REG_WRITE (R501): Mailbox write of a register on a page the requester owns. -/
  | regWrite (aux : Aux)
  /-- POOL_WRITE (R501): Mailbox pool record write, committed by Ward. -/
  | poolWrite
  /-- POOL_READ (R501): Mailbox read of a pool record. -/
  | poolRead
  /-- POWER_READ (R540): Mailbox read of mode, octant states and power. -/
  | powerRead
  /-- THERMAL_READ (R540): Mailbox read of temperatures. -/
  | thermalRead
  /-- BOOT_STATUS (R582): Mailbox read of boot status, slot versions and rollback counters. -/
  | bootStatus
  /-- BOOT_COMMIT (R582): Marks the booted slot committed. -/
  | bootCommit
  /-- FLASH_WRITE (R582): Writes up to 240 bytes into a flash slot. -/
  | flashWrite
  /-- SLOT_ACTIVATE (R582): Verifies the inactive slot and makes it preferred for trial. -/
  | slotActivate
  /-- PART_LOAD (R582): Loads a part's image from a slot. -/
  | partLoad
  /-- WARD_UPDATE (R569): Loads new Ward firmware into the standby pair and swaps the pairs. -/
  | wardUpdate
  /-- ROLLBACK_ADVANCE (R582): Advances an OTP rollback counter. -/
  | rollbackAdvance
  /-- DEVICE_RESET (R545): Resets every domain but always-on and PCIe and returns to BOOT. -/
  | deviceReset (byWard : Bool)
  /-- FAULT_LOG_READ (R582): Mailbox read of fault log records. -/
  | faultLogRead
  /-- RING_RETURN (R574): Tests a failed ring segment and returns the ring to service. -/
  | ringReturn (pass : Bool)
  /-- OWNER_ENROL (R582): Writes an owner seed slot in OTP. -/
  | ownerEnrol
  /-- OTP_WRITE (R583): Programs and verifies one OTP field. -/
  | otpWrite (pass : Bool)
  /-- RISE (R507): PG_CMD RISE brings a DOWN part through RISING to READY or back to DOWN. -/
  | rise (by_ : Agent) (pg : Nat) (how : RiseHow)
  /-- DRAIN (R507): PG_CMD DRAIN stops new work on a READY part. -/
  | drain (by_ : Agent) (pg : Nat)
  /-- TEND (R507): PG_CMD TEND drains a READY part, or moves a DOWN or FAULTED part, to TENDING. -/
  | tend (by_ : Agent) (pg : Nat)
  /-- DRAIN_COMPLETE (R507): A draining part's work ends and it enters TENDING, RETAINED or RETIRED. -/
  | drainComplete (pg : Nat)
  /-- RESUME (R507): PG_CMD RESUME returns a draining, tending or retained part to READY. -/
  | resume (by_ : Agent) (pg : Nat) (how : RiseHow)
  /-- RETIRE (R572): PG_CMD RETIRE retires a part and hands its logical identity to a spare. -/
  | retire (by_ : Agent) (pg : Nat) (how : RiseHow)
  /-- RETAIN (R516): PG_CMD RETAIN drains a part and puts it at retention. -/
  | retain (by_ : Agent) (pg : Nat)
  /-- RISE_TIMEOUT (R507): A part fails to reach READY within its ceiling after RISE or RESUME. -/
  | riseTimeout (pg : Nat)
  /-- PART_FAULT (R575): A Hardpan region detects a fault, makes the part FAULTED and reports to Ward. -/
  | partFault (pg reason detail : Nat) (contained : Bool)
  /-- SERVE (R513): DEV_CMD SERVE moves the device from RISE to SERVE. -/
  | serve (by_ : Agent)
  /-- REST (R520): DEV_CMD REST drains work and puts the device at whole-device retention. -/
  | rest (by_ : Agent) (write : Bool)
  /-- REST_ABANDON (R520): Work not done within 1 ms abandons REST entry. -/
  | restAbandon
  /-- WAKE (R523): DEV_CMD WAKE wakes the device from REST. -/
  | wake (by_ : Agent)
  /-- WAKE_N (R522): WAKE_N held low at least 1 µs wakes the device. -/
  | wakeN
  /-- ALARM (R522): AIRTIME reaches the wake alarm. -/
  | alarm
  /-- PPS_WAKE (R522): PPS_COUNT edges of PPS_IN wake the device. -/
  | ppsWake
  /-- TEST (R513): DEV_CMD TEST enters TEST mode. -/
  | test (by_ : Agent)
  /-- LEAVE_TEST (R513): DEV_CMD LEAVE_TEST returns to RISE. -/
  | leaveTest (by_ : Agent)
  /-- PAD_RELEASE (R525): Releases a held pad group whose domain is powered. -/
  | padRelease (by_ : Agent) (groups : Nat)
  /-- PHASE_OPEN (R531): A regulator phase fails open and is dropped. -/
  | phaseOpen (ph : Nat)
  /-- SENSE_FAIL (R534): A phase current sense fails and the phase goes to shadow sharing. -/
  | senseFail (ph : Nat)
  /-- AVS_UPDATE (R528): Every 100 µs the octant loop sets a new rail target. -/
  | avsUpdate (o target rail current core total : Nat)
  /-- RAIL_FAULT (R529): An octant rail stays below 550 mV for more than 1 µs and its parts fault. -/
  | railFault (o : Nat)
  /-- THERMAL_SAMPLE (R536): A sensor read updates Tj and asserts or clears the warning. -/
  | thermalSample (sensors hbms : List Int)
  /-- THERMAL_SAFE (R537): A sensor reaches 115 °C and the device enters SAFE. -/
  | thermalSafe (sensor : Nat)
  /-- THERMTRIP (R538): A sensor reaches 125 °C and THERMTRIP_N is asserted and latched. -/
  | thermtrip
  /-- POWER_ON (R545): Supplies in range and RESET_N released start a power-on reset. -/
  | powerOn (gpio : Nat)
  /-- POWER_OFF (R513): Supply removal takes the device to OFF. -/
  | powerOff
  /-- RESET_N (R545): RESET_N low for 10 µs resets the device. -/
  | resetN (gpio : Nat)
  /-- AON_POR (R594): VDD_AON below 0.60 V acts as RESET_N low. -/
  | aonPor (gpio : Nat)
  /-- BOOT (R547): Ward ROM reads OTP, chooses a slot and verifies and starts the Ward firmware. -/
  | boot
  /-- RISE_SEQUENCE (R561): Ward rises the parts in order as their prerequisites become READY. -/
  | riseSequence (pg : Nat) (how : RiseHow)
  /-- IMEM_DATA (R585): GVI_IMEM_DATA write stores an instruction word, advances the address and clears VALID. -/
  | imemData (by_ : Agent) (k : Nat) (v : Word)
  /-- IMEM_COMMIT (R566): GVI_IMEM_CMD COMMIT checks length, writes codes and sets VALID. -/
  | imemCommit (by_ : Agent) (k : Nat) (load : Nat) (images : List Nat) (version res : Nat)
  /-- IMG_DATA (R586): IMG_DATA write streams an image word into an engine, framer or DMA unit. -/
  | imgData (by_ : Agent) (pg : Nat) (v : Word)
  /-- IMG_COMMIT (R586): IMG_CMD COMMIT validates a part's image. -/
  | imgCommit (by_ : Agent) (pg version res : Nat)
  /-- DEBUG_STEP (R585): GVI_DBG_CTRL STEP issues one bundle of a halted core. -/
  | debugStep (by_ : Agent) (k : Nat)
  /-- CORE_RELOAD (R567): After FETCH_POISON, Ward reloads and rises the core. -/
  | coreReload (k : Nat) (how : RiseHow)
  /-- LOCKSTEP_MISMATCH (R568): A Ward pair mismatch hands over to the standby pair. -/
  | lockstepMismatch (pair : Nat)
  /-- KLN_ACQUIRE (R558): KLN_LOCK ACQUIRE takes the Kaolin lock if free. -/
  | klnAcquire (by_ : Agent)
  /-- KLN_RELEASE (R558): KLN_LOCK RELEASE frees the lock. -/
  | klnRelease (by_ : Agent)
  /-- XTS_ENC (R557): Kaolin XTS-AES-256 encryption with a derived key. -/
  | xtsEnc (by_ : Agent) (cmd : Nat)
  /-- XTS_DEC (R557): Kaolin XTS-AES-256 decryption. -/
  | xtsDec (by_ : Agent) (cmd : Nat)
  /-- CMAC_GEN (R557): Kaolin AES-CMAC tag generation. -/
  | cmacGen (by_ : Agent) (cmd : Nat)
  /-- CMAC_CHECK (R557): Kaolin constant-time CMAC tag check. -/
  | cmacCheck (by_ : Agent) (cmd : Nat)
  /-- LOCK_LOST (R559): The Kaolin holder idles 10 ms and loses the lock, and the window is cleared. -/
  | lockLost
  /-- AUTO_RETIRE (R573): Ward self-tests a FAULTED part, then retires or resumes it. -/
  | autoRetire (pg : Nat) (pass : Bool) (how : RiseHow)
  /-- SAFE (R580): A fault that cannot be contained halts the data and control planes. -/
  | safe (reason detail : Nat)
  /-- I3C_READ (R604): I3C index write and 4-byte read of a latched register. -/
  | i3cRead (index : Nat)
  /-- SED_RING_CFG (R588): Sediment ring configuration write; enabling checks the ring's range. -/
  | sedRingCfg (by_ : Agent) (r : Nat) (v : Word)
  /-- PRB_CTRL (R361): Probe control write; enabling clears the counts. -/
  | prbCtrl (by_ : Agent) (n : Nat) (v : Word)
  /-- CDR_LOCK (R420): A lane's receiver locks its CDR once the far end transmits, and the lane can leave RISING or regain its stream. -/
  | cdrLock (l : Nat)
  /-- ALIGN_LOCK (R424): The PCS finds its comma, block or marker lock pattern at the current word boundary, sets LOCK and LN_LAT is recomputed. -/
  | alignLock (l tx rx : Nat)
  /-- REF_OK (R410): A lane group's reference clock arrives within, or leaves, ±200 ppm of FREQ, so its PLLs can lock or lose lock. -/
  | refOk (o : Nat) (ok pllA pllB : Bool)
  /-- REGISTER_READ (R27): A 32-bit register read that clears RC fields, latches the _HI half, or is reported as a narrow or unmapped access. -/
  | registerRead (by_ : Agent) (off width : Nat)
  /-- CONFIG_REQUEST (R491): A PCIe configuration request is answered with retry status before READY, or changes state such as Bus Master Enable or VF Enable. -/
  | configRequest (f : Nat) (req : CfgReq)
  /-- LINK_RESET (R353): A PCIe link reset or link-down resets the masters it affects, with their bursts aborted. -/
  | linkReset
  /-- CPRI_UNDERRUN (R455): A CPRI transmit buffer runs empty at line rate, sends zeros and tallies an underrun. -/
  | cpriUnderrun (b : Nat)
  /-- HYPERFRAME (R456): A CPRI hyperframe boundary is sent at the generator's frame boundary or received, and the round-trip delay is measured into PORT_CPRI_RTT. -/
  | hyperframe (p : Nat) (received : Bool) (sub : Nat)
deriving DecidableEq, Repr

end Sys2Proof
end

