-- ==== Sys2Proof/Machine/Bits.lean ====
section
/-!
DEFINITION. Sys2Proof/Machine/Bits.lean: bit fields, sign extension, byte order, and the
rounding and narrowing of R117. Plain functions over Nat, Int and BitVec that every family shares.
-/
namespace Sys2Proof.Machine

/-- Bits [lo + w - 1 : lo] of a number (R19, bit ranges). -/
def bitsOf (x lo w : Nat) : Nat := x / 2 ^ lo % 2 ^ w

/-- Bit `i` of a number. -/
def bitOf (x i : Nat) : Bool := bitsOf x i 1 == 1

/-- `x` with bits [lo + w - 1 : lo] replaced by the low `w` bits of `v`. -/
def setBits (x lo w v : Nat) : Nat :=
  x - bitsOf x lo w * 2 ^ lo + v % 2 ^ w * 2 ^ lo

/-- A Bool as the bit it stands for. -/
def bit (b : Bool) : Nat := if b then 1 else 0

/-- The `n`-bit two's-complement reading of a number (R19). -/
def sx (n x : Nat) : Int :=
  let y := x % 2 ^ n
  if 2 * y ≥ 2 ^ n then (y : Int) - 2 ^ n else y

/-- An integer as an `n`-bit pattern. -/
def pat (n : Nat) (x : Int) : Nat := (x % (2 ^ n : Int)).toNat

/-- The `n` bytes of a number, least significant first (R19). -/
def leBytes : Nat → Nat → List Byte
  | 0, _ => []
  | n + 1, v => BitVec.ofNat 8 v :: leBytes n (v / 256)

/-- The number that a list of bytes spells, least significant first (R19). -/
def ofLe : List Byte → Nat
  | [] => 0
  | b :: bs => b.toNat + 256 * ofLe bs

/-- `n` as a 32-bit word. -/
abbrev w32 (n : Nat) : Word := BitVec.ofNat 32 n

/-- Saturating increment of a tally of `w` bits (R32). -/
def satAdd (w x d : Nat) : Nat := if x + d ≥ 2 ^ w then 2 ^ w - 1 else x + d

/-- Rounding of R117: `trunc` selects truncation, otherwise convergent rounding. -/
def rnd (trunc : Bool) (x : Int) (t : Nat) : Int :=
  if t = 0 then x else
    let q := x / (2 ^ t : Int)
    let r := x % (2 ^ t : Int)
    if trunc then q
    else if r > 2 ^ (t - 1) then q + 1
    else if r < 2 ^ (t - 1) then q
    else q + q % 2

/-- Narrowing of R117 to `n` bits: the value kept, and whether it was out of range (R118). -/
def narrow (wrap : Bool) (y : Int) (n : Nat) : Int × Bool :=
  let lo : Int := -(2 ^ (n - 1) : Int)
  let hi : Int := 2 ^ (n - 1) - 1
  if y < lo then (if wrap then sx n (pat n y) else lo, true)
  else if y > hi then (if wrap then sx n (pat n y) else hi, true)
  else (y, false)

/-- Round to nearest, ties to even, after a division by 2^t. -/
def rneShift (x : Int) (t : Nat) : Int := rnd false x t

/-- Number of bits needed to write a number (0 for 0), by halving with fuel. -/
def bitLen : Nat → Nat → Nat
  | 0, _ => 0
  | fuel + 1, x => if x = 0 then 0 else 1 + bitLen fuel (x / 2)

/-- The value kept under key `k` of an association list, or `d`. -/
def lookupD {α : Type} (d : α) (k : Nat) : List (Nat × α) → α
  | [] => d
  | (j, v) :: t => if j = k then v else lookupD d k t

/-- The association list with key `k` set to `v`; keys stay in rising order. -/
def insertKey {α : Type} (k : Nat) (v : α) : List (Nat × α) → List (Nat × α)
  | [] => [(k, v)]
  | (j, u) :: t =>
    if k < j then (k, v) :: (j, u) :: t
    else if k = j then (k, v) :: t
    else (j, u) :: insertKey k v t

/-- The association list without key `k`. -/
def eraseKey {α : Type} (k : Nat) : List (Nat × α) → List (Nat × α)
  | [] => []
  | (j, u) :: t => if j = k then t else (j, u) :: eraseKey k t

/-- The value under key `k`, if any. -/
def lookup? {α : Type} (k : Nat) : List (Nat × α) → Option α
  | [] => none
  | (j, v) :: t => if j = k then some v else lookup? k t

/-- A number put into a rising list of numbers, once. -/
def insertNat (k : Nat) : List Nat → List Nat
  | [] => [k]
  | j :: t => if k < j then k :: j :: t else if k = j then j :: t else j :: insertNat k t

/-- `List.set` on a list of any content (a position past the end changes nothing). -/
abbrev setAt {α : Type} (l : List α) (i : Nat) (v : α) : List α := l.set i v

end Sys2Proof.Machine
end

