-- ==== Sys2Proof/Machine/StateCore.lean ====
section
/-!
DEFINITION. Sys2Proof/Machine/StateCore.lean: the state of one physical Geavo core (R56 to R106, R107, R122, R140, R585).
-/
namespace Sys2Proof.Machine

/-- One accumulator lane: 40-bit I and Q (R122). -/
structure Lane where
  re : Acc40
  im : Acc40
deriving DecidableEq, Repr

/-- A register write that lands at a bundle boundary (R61). -/
inductive RegWrite where
  /-- Physical scalar register (R56); register 0 discards it. -/
  | g (r : Nat) (v : Word)
  /-- Bits of a physical float register selected by a mask (R107, R110). -/
  | f (r : Nat) (mask v : DWord)
  /-- A control register written whole (R57). -/
  | ctl (sel : Nat) (v : Word)
  /-- One bit of STAT (loop setup, ie.off, ie.on). -/
  | statBit (i : Nat) (v : Bool)
  /-- A saturation that becomes visible (R118). -/
  | satf
  /-- Lanes of an accumulator become visible to readers outside the chain (R62, R64). -/
  | accVis (a : Bool) (lanes : List (Nat × Lane))
  /-- Lanes of an accumulator restored by arest (R132). -/
  | accLoad (a : Bool) (lanes : List (Nat × Lane))
deriving DecidableEq, Repr

/-- A write due before the bundle numbered `due` reads (R61). -/
structure Pend where
  due : Nat
  w : RegWrite
deriving DecidableEq, Repr

/-- One entry of the store-gather buffer: an aligned 64-byte block and its valid bytes (R74). -/
structure SgEntry where
  blk : Nat
  bytes : List (Nat × Byte)
deriving DecidableEq, Repr

/-- One line of the read buffer (R74): its block, its bytes, and the offsets that read as poison. -/
structure RbLine where
  blk : Nat
  bytes : List Byte
  bad : List Nat
deriving DecidableEq, Repr

/-- What a core is doing: sitting in wait.task, or running a task (R96). -/
inductive CoreRun where
  | idle
  | running
deriving DecidableEq, Repr

/-- One physical core. -/
structure Core where
  /-- g0 to g31, physical (R56). -/
  g : List Word
  /-- f0 to f255, physical (R107). -/
  f : List DWord
  /-- a0 and a1 as operations outside a chain read them (R64, R122). -/
  a0 : List Lane
  a1 : List Lane
  /-- a0 and a1 as the chain in progress has them (R64). -/
  ch0 : List Lane
  ch1 : List Lane
  stat : Word
  epc : Word
  estat : Word
  ecause : Word
  eaddr : Word
  escr0 : Word
  escr1 : Word
  taskid : Word
  lc0 : Word
  lb0 : Word
  le0 : Word
  lc1 : Word
  lb1 : Word
  le1 : Word
  rot : Word
  vl : Word
  vtype : Word
  vidx : Word
  rmode : Word
  /-- Address of the next bundle to issue (R59). -/
  pc : Nat
  /-- Address of the last bundle issued (R106, GVC_LAST_EPC). -/
  lastPc : Nat
  /-- Bundles issued so far, the count that latencies are measured in (R61). -/
  cnt : Nat
  /-- Writes issued and not yet landed, in issue order (R61, R64). -/
  pend : List Pend
  /-- Delay slots still to issue, and the target if the branch is taken (R79). -/
  br : Option (Nat × Option Nat)
  /-- The next bundle issues only its V-slot operation, from VIDX (R90, R135). -/
  vresume : Bool
  /-- How the push of the waiting bundle ended while it waited: its status and its tag (R100, R139, R283). -/
  pushRes : Option (Nat × Nat)
  /-- Operations gathered for the bundle that is being presented (R59). -/
  bundle : List Instr
  /-- The presented bundle waits to issue (R63). -/
  waiting : Bool
  run : CoreRun
  /-- PREEMPT requested by the fabric and not yet taken (R88). -/
  preempt : Bool
  /-- AIRTIME at which the present masked region began (R94). -/
  maskSince : Option Nat
  /-- Store-gather buffer, at most 16 entries (R74). -/
  sg : List SgEntry
  /-- Read buffer, at most 4 lines, and the rotation of its replacement (R74). -/
  rb : List RbLine
  rbNext : Nat
  /-- Next tag value of the tag counter (R140). -/
  tag : Nat
  /-- Tags that outstanding commands of this core carry (R140). -/
  tagsOut : List Nat
  /-- TASKIDs of the tasks suspended on this core, earliest first (R279). -/
  suspended : List Nat
  /-- Owner function of the last task (R98). -/
  lastOwner : Option Nat
  /-- Instruction memory, 64 KiB, unlisted bytes zero (R59, R620). -/
  imem : List Host.Cell
  /-- Instruction memory reload owed after FETCH_POISON (R89, R567). -/
  reload : Bool
  /-- Self-test halted by the debug page (R585). -/
  halted : Bool
deriving DecidableEq, Repr

/-- A lane of zero. -/
def Lane.zero : Lane := ⟨0, 0⟩

/-- A core as it stands after reset. Control registers take their task-entry values where R57 gives
one; VL, VTYPE, VIDX and RMODE their reset values (R109, R110, R116, R134); the tag counter starts at
1 (R140). Registers with no stated reset value are zero (DESIGN CHOICE, log entry 2). -/
def Core.reset : Core where
  g := List.replicate 32 0
  f := List.replicate 256 0
  a0 := List.replicate 64 Lane.zero
  a1 := List.replicate 64 Lane.zero
  ch0 := List.replicate 64 Lane.zero
  ch1 := List.replicate 64 Lane.zero
  stat := 0x00000005#32
  epc := 0
  estat := 0
  ecause := 0
  eaddr := 0
  escr0 := 0
  escr1 := 0
  taskid := 0
  lc0 := 0
  lb0 := 0
  le0 := 0
  lc1 := 0
  lb1 := 0
  le1 := 0
  rot := 0x000000F8#32
  vl := 0x00000040#32
  vtype := 0x00000105#32
  vidx := 0
  rmode := 0
  pc := 0
  lastPc := 0
  cnt := 0
  pend := []
  br := none
  vresume := false
  pushRes := none
  bundle := []
  waiting := false
  run := .idle
  preempt := false
  maskSince := none
  sg := []
  rb := []
  rbNext := 0
  tag := 1
  tagsOut := []
  suspended := []
  lastOwner := none
  imem := []
  reload := false
  halted := false

end Sys2Proof.Machine
end

