-- ==== Sys2Proof/Machine/CoreOps.lean ====
section
/-!
DEFINITION. Sys2Proof/Machine/CoreOps.lean: how one core reads and writes its registers: renaming through ROT (R83),
control registers (R57), the landing of results (R61, R64, R118), float-bank groups and elements (R107, R108),
and what an operation of a bundle asks for when it issues.
-/
namespace Sys2Proof.Machine

/-- ROT.CNT, GEN, FEN and the span S (R83). -/
def rotCnt (c : Core) : Nat := bitsOf c.rot.toNat 0 3
def rotGen (c : Core) : Bool := bitOf c.rot.toNat 3
def rotFen (c : Core) : Bool := bitOf c.rot.toNat 4
def rotSpan (c : Core) : Nat := bitsOf c.rot.toNat 5 3 + 1

/-- Physical index of logical member `j` of a rotating set (R83). -/
def rotIx (c : Core) (on : Bool) (j : Nat) : Nat :=
  let S := rotSpan c
  if on && decide (j < S) then (j + S - rotCnt c % S) % S else j

/-- The physical scalar register a name stands for (R83). -/
def physG (c : Core) (r : GReg) : Nat :=
  let n := r.toNat
  if n < 24 then n else 24 + rotIx c (rotGen c) (n - 24)

/-- The physical float register of a single f name (R83, R108). -/
def physF (c : Core) (n : Nat) : Nat :=
  if n < 128 ∨ n ≥ 192 then n
  else 128 + 8 * rotIx c (rotFen c) ((n - 128) / 8) + n % 8

/-- Reads a scalar register; g0 reads as zero (R56). -/
def readG (c : Core) (r : GReg) : Word :=
  let p := physG c r
  if p = 0 then 0 else c.g.getD p 0

/-- Reads a single float register (R107). -/
def readF (c : Core) (r : FReg) : DWord := c.f.getD (physF c r.toNat) 0

/-- The physical float registers of an operand: a renamed group, or a long register, never renamed (R108). -/
def grpRegs (c : Core) (long : Bool) (G : Grp) : List Nat :=
  if long then (List.range 32).map (fun i => 8 * G.toNat + i)
  else
    let b := physF c (8 * G.toNat)
    (List.range 8).map (fun i => b + i)

/-- Element `i` of `s` bits of an operand (R107). -/
def getElem (c : Core) (regs : List Nat) (s i : Nat) : Nat :=
  let bit0 := s * i
  bitsOf (c.f.getD (regs.getD (bit0 / 64) 0) 0).toNat (bit0 % 64) s

/-- Writes of `s`-bit elements to an operand, one masked write per float register touched (R110). -/
def elemWrites (regs : List Nat) (s : Nat) (els : List (Nat × Nat)) : List RegWrite :=
  (List.range regs.length).filterMap fun q =>
    let mine := els.filter fun e => s * e.1 / 64 == q
    if mine.isEmpty then none
    else
      let mask := mine.foldl (fun a e => a + (2 ^ s - 1) * 2 ^ (s * e.1 % 64)) 0
      let val := mine.foldl (fun a e => a + e.2 % 2 ^ s * 2 ^ (s * e.1 % 64)) 0
      some (.f (regs.getD q 0) (BitVec.ofNat 64 mask) (BitVec.ofNat 64 val))

/-- Writes of whole bytes to an operand. -/
def byteWrites (regs : List Nat) (bytes : List (Nat × Byte)) : List RegWrite :=
  elemWrites regs 8 (bytes.map fun e => (e.1, e.2.toNat))

/-- Reads a control register by selector (R57); `none` for a selector not listed. -/
def readCtl (c : Core) (sel : Nat) : Option Word :=
  match sel with
  | 0x00 => some c.stat | 0x01 => some c.epc | 0x02 => some c.estat | 0x03 => some c.ecause
  | 0x04 => some c.eaddr | 0x05 => some c.escr0 | 0x06 => some c.escr1 | 0x07 => some c.taskid
  | 0x08 => some c.lc0 | 0x09 => some c.lb0 | 0x0A => some c.le0 | 0x0B => some c.lc1
  | 0x0C => some c.lb1 | 0x0D => some c.le1 | 0x0E => some c.rot | 0x10 => some c.vl
  | 0x11 => some c.vtype | 0x12 => some c.vidx | 0x13 => some c.rmode
  | _ => none

/-- A selector that wrc may write: listed and not RO (R57). -/
def ctlWritable (sel : Nat) : Bool :=
  (sel ≤ 0x13 && sel != 0x0F) && !(sel == 0x03 || sel == 0x04 || sel == 0x07)

/-- Bits [15:4] of a value: the address fields of EPC, LBk and LEk (R57). -/
def addrField (v : Word) : Word := v &&& 0x0000FFF0#32

/-- A control register as a write leaves it: fields that are not writable keep their value or read zero
(R57, R58, R83, R109, R110, R116, R134). -/
def writeCtl (c : Core) (sel : Nat) (v : Word) : Core :=
  match sel with
  | 0x00 => { c with stat := v &&& 0x0000001F#32 }
  | 0x01 => { c with epc := addrField v }
  | 0x02 => { c with estat := v &&& 0x0000011F#32 }
  | 0x03 => { c with ecause := v }
  | 0x04 => { c with eaddr := v }
  | 0x05 => { c with escr0 := v }
  | 0x06 => { c with escr1 := v }
  | 0x07 => { c with taskid := v }
  | 0x08 => { c with lc0 := v }
  | 0x09 => { c with lb0 := addrField v }
  | 0x0A => { c with le0 := addrField v }
  | 0x0B => { c with lc1 := v }
  | 0x0C => { c with lb1 := addrField v }
  | 0x0D => { c with le1 := addrField v }
  | 0x0E =>
    let n := v.toNat % 256
    let S := n / 32 + 1
    { c with rot := w32 (setBits n 0 3 (n % 8 % S)) }
  | 0x10 => { c with vl := v &&& 0x000001FF#32 }
  | 0x11 => { c with vtype := v &&& 0x000001FF#32 }
  | 0x12 => { c with vidx := v &&& 0x000000FF#32 }
  | 0x13 => { c with rmode := v &&& 0x00000103#32 }
  | _ => c

/-- Lanes of an accumulator with some replaced. -/
def setLanes (l : List Lane) (new : List (Nat × Lane)) : List Lane :=
  new.foldl (fun acc e => acc.set e.1 e.2) l

/-- One write lands (R61). -/
def land (c : Core) : RegWrite → Core
  | .g r v => if r = 0 then c else { c with g := c.g.set r v }
  | .f r m v => { c with f := c.f.set r ((c.f.getD r 0 &&& ~~~m) ||| (v &&& m)) }
  | .ctl sel v => writeCtl c sel v
  | .statBit i v => { c with stat := w32 (setBits c.stat.toNat i 1 (bit v)) }
  | .satf => { c with rmode := c.rmode ||| 0x00000100#32 }
  | .accVis a ls => if a then { c with a1 := setLanes c.a1 ls } else { c with a0 := setLanes c.a0 ls }
  | .accLoad a ls =>
    if a then { c with a1 := setLanes c.a1 ls, ch1 := setLanes c.ch1 ls }
    else { c with a0 := setLanes c.a0 ls, ch0 := setLanes c.ch0 ls }

/-- Is the write the landing of a saturation? -/
def RegWrite.isSatf : RegWrite → Bool
  | .satf => true
  | _ => false

/-- Writes land in issue order, saturations last: a SATF that lands beside a write of RMODE
ends as the written bit OR 1 (R64, R118). -/
def landAll (c : Core) (ws : List RegWrite) : Core :=
  (ws.filter (!·.isSatf) ++ ws.filter (·.isSatf)).foldl land c

/-- Everything due before the bundle numbered `c.cnt` lands (R61). -/
def landDue (c : Core) : Core :=
  let due := c.pend.filter fun p => decide (p.due ≤ c.cnt)
  landAll { c with pend := c.pend.filter fun p => decide (c.cnt < p.due) } (due.map (·.w))

/-- Every issued operation completes: all pending writes land (R85, R89, R90, R99), in the order they
would have landed. -/
def landEvery (c : Core) : Core :=
  let n := c.pend.foldl (fun m p => max m p.due) 0
  (List.range (n + 1)).foldl
    (fun c i =>
      landAll { c with pend := c.pend.filter fun p => decide (i < p.due) }
        ((c.pend.filter fun p => decide (p.due ≤ i)).map (·.w)))
    c

/-- The slots of a bundle (R59); the code is SLOT of R86. -/
inductive Slot where
  | A | B | V | M
deriving DecidableEq, Repr

/-- SLOT as ECAUSE reports it (R86). -/
def Slot.code : Slot → Nat
  | .A => 0 | .B => 1 | .V => 2 | .M => 3

/-- A destination an operation names, for the check of R60. -/
inductive DestId where
  | g (r : Nat)
  | f (r : Nat)
  | ctl (sel : Nat)
  | acc (a : Bool)
deriving DecidableEq, Repr

/-- A fault an operation raises before its bundle has issued, with CAUSE, DETAIL and EADDR (R86). -/
structure OpFault where
  cause : Nat
  detail : Nat
  addr : Nat
deriving DecidableEq, Repr

/-- ILLEGAL with a DETAIL of R86. -/
def illegal (detail : Nat) : OpFault := ⟨0x10, detail, 0⟩

/-- What an operation without memory access asks of the core when it issues: register writes with
their latencies (R62), a branch target, a loop whose body is skipped (R80), and new chain lanes. -/
structure OpOut where
  wr : List (Nat × RegWrite) := []
  branch : Bool := false
  target : Option Nat := none
  skip : Option Nat := none
  chain : List (Bool × List (Nat × Lane)) := []
deriving DecidableEq, Repr

/-- A scalar result of latency `L`. -/
def outG (c : Core) (gd : GReg) (L : Nat) (v : Word) : OpOut :=
  { wr := [(L, .g (physG c gd) v)] }

end Sys2Proof.Machine
end

