-- ==== Sys2Proof/Machine/CoreScalar.lean ====
section
/-!
DEFINITION. Sys2Proof/Machine/CoreScalar.lean: what each slot A and slot B operation computes from the registers its bundle
reads (R66, R67, R79, R80, R57). Nothing is written here: the issue of the bundle lands the results (R60, R61).
-/
namespace Sys2Proof.Machine

/-- 1 or 0 as a scalar result. -/
def boolW (b : Bool) : Word := if b then 1 else 0

/-- A format T function of ga and gb with its latency (R67). -/
def tOp (c : Core) (gd ga gb : GReg) (L : Nat) (fn : Word → Word → Word) : OpOut :=
  outG c gd L (fn (readG c ga) (readG c gb))

/-- A format K operation of ga and the constant, already extended to 32 bits (R65, R66). -/
def kOp (c : Core) (gd ga : GReg) (L : Nat) (k : Word) (fn : Word → Word → Word) : OpOut :=
  outG c gd L (fn (readG c ga) k)

/-- k14 sign-extended and zero-extended (R65). -/
def k14s (k : BitVec 14) : Word := k.signExtend 32
def k14z (k : BitVec 14) : Word := k.zeroExtend 32

/-- Signed and unsigned minimum and maximum (R67). -/
def minS (x y : Word) : Word := if y.slt x then y else x
def maxS (x y : Word) : Word := if x.slt y then y else x
def minU (x y : Word) : Word := if y.ult x then y else x
def maxU (x y : Word) : Word := if x.ult y then y else x

/-- Leading zeros, 0 to 32 (R67). -/
def lzW (x : Word) : Word := w32 (32 - bitLen 33 x.toNat)

/-- High half of the signed and of the unsigned product (R67). -/
def mulHiS (x y : Word) : Word := BitVec.ofInt 32 (x.toInt * y.toInt / (2 ^ 32 : Int))
def mulHiU (x y : Word) : Word := w32 (x.toNat * y.toNat / 2 ^ 32)

/-- A shift by a constant must have k14[13:5] zero (R65). -/
def kShift (c : Core) (gd ga : GReg) (k : BitVec 14) (fn : Word → Nat → Word) : Except OpFault OpOut :=
  if k.toNat ≥ 32 then .error (illegal 1) else .ok (outG c gd 1 (fn (readG c ga) k.toNat))

/-- A bundle address reached from the present one by a displacement in bundles, and whether it lies in
instruction memory (R59, R79). -/
def relTarget (pc : Nat) (d : Int) : Option Nat :=
  let t : Int := pc + 16 * d
  if 0 ≤ t ∧ t < 65536 then some t.toNat else none

/-- A target outside instruction memory as EADDR shows it: the computed address modulo 2^32. -/
def badTarget (pc : Nat) (d : Int) : Nat := pat 32 (pc + 16 * d)

/-- Is the present bundle a delay slot (R79)? -/
def inDelay (c : Core) : Bool := c.br.isSome

/-- Does the present bundle lie in LEk − 32 to LEk of an active loop (R82)? A loop with LCk = 0 is inactive (R81). -/
def inLoopTail (c : Core) : Bool :=
  let tail (lc le : Word) : Bool := lc != 0 && decide (c.pc ≤ le.toNat) && decide (le.toNat ≤ c.pc + 32)
  tail c.lc0 c.le0 || tail c.lc1 c.le1

/-- The placement rules of control flow (R79, R82): DETAIL 2 where one is broken. -/
def placed (c : Core) (branch : Bool) (out : Except OpFault OpOut) : Except OpFault OpOut :=
  if inDelay c || (branch && inLoopTail c) then .error (illegal 2) else out

/-- An operation of slot A only raises ILLEGAL in slot B (R66). -/
def slotA (b : Bool) (out : Except OpFault OpOut) : Except OpFault OpOut :=
  if b then .error (illegal 1) else out

/-- A compare and branch (R66, R79). A target outside instruction memory is no bundle address: ACCESS_FAULT
(DEDUCED, log entry 3: R79 only says that targets must lie within it). -/
def branchOp (c : Core) (b : Bool) (ga gb : GReg) (disp : BitVec 15) (cond : Word → Word → Bool) :
    Except OpFault OpOut :=
  slotA b <| placed c true <|
    if cond (readG c ga) (readG c gb) then
      match relTarget c.pc disp.toInt with
      | some t => .ok { branch := true, target := some t }
      | none => .error ⟨0x11, 0, badTarget c.pc disp.toInt⟩
    else .ok { branch := true }

/-- Address of the jump bundle + 48 (R66). -/
def linkOf (c : Core) : Word := w32 ((c.pc + 48) % 65536)

/-- jmp.l (R66, R79). -/
def jmpLOp (c : Core) (b : Bool) (gd : GReg) (disp : BitVec 17) : Except OpFault OpOut :=
  slotA b <| placed c true <|
    match relTarget c.pc disp.toInt with
    | some t => .ok { outG c gd 1 (linkOf c) with branch := true, target := some t }
    | none => .error ⟨0x11, 0, badTarget c.pc disp.toInt⟩

/-- jmp.lr: a target with ga[3:0] or ga[31:16] not zero raises ACCESS_FAULT (R66). -/
def jmpLrOp (c : Core) (b : Bool) (gd ga : GReg) : Except OpFault OpOut :=
  slotA b <| placed c true <|
    let t := (readG c ga).toNat
    if t % 16 ≠ 0 ∨ t ≥ 65536 then .error ⟨0x11, 0, t⟩
    else .ok { outG c gd 1 (linkOf c) with branch := true, target := some t }

/-- Loop setup (R80): LB, LE, LC and STAT.ROTk; a count of zero skips the body. -/
def loopOp (c : Core) (b one rot : Bool) (n : Word) (e : BitVec 12) : Except OpFault OpOut :=
  slotA b <| placed c false <|
    if e = 0 then .error (illegal 1)
    else
      let lb := w32 ((c.pc + 16) % 65536)
      let le := w32 ((c.pc + 16 * e.toNat) % 65536)
      let base := if one then 0x0B else 0x08
      .ok { wr := [(1, .ctl base n), (1, .ctl (base + 1) lb), (1, .ctl (base + 2) le),
                   (1, .statBit (if one then 4 else 3) rot)],
            skip := if n = 0 then some ((c.pc + 16 * e.toNat + 16) % 65536) else none }

/-- rdc: a selector not listed raises ILLEGAL (R57). -/
def rdcOp (c : Core) (gd : GReg) (csel : BitVec 6) : Except OpFault OpOut :=
  match readCtl c csel.toNat with
  | some v => .ok (outG c gd 1 v)
  | none => .error (illegal 4)

/-- wrc: an RO register or a selector not listed raises ILLEGAL (R57). -/
def wrcOp (c : Core) (b : Bool) (csel : BitVec 6) (ga : GReg) : Except OpFault OpOut :=
  slotA b <|
    if ctlWritable csel.toNat then .ok { wr := [(1, .ctl csel.toNat (readG c ga))] }
    else .error (illegal 4)

/-- ie.off and ie.on; ie.on has no effect while EXL = 1 (R66). -/
def ieOp (c : Core) (b on : Bool) : Except OpFault OpOut :=
  slotA b <|
    if on && bitOf c.stat.toNat 1 then .ok {} else .ok { wr := [(1, .statBit 0 on)] }

end Sys2Proof.Machine
end

