-- ==== Sys2Proof/Config.lean ====
section
/-!
DEFINITION. Sys2Proof/Config.lean: what one device fixes and the values the manual leaves open. Every constant here is
opaque: no proof can see a value of it, so a statement that mentions one holds for every value.
-/
namespace Sys2Proof.Config

/-- The result of converting an infinity to `n` bits while RMODE.WRAP = 1, per sign (R117, R121: no value stated). Log entry 4. -/
opaque infWrap (neg : Bool) (n : Nat) : Nat

/-- A fresh free value for the open values of the manual, indexed by the counter `State.free`. Log entry 1. -/
opaque freeValue (w n : Nat) : BitVec w

/-- Rows of a deep-buffer bank (0), a pseudo-channel (1) and a clod memory with its cores' memories (2), and the row that
a location lies in: the manual gives rows no size and no map (R379, R393). Log entry 39. -/
opaque memRows (kind : Nat) : Nat
opaque memRow (kind a : Nat) : Nat

/-- The ordering code is LB8800-BH32, with 32 GiB of HBM (R11, R364). -/
opaque bh32 : Bool
/-- The ordering code is of grade A (R9, R11). -/
opaque gradeA : Bool
/-- Which store-gather entry a full buffer drains first, of `n` entries, at a store named by its core, bundle and address (R74:
any order). Log entry 6. -/
opaque drainPick (n k : Nat) : Nat

/-- By how much, as 0, 1 or 2 for -1, 0 or +1, output component `n` of a TFE command departs from the correctly rounded
result: a fixed function of the command's parameters and its input (R186). Log entry 28. -/
opaque tfeDev (params : List Nat) (input : List Byte) (n : Nat) : Fin 3

/-- Byte `n` of the cyclic prefixes of a TRANSFORM whose CP length exceeds N, which have no last CP_l samples to repeat (R188:
not stated). Log entry 28. -/
opaque tfePrefix (params : List Nat) (input : List Byte) (n : Nat) : Byte

/-- The shift of entry (row, column) of LDPC base graph `bg` for lifting-size set `set`, `none` where the graph has no
entry: the tables of 3GPP TS 38.212 clause 5.3.2, which the manual names and does not print (R226). Log entry 30. -/
opaque ldpcShift (bg set row col : Nat) : Option Nat

/-- K′ where the transport-block size is none that the TBS rule gives, so that the code blocks are not of equal whole size
(R226, R231: not stated). Log entry 31. -/
opaque oddBlock (b c : Nat) : Nat

/-- The polar reliability sequence, least reliable first, and the input interleaving pattern: the tables of 3GPP TS 38.212
clause 5.3.1, which the manual names and does not print (R250). Log entry 30. -/
opaque polarSeq (i : Nat) : Fin 1024
opaque polarIl (m : Nat) : Nat

/-- f1 and f2 of the QPP interleaver for block size `k`: the table of 3GPP TS 36.212 clause 5.1.3-3, which the manual names
and does not print (R253). Log entry 30. -/
opaque qpp (k : Nat) : Nat × Nat

/-- The image numbers that the body of a CORE_LOAD image lists: the manual does not lay out the linked set (R565). Log entry
43. -/
opaque loadImages (body : List Byte) : List Nat

/-- What a word of a function's PCIe configuration space reads as where the manual does not say: the Vendor ID, the revision and
everything that PCI Express lays out (R485). Log entry 46. -/
opaque cfgWord (fn off : Nat) : BitVec 32

/-- What hardware measures into bits of the register at a page offset at an AIRTIME where no command of the table reports it: paces,
the busy share and the longest wait of an FDC, bit errors and FEC codewords of lanes, cache misses (R13, R221, R304, R360,
R436, R480). Log entry 13. -/
opaque measured (addr at_ : Nat) : BitVec 32

/-- LN_ALIGN.DWELL of a lane, in µs, for its mode and rate (R424: the device computes it). Log entry 13. -/
opaque alignDwell (mode rate : Nat) : BitVec 12

/-- Words 1 to 3 of a fault-log record above AIRTIME[39:0]: where the manual lists class, instance, REASON, CONTAINED and the
action, but gives them no bits (R582). Log entry 47. -/
opaque faultWord (word page reason : Nat) (contained : Bool) : BitVec 32

end Sys2Proof.Config
end

