-- ==== Sys2Proof/Machine/Crypto.lean ====
section
/-!
DEFINITION. Sys2Proof/Machine/Crypto.lean: the algorithms that images and Kaolin use (R549, R551, R555 to R557): CRC-32 of IEEE 802.3,
SHA-384 of FIPS 180-4, AES-256 of FIPS 197, CMAC, XTS of IEEE 1619, the counter-mode KDF of SP 800-108, and ECDSA P-384
verification of FIPS 186-5. The manual names these standards and does not print them (log entry 41).
-/
namespace Sys2Proof.Machine

/-! ### CRC-32 -/

/-- One bit of the reflected CRC. -/
def crcBit (c : Nat) : Nat := if c % 2 = 1 then Nat.xor (c / 2) 0xEDB88320 else c / 2

/-- CRC-32 of bytes. -/
def crc32 (bs : List Byte) : Nat :=
  Nat.xor ((bs.foldl (fun c b => (List.range 8).foldl (fun c _ => crcBit c) (Nat.xor c b.toNat)) 0xFFFFFFFF)) 0xFFFFFFFF

/-! ### Numbers and bytes, most significant first -/

/-- The number that bytes spell, most significant first. -/
def msbNum (bs : List Byte) : Nat := bs.foldl (fun a b => 256 * a + b.toNat) 0

/-- The `n` bytes of a number, most significant first. -/
def msbBytes (n v : Nat) : List Byte := (leBytes n v).reverse

/-! ### SHA-384 -/

def shaK0 : List Nat := [
  0x428A2F98D728AE22, 0x7137449123EF65CD, 0xB5C0FBCFEC4D3B2F, 0xE9B5DBA58189DBBC, 0x3956C25BF348B538,
  0x59F111F1B605D019, 0x923F82A4AF194F9B, 0xAB1C5ED5DA6D8118, 0xD807AA98A3030242, 0x12835B0145706FBE,
  0x243185BE4EE4B28C, 0x550C7DC3D5FFB4E2, 0x72BE5D74F27B896F, 0x80DEB1FE3B1696B1, 0x9BDC06A725C71235,
  0xC19BF174CF692694, 0xE49B69C19EF14AD2, 0xEFBE4786384F25E3, 0x0FC19DC68B8CD5B5, 0x240CA1CC77AC9C65]

def shaK1 : List Nat := [
  0x2DE92C6F592B0275, 0x4A7484AA6EA6E483, 0x5CB0A9DCBD41FBD4, 0x76F988DA831153B5, 0x983E5152EE66DFAB,
  0xA831C66D2DB43210, 0xB00327C898FB213F, 0xBF597FC7BEEF0EE4, 0xC6E00BF33DA88FC2, 0xD5A79147930AA725,
  0x06CA6351E003826F, 0x142929670A0E6E70, 0x27B70A8546D22FFC, 0x2E1B21385C26C926, 0x4D2C6DFC5AC42AED,
  0x53380D139D95B3DF, 0x650A73548BAF63DE, 0x766A0ABB3C77B2A8, 0x81C2C92E47EDAEE6, 0x92722C851482353B]

def shaK2 : List Nat := [
  0xA2BFE8A14CF10364, 0xA81A664BBC423001, 0xC24B8B70D0F89791, 0xC76C51A30654BE30, 0xD192E819D6EF5218,
  0xD69906245565A910, 0xF40E35855771202A, 0x106AA07032BBD1B8, 0x19A4C116B8D2D0C8, 0x1E376C085141AB53,
  0x2748774CDF8EEB99, 0x34B0BCB5E19B48A8, 0x391C0CB3C5C95A63, 0x4ED8AA4AE3418ACB, 0x5B9CCA4F7763E373,
  0x682E6FF3D6B2B8A3, 0x748F82EE5DEFB2FC, 0x78A5636F43172F60, 0x84C87814A1F0AB72, 0x8CC702081A6439EC]

def shaK3 : List Nat := [
  0x90BEFFFA23631E28, 0xA4506CEBDE82BDE9, 0xBEF9A3F7B2C67915, 0xC67178F2E372532B, 0xCA273ECEEA26619C,
  0xD186B8C721C0C207, 0xEADA7DD6CDE0EB1E, 0xF57D4F7FEE6ED178, 0x06F067AA72176FBA, 0x0A637DC5A2C898A6,
  0x113F9804BEF90DAE, 0x1B710B35131C471B, 0x28DB77F523047D84, 0x32CAAB7B40C72493, 0x3C9EBE0A15C9BEBC,
  0x431D67C49C100D4C, 0x4CC5D4BECB3E42B6, 0x597F299CFC657E2A, 0x5FCB6FAB3AD6FAEC, 0x6C44198C4A475817]

/-- The round constants. -/
def shaK : List Nat := shaK0 ++ shaK1 ++ shaK2 ++ shaK3

/-- The initial hash value of SHA-384. -/
def shaH0 : List Nat := [0xCBBB9D5DC1059ED8, 0x629A292A367CD507
  , 0x9159015A3070DD17, 0x152FECD8F70E5939, 0x67332667FFC00B31, 0x8EB44A8768581511, 0xDB0C2E0D64F98FA7, 0x47B5481DBEFA4FA4]

def rotr64 (x n : Nat) : Nat := Nat.lor (x / 2 ^ n) (x % 2 ^ n * 2 ^ (64 - n))
def xor3 (a b c : Nat) : Nat := Nat.xor (Nat.xor a b) c

/-- The padded message (FIPS 180-4). -/
def shaPad (m : List Byte) : List Byte :=
  let z := (239 - m.length % 128) % 128
  m ++ [0x80#8] ++ List.replicate z 0 ++ msbBytes 16 (8 * m.length)

/-- The 80 schedule words of a block, newest first. -/
def shaW (blk : List Byte) : List Nat :=
  let w0 := ((List.range 16).map fun i => msbNum ((blk.drop (8 * i)).take 8)).reverse
  (List.range 64).foldl
    (fun w _ =>
      let a := w.getD 14 0
      let b := w.getD 1 0
      let s0 := xor3 (rotr64 a 1) (rotr64 a 8) (a / 2 ^ 7)
      let s1 := xor3 (rotr64 b 19) (rotr64 b 61) (b / 2 ^ 6)
      (s1 + w.getD 6 0 + s0 + w.getD 15 0) % 2 ^ 64 :: w)
    w0

/-- The eight working values. -/
structure ShaV where
  a : Nat
  b : Nat
  c : Nat
  d : Nat
  e : Nat
  f : Nat
  g : Nat
  h : Nat
deriving DecidableEq, Repr

def shaRound (v : ShaV) (kw : Nat × Nat) : ShaV :=
  let s1 := xor3 (rotr64 v.e 14) (rotr64 v.e 18) (rotr64 v.e 41)
  let ch := Nat.xor (Nat.land v.e v.f) (Nat.land (2 ^ 64 - 1 - v.e) v.g)
  let t1 := v.h + s1 + ch + kw.1 + kw.2
  let s0 := xor3 (rotr64 v.a 28) (rotr64 v.a 34) (rotr64 v.a 39)
  let maj := xor3 (Nat.land v.a v.b) (Nat.land v.a v.c) (Nat.land v.b v.c)
  ⟨(t1 + s0 + maj) % 2 ^ 64, v.a, v.b, v.c, (v.d + t1) % 2 ^ 64, v.e, v.f, v.g⟩

def shaBlock (h : List Nat) (blk : List Byte) : List Nat :=
  let g (i : Nat) : Nat := h.getD i 0
  let v := (shaK.zip (shaW blk).reverse).foldl shaRound ⟨g 0, g 1, g 2, g 3, g 4, g 5, g 6, g 7⟩
  (h.zip [v.a, v.b, v.c, v.d, v.e, v.f, v.g, v.h]).map fun x => (x.1 + x.2) % 2 ^ 64

/-- Fold over the 128-byte blocks of a message. -/
def shaBlocks : Nat → List Nat → List Byte → List Nat
  | 0, h, _ => h
  | fuel + 1, h, m => if m.isEmpty then h else shaBlocks fuel (shaBlock h (m.take 128)) (m.drop 128)

/-- SHA-384: 48 bytes. -/
def sha384 (m : List Byte) : List Byte :=
  let p := shaPad m
  ((shaBlocks (p.length / 128) shaH0 p).take 6).flatMap (msbBytes 8)

/-! ### AES-256 -/

/-- Product in GF(2^8) modulo x^8 + x^4 + x^3 + x + 1. -/
def gfMul (a b : Nat) : Nat :=
  ((List.range 8).foldl
    (fun (r : Nat × Nat) i =>
      (if bitOf b i then Nat.xor r.1 r.2 else r.1, if r.2 ≥ 128 then Nat.xor (2 * r.2) 0x11B else 2 * r.2))
    (0, a)).1

/-- The S-box: the inverse, then the affine map. -/
def sboxOf (x : Nat) : Nat :=
  let x2 := gfMul x x
  let x4 := gfMul x2 x2
  let x8 := gfMul x4 x4
  let x16 := gfMul x8 x8
  let x32 := gfMul x16 x16
  let x64 := gfMul x32 x32
  let x128 := gfMul x64 x64
  let y := gfMul x2 (gfMul x4 (gfMul x8 (gfMul x16 (gfMul x32 (gfMul x64 x128)))))
  let rot (n : Nat) : Nat := (y * 2 ^ n + y / 2 ^ (8 - n)) % 256
  Nat.xor (Nat.xor (xor3 y (rot 1) (rot 2)) (Nat.xor (rot 3) (rot 4))) 0x63

def aesSbox : List Nat := (List.range 256).map sboxOf
def aesSub (x : Nat) : Nat := aesSbox.getD x 0
/-- The inverse S-box. -/
def aesInv : List Nat :=
  (List.range 256).map fun y => ((List.range 256).find? fun x => aesSub x == y).getD 0
def aesUnsub (y : Nat) : Nat := aesInv.getD y 0

def xorL (a b : List Nat) : List Nat := List.zipWith Nat.xor a b

/-- The 60 words of the key schedule (FIPS 197), newest first. -/
def aesWords (key : List Nat) : List (List Nat) :=
  let w0 := ((List.range 8).map fun i => (key.drop (4 * i)).take 4).reverse
  (List.range 52).foldl
    (fun w j =>
      let i := j + 8
      let t := w.getD 0 []
      let rcon := 2 ^ (i / 8 - 1)
      let t := if i % 8 = 0 then
          let r := (t.drop 1 ++ t.take 1).map aesSub
          xorL r [rcon, 0, 0, 0]
        else if i % 8 = 4 then t.map aesSub else t
      xorL (w.getD 7 []) t :: w)
    w0

/-- The 15 round keys of 16 bytes. -/
def aesKeys (key : List Nat) : List (List Nat) :=
  let ws := (aesWords key).reverse
  (List.range 15).map fun r => ((ws.drop (4 * r)).take 4).flatten

/-- ShiftRows and its inverse on a state kept by columns. -/
def shiftRows (s : List Nat) : List Nat := (List.range 16).map fun i => s.getD ((i + 4 * (i % 4)) % 16) 0
def unshiftRows (s : List Nat) : List Nat := (List.range 16).map fun i => s.getD ((i + 16 - 4 * (i % 4)) % 16) 0

/-- MixColumns with a row of coefficients. -/
def mixCols (cs s : List Nat) : List Nat :=
  (List.range 16).map fun i =>
    let c := i / 4 * 4
    (List.range 4).foldl (fun a j => Nat.xor a (gfMul (cs.getD ((j + 4 - i % 4) % 4) 0) (s.getD (c + j) 0))) 0

/-- One block encrypted under the round keys. -/
def aesEnc (ks : List (List Nat)) (blk : List Nat) : List Nat :=
  let s := xorL blk (ks.getD 0 [])
  let s := (List.range 13).foldl
    (fun s r => xorL (mixCols [2, 3, 1, 1] (shiftRows (s.map aesSub))) (ks.getD (r + 1) [])) s
  xorL (shiftRows (s.map aesSub)) (ks.getD 14 [])

/-- One block decrypted under the round keys. -/
def aesDec (ks : List (List Nat)) (blk : List Nat) : List Nat :=
  let s := (unshiftRows (xorL blk (ks.getD 14 []))).map aesUnsub
  let s := (List.range 13).foldl
    (fun s r => (unshiftRows (mixCols [14, 11, 13, 9] (xorL s (ks.getD (13 - r) [])))).map aesUnsub) s
  xorL s (ks.getD 0 [])

def natBytes (bs : List Byte) : List Nat := bs.map BitVec.toNat
def byteNats (ns : List Nat) : List Byte := ns.map (BitVec.ofNat 8)

/-! ### CMAC -/

/-- Doubling of a 16-byte block, most significant byte first. -/
def cmacDbl (b : List Nat) : List Nat :=
  let x := b.foldl (fun a y => 256 * a + y) 0
  let y := x * 2 % 2 ^ 128
  natBytes (msbBytes 16 (if x ≥ 2 ^ 127 then Nat.xor y 0x87 else y))

def cmacLoop (ks : List (List Nat)) : Nat → List Nat → List Nat → List Nat
  | 0, c, _ => c
  | fuel + 1, c, m => if m.isEmpty then c else cmacLoop ks fuel (aesEnc ks (xorL c (m.take 16))) (m.drop 16)

/-- The 16-byte AES-256-CMAC of a message. -/
def cmac (key : List Nat) (msg : List Nat) : List Nat :=
  let ks := aesKeys key
  let k1 := cmacDbl (aesEnc ks (List.replicate 16 0))
  let n := if msg.isEmpty then 0 else (msg.length - 1) / 16 * 16
  let tail := msg.drop n
  let last := if tail.length = 16 then xorL tail k1
    else xorL (tail ++ [0x80] ++ List.replicate (15 - tail.length) 0) (cmacDbl k1)
  cmacLoop ks (n / 16 + 1) (List.replicate 16 0) (msg.take n ++ last)

/-! ### The key derivation of R556 -/

/-- `n` blocks K(1), K(2), … joined. -/
def kdf (root label : List Nat) (role bits : Nat) : List Nat :=
  (List.range (bits / 128)).flatMap fun i =>
    cmac root ([i + 1] ++ label ++ [0, role, bits / 256 % 256, bits % 256])

/-! ### XTS -/

/-- Product of a tweak by α. -/
def xtsAlpha (t : List Nat) : List Nat :=
  let x := t.reverse.foldl (fun a y => 256 * a + y) 0
  let y := x * 2 % 2 ^ 128
  natBytes (leBytes 16 (if x ≥ 2 ^ 127 then Nat.xor y 0x87 else y))

def xtsLoop (f : List Nat → List Nat) : Nat → List Nat → List Nat → List Nat
  | 0, _, _ => []
  | fuel + 1, t, m => if m.isEmpty then [] else xorL (f (xorL (m.take 16) t)) t ++ xtsLoop f fuel (xtsAlpha t) (m.drop 16)

/-- One data unit of a whole number of blocks, numbered `tweak`. -/
def xtsUnit (enc : Bool) (k1 k2 : List (List Nat)) (tweak : Nat) (m : List Nat) : List Nat :=
  xtsLoop (if enc then aesEnc k1 else aesDec k1) (m.length / 16 + 1) (aesEnc k2 (natBytes (leBytes 16 tweak))) m

/-- Data units of `unit` bytes, the first numbered `tweak` (R557). -/
def xts (enc : Bool) (key : List Nat) (unit tweak : Nat) (m : List Nat) : List Nat :=
  let k1 := aesKeys (key.take 32)
  let k2 := aesKeys (key.drop 32)
  (List.range (m.length / unit)).flatMap fun j => xtsUnit enc k1 k2 (tweak + j) ((m.drop (unit * j)).take unit)

/-! ### ECDSA P-384 -/

def ecP : Nat := 2 ^ 384 - 2 ^ 128 - 2 ^ 96 + 2 ^ 32 - 1
def ecB : Nat := 0xB3312FA7E23EE7E4988E056BE3F82D19181D9C6EFE8141120314088F5013875AC656398D8A2ED19D2A85C8EDD3EC2AEF
def ecGx : Nat := 0xAA87CA22BE8B05378EB1C71EF320AD746E1D3B628BA79B9859F741E082542A385502F25DBF55296C3A545E3872760AB7
def ecGy : Nat := 0x3617DE4A96262C6F5D9E98BF9292DC29F8F41DBD289A147CE9DA3113B5F0B8C00A60B1CE1D7E819D7A431D7C90EA0E5F
def ecN : Nat := 0xFFFFFFFFFFFFFFFFFFFFFFFFFFFFFFFFFFFFFFFFFFFFFFFFC7634D81F4372DDF581A0DB248B0A77AECEC196ACCC52973

/-- x^e mod m, by the bits of e. -/
def powMod (m : Nat) : Nat → Nat → Nat → Nat
  | 0, _, _ => 1 % m
  | fuel + 1, x, e =>
    if e = 0 then 1 % m
    else
      let r := powMod m fuel (x * x % m) (e / 2)
      if e % 2 = 1 then r * x % m else r

/-- Inverse modulo a prime. -/
def invMod (m x : Nat) : Nat := powMod m 400 (x % m) (m - 2)

def subP (a b : Nat) : Nat := (a % ecP + ecP - b % ecP) % ecP

/-! Points are in Jacobian coordinates: (X, Y, Z) stands for (X / Z², Y / Z³), and Z = 0 for the point at infinity. -/

def ecDbl (p : Nat × Nat × Nat) : Nat × Nat × Nat :=
  let (x, y, z) := p
  let d := z * z % ecP
  let g := y * y % ecP
  let b := x * g % ecP
  let a := 3 * subP x d * (x + d) % ecP
  let x3 := subP (a * a) (8 * b)
  (x3, subP (a * subP (4 * b) x3) (8 * g * g), 2 * y * z % ecP)

def ecAdd (p q : Nat × Nat × Nat) : Nat × Nat × Nat :=
  let (x1, y1, z1) := p
  let (x2, y2, z2) := q
  if z1 = 0 then q
  else if z2 = 0 then p
  else
    let u1 := x1 * z2 * z2 % ecP
    let u2 := x2 * z1 * z1 % ecP
    let s1 := y1 * z2 * z2 * z2 % ecP
    let s2 := y2 * z1 * z1 * z1 % ecP
    if u1 = u2 then if s1 = s2 then ecDbl p else (1, 1, 0)
    else
      let h := subP u2 u1
      let r := subP s2 s1
      let h2 := h * h % ecP
      let h3 := h * h2 % ecP
      let v := u1 * h2 % ecP
      let x3 := subP (r * r) (h3 + 2 * v)
      (x3, subP (r * subP v x3) (s1 * h3), h * z1 * z2 % ecP)

/-- A multiple of a point, by the bits of `k`. -/
def ecMul : Nat → Nat → Nat × Nat × Nat → Nat × Nat × Nat
  | 0, _, _ => (1, 1, 0)
  | fuel + 1, k, p =>
    if k = 0 then (1, 1, 0)
    else
      let r := ecMul fuel (k / 2) (ecDbl p)
      if k % 2 = 1 then ecAdd r p else r

/-- Does a signature (r, s) verify for a message under a public key? -/
def ecdsaOk (x y r s : Nat) (msg : List Byte) : Bool :=
  let onCurve := x < ecP ∧ y < ecP ∧ y * y % ecP = (x * x * x + (ecP - 3) * x + ecB) % ecP
  if !(decide onCurve && decide (0 < r) && decide (r < ecN) && decide (0 < s) && decide (s < ecN)) then false
  else
    let e := msbNum (sha384 msg)
    let w := invMod ecN s
    let (v, _, z) := ecAdd (ecMul 400 (e * w % ecN) (ecGx, ecGy, 1)) (ecMul 400 (r * w % ecN) (x, y, 1))
    z != 0 && v * invMod ecP (z * z) % ecP % ecN == r

end Sys2Proof.Machine
end

