-- ==== Sys2Proof/Machine/RegNames.lean ====
section
/-!
DEFINITION. Sys2Proof/Machine/RegNames.lean: the page offset of every register, under the manual's own name.
A register that repeats has the offset of its instance 0; the stride stands in Sys2Proof.Machine.RegTable.
Rules R31, R106, R182, R183, R220, R221, R256 to R258, R304, R333, R359 to R361, R392, R393, R408, R435,
R436, R480 to R484, R506, R511, R512, R541 to R544, R584 to R588.
-/
namespace Sys2Proof.Machine.Reg

def BFE_CTX : Nat := 0x080
def BFE_IDENT : Nat := 0x040
def BFE_OCCUPANCY : Nat := 0x044
def BFE_TALLY_CMD : Nat := 0x048
def BFE_TALLY_ERR : Nat := 0x054
def BFE_TALLY_LATE : Nat := 0x050
def BFE_TALLY_SAT : Nat := 0x04C
def DEV_CMD : Nat := 0x044
def DEV_MODE : Nat := 0x040
def DEV_PAD_HELD : Nat := 0x054
def DEV_PAD_RELEASE : Nat := 0x058
def DEV_WAKE_ALARM_HI : Nat := 0x050
def DEV_WAKE_ALARM_LO : Nat := 0x04C
def DEV_WAKE_CTRL : Nat := 0x048
def DMA_CH_CFG : Nat := 0x040
def DMA_CH_CMD : Nat := 0x06C
def DMA_CH_DST_HI : Nat := 0x058
def DMA_CH_DST_LO : Nat := 0x054
def DMA_CH_ENQ : Nat := 0x060
def DMA_CH_ENQ_DESC_HI : Nat := 0x068
def DMA_CH_ENQ_DESC_LO : Nat := 0x064
def DMA_CH_FAIL_HI : Nat := 0x07C
def DMA_CH_FAIL_LO : Nat := 0x078
def DMA_CH_NOTIFY : Nat := 0x05C
def DMA_CH_POS : Nat := 0x074
def DMA_CH_PSTRIDE : Nat := 0x048
def DMA_CH_SHAPE : Nat := 0x044
def DMA_CH_SRC_HI : Nat := 0x050
def DMA_CH_SRC_LO : Nat := 0x04C
def DMA_CH_STATUS : Nat := 0x070
def DMA_CH_TALLY_BURST : Nat := 0x080
def DMA_CH_TALLY_HALT : Nat := 0x08C
def DMA_CH_TALLY_LINEFULL : Nat := 0x084
def DMA_CH_TALLY_POISONWR : Nat := 0x088
def DMA_CH_TALLY_SAT : Nat := 0x090
def DTE_IDENT : Nat := 0x040
def DTE_TALLY_CMD : Nat := 0x044
def DTE_TALLY_ERR : Nat := 0x054
def DTE_TALLY_NONFINITE : Nat := 0x04C
def DTE_TALLY_SAT : Nat := 0x050
def DTE_TALLY_SINGULAR : Nat := 0x048
def FDC_CH : Nat := 0x080
def FDC_DCB_CTRL : Nat := 0x048
def FDC_IDENT : Nat := 0x040
def FDC_OCCUPANCY : Nat := 0x044
def FDC_SLICE_MAX : Nat := 0x04C
def FDC_TALLY_CMD : Nat := 0x050
def FDC_TALLY_ERR : Nat := 0x058
def FDC_TALLY_SAT : Nat := 0x054
def FDC_TALLY_SYNC : Nat := 0x05C
def FRM_EARLY : Nat := 0x05C
def FRM_IDENT : Nat := 0x040
def FRM_OWD : Nat := 0x060
def FRM_RING_HI : Nat := 0x054
def FRM_RING_LO : Nat := 0x050
def FRM_RING_SIZE : Nat := 0x058
def FRM_TALLY_EARLYDROP : Nat := 0x08C
def FRM_TALLY_LATE : Nat := 0x088
def FRM_TALLY_MISSED : Nat := 0x098
def FRM_TALLY_NOFLOW : Nat := 0x084
def FRM_TALLY_RX : Nat := 0x080
def FRM_TALLY_STALE : Nat := 0x094
def FRM_TALLY_UNSUPPORTED : Nat := 0x090
def FRM_TCMD : Nat := 0x04C
def FRM_TDATA : Nat := 0x048
def FRM_TSEL : Nat := 0x044
def GEN_CFG : Nat := 0x400
def GEN_FRAME_OFFSET : Nat := 0x404
def GEN_LEAD : Nat := 0x408
def GEN_SLOTMASK0 : Nat := 0x40C
def GEN_SLOTMASK1 : Nat := 0x410
def GEN_SLOTMASK2 : Nat := 0x414
def GEN_SYMMASK : Nat := 0x418
def GVC_IDENT : Nat := 0x040
def GVC_LAST_ECAUSE : Nat := 0x04C
def GVC_LAST_EPC : Nat := 0x050
def GVC_MASK_MAX : Nat := 0x054
def GVC_RUN : Nat := 0x044
def GVC_TALLY_ABANDON : Nat := 0x060
def GVC_TALLY_DISPATCH : Nat := 0x058
def GVC_TALLY_PREEMPT : Nat := 0x05C
def GVC_TASKID : Nat := 0x048
def GVI_DBG_BKPT : Nat := 0x064
def GVI_DBG_CTRL : Nat := 0x060
def GVI_IMAGES : Nat := 0x044
def GVI_IMEM_ADDR : Nat := 0x054
def GVI_IMEM_CMD : Nat := 0x05C
def GVI_IMEM_DATA : Nat := 0x058
def GVI_LOAD : Nat := 0x040
def HIF_FN_APT : Nat := 0x708
def HIF_FN_APT_HI : Nat := 0x704
def HIF_FN_APT_LO : Nat := 0x700
def HIF_FN_CTRL : Nat := 0x040
def HIF_FN_DLV : Nat := 0x608
def HIF_FN_DLV_HI : Nat := 0x604
def HIF_FN_DLV_LO : Nat := 0x600
def HIF_FN_MBX : Nat := 0x04C
def HIF_FN_PUSH : Nat := 0x500
def HIF_FN_RING_CFG : Nat := 0x108
def HIF_FN_RING_HI : Nat := 0x104
def HIF_FN_RING_LO : Nat := 0x100
def HIF_FN_TALLY_BADDONE : Nat := 0x054
def HIF_FN_TALLY_REFUSED : Nat := 0x050
def HIF_FN_WIN_HI : Nat := 0x048
def HIF_FN_WIN_LO : Nat := 0x044
def HIF_LAST_ERR_HI : Nat := 0x048
def HIF_LAST_ERR_LO : Nat := 0x044
def HIF_LINK : Nat := 0x040
def HIF_TALLY_ACCERR : Nat := 0x050
def HIF_TALLY_BADVEC : Nat := 0x054
def HQD_BASE_HI : Nat := 0x044
def HQD_BASE_LO : Nat := 0x040
def HQD_ENTRIES : Nat := 0x048
def HQD_SCAN : Nat := 0x04C
def HQD_TALLY_LOST : Nat := 0x050
def HQD_TALLY_MISMATCH : Nat := 0x054
def IMG_ADDR : Nat := 0xF00
def IMG_CMD : Nat := 0xF08
def IMG_DATA : Nat := 0xF04
def KLN_CMD : Nat := 0x044
def KLN_DATA : Nat := 0x800
def KLN_GO : Nat := 0x078
def KLN_LABEL : Nat := 0x048
def KLN_LEN : Nat := 0x070
def KLN_LOCK : Nat := 0x040
def KLN_SRAM_ADDR : Nat := 0x074
def KLN_STATUS : Nat := 0x07C
def KLN_TAG : Nat := 0x080
def KLN_TALLY_LOCKLOST : Nat := 0x090
def KLN_TWEAK_HI : Nat := 0x06C
def KLN_TWEAK_LO : Nat := 0x068
def LDE_IDENT : Nat := 0x040
def LDE_TALLY_CB : Nat := 0x050
def LDE_TALLY_CBFAIL : Nat := 0x054
def LDE_TALLY_CMD : Nat := 0x044
def LDE_TALLY_ERR : Nat := 0x048
def LDE_TALLY_HQLOST : Nat := 0x05C
def LDE_TALLY_ITER : Nat := 0x058
def LDE_TALLY_SAT : Nat := 0x04C
def LEE_IDENT : Nat := 0x040
def LEE_TALLY_CMD : Nat := 0x044
def LEE_TALLY_ERR : Nat := 0x048
def LEE_TALLY_SAT : Nat := 0x04C
def LNG_CPRI : Nat := 0x0C0
def LNG_CPRI_BURST : Nat := 0x0C4
def LNG_REF : Nat := 0x040
def LNG_SCHED0_BASE_HI : Nat := 0x064
def LNG_SCHED0_BASE_LO : Nat := 0x060
def LNG_SCHED0_PERIOD : Nat := 0x068
def LNG_SCHED0_WIN0_END : Nat := 0x070
def LNG_SCHED0_WIN0_START : Nat := 0x06C
def LNG_SCHED0_WIN1_END : Nat := 0x078
def LNG_SCHED0_WIN1_START : Nat := 0x074
def LNG_SCHED0_WIN2_START : Nat := 0x07C
def LNG_SCHED1_BASE_HI : Nat := 0x084
def LNG_SCHED1_BASE_LO : Nat := 0x080
def LNG_SCHED1_PERIOD : Nat := 0x088
def LNG_SCHED1_WIN0_END : Nat := 0x090
def LNG_SCHED1_WIN0_START : Nat := 0x08C
def LNG_SCHED1_WIN1_END : Nat := 0x098
def LNG_SCHED1_WIN1_START : Nat := 0x094
def LNG_SCHED1_WIN2_END : Nat := 0x0A0
def LNG_SCHED1_WIN2_START : Nat := 0x09C
def LNG_SCHED1_WIN3_END : Nat := 0x0A8
def LNG_SCHED1_WIN3_START : Nat := 0x0A4
def LNG_SCHED_CTRL : Nat := 0x048
def LNG_TABLE_ID : Nat := 0x044
def LN_ALIGN : Nat := 0x05C
def LN_CFG : Nat := 0x040
def LN_EYE_COUNT : Nat := 0x070
def LN_EYE_CTRL : Nat := 0x06C
def LN_LAT_RX : Nat := 0x064
def LN_LAT_TX : Nat := 0x060
def LN_PRBS_ERR : Nat := 0x090
def LN_RECAL : Nat := 0x068
def LN_RXEQ : Nat := 0x048
def LN_RXFFE0 : Nat := 0x04C
def LN_RXFFE1 : Nat := 0x050
def LN_RXFFE2 : Nat := 0x054
def LN_SLEEP : Nat := 0x058
def LN_SWEEP_CTRL : Nat := 0x084
def LN_SWEEP_LIST_HI : Nat := 0x078
def LN_SWEEP_LIST_LO : Nat := 0x074
def LN_SWEEP_RES_HI : Nat := 0x080
def LN_SWEEP_RES_LO : Nat := 0x07C
def LN_TALLY_ALIGNLOST : Nat := 0x094
def LN_TALLY_CDRLOSS : Nat := 0x09C
def LN_TALLY_RXSLEEP : Nat := 0x098
def LN_TEST : Nat := 0x088
def LN_TXEQ : Nat := 0x044
def MEM_BK_IDENT : Nat := 0x040
def MEM_BK_PIN : Nat := 0x04C
def MEM_BK_ROW_CMD : Nat := 0x044
def MEM_BK_SCRUB : Nat := 0x050
def MEM_BK_SPARE : Nat := 0x048
def MEM_BK_TALLY_CORR : Nat := 0x060
def MEM_BK_TALLY_POISON_WR : Nat := 0x068
def MEM_BK_TALLY_UNCORR : Nat := 0x064
def MEM_HBM_MAP : Nat := 0x040
def MEM_LAST_UNCORR_HI : Nat := 0x054
def MEM_LAST_UNCORR_LO : Nat := 0x050
def MEM_RELOC : Nat := 0x04C
def MEM_RETIRE_CTRL : Nat := 0x048
def MEM_SCRUB_CTRL : Nat := 0x044
def MEM_TALLY_CORR : Nat := 0x060
def MEM_TALLY_MIRROR_FIX : Nat := 0x06C
def MEM_TALLY_POISON_WR : Nat := 0x068
def MEM_TALLY_UNCORR : Nat := 0x064
def PCE_IDENT : Nat := 0x040
def PCE_TALLY_CMD : Nat := 0x044
def PCE_TALLY_CRCFAIL : Nat := 0x050
def PCE_TALLY_ERR : Nat := 0x048
def PCE_TALLY_SAT : Nat := 0x04C
def PG_CAPS : Nat := 0x008
def PG_CMD : Nat := 0x010
def PG_FAULT : Nat := 0x020
def PG_FAULT_INFO : Nat := 0x024
def PG_ID : Nat := 0x000
def PG_IRQ_EN : Nat := 0x018
def PG_IRQ_FORCE : Nat := 0x01C
def PG_IRQ_STAT : Nat := 0x014
def PG_OWNER : Nat := 0x02C
def PG_PACE : Nat := 0x028
def PG_STATE : Nat := 0x00C
def PG_VER : Nat := 0x004
def PORT_CFG : Nat := 0x040
def PORT_CPRI_RTT : Nat := 0x074
def PORT_EQ : Nat := 0x050
def PORT_MAC_HI : Nat := 0x048
def PORT_MAC_LO : Nat := 0x044
def PORT_STATUS : Nat := 0x070
def PORT_TALLY_BAD : Nat := 0x088
def PORT_TALLY_FECCORR : Nat := 0x094
def PORT_TALLY_FECUNCORR : Nat := 0x098
def PORT_TALLY_NOFRAMER : Nat := 0x08C
def PORT_TALLY_OTHER : Nat := 0x090
def PORT_TALLY_RX : Nat := 0x080
def PORT_TALLY_TX : Nat := 0x084
def PORT_TALLY_UNDERRUN : Nat := 0x09C
def PRB_ADDR_BASE : Nat := 0x048
def PRB_ADDR_MASK : Nat := 0x04C
def PRB_BYTES_HI : Nat := 0x05C
def PRB_BYTES_LO : Nat := 0x058
def PRB_CTRL : Nat := 0x040
def PRB_FLITS_HI : Nat := 0x054
def PRB_FLITS_LO : Nat := 0x050
def PRB_MATCH : Nat := 0x044
def PRB_TALLY_CAPDROP : Nat := 0x060
def PWR_INPUT : Nat := 0x040
def PWR_OCT_CURR : Nat := 0x048
def PWR_OCT_PHASE : Nat := 0x04C
def PWR_OCT_STATE : Nat := 0x040
def PWR_OCT_VOLT : Nat := 0x044
def PWR_TALLY_DERATE : Nat := 0x04C
def PWR_TALLY_PHASEOPEN : Nat := 0x044
def PWR_TALLY_SENSEFAIL : Nat := 0x048
def RNG_CPACE : Nat := 0x044
def RNG_FAIL_SEG : Nat := 0x044
def RNG_LAST_ABORT_HI : Nat := 0x04C
def RNG_LAST_ABORT_LO : Nat := 0x048
def RNG_STATE : Nat := 0x040
def RNG_STOP_ID : Nat := 0x040
def RNG_TALLY_ABORT_RX : Nat := 0x078
def RNG_TALLY_ABORT_TX : Nat := 0x074
def RNG_TALLY_ABSORB : Nat := 0x07C
def RNG_TALLY_CORR : Nat := 0x068
def RNG_TALLY_CRCNAK : Nat := 0x070
def RNG_TALLY_HOPRETRY : Nat := 0x064
def RNG_TALLY_INJECT : Nat := 0x060
def RNG_TALLY_LOSTOP : Nat := 0x084
def RNG_TALLY_SEGFAIL : Nat := 0x080
def RNG_TALLY_UNCORR : Nat := 0x06C
def RV_CFG : Nat := 0x040
def RV_PEER_ID_HI : Nat := 0x04C
def RV_PEER_ID_LO : Nat := 0x048
def RV_STATE : Nat := 0x044
def RV_SWAP : Nat := 0x050
def RV_TALLY_CRC : Nat := 0x084
def RV_TALLY_INREJECT : Nat := 0x098
def RV_TALLY_LANECHG : Nat := 0x090
def RV_TALLY_MIRRORDROP : Nat := 0x094
def RV_TALLY_REPLAY : Nat := 0x080
def RV_TALLY_SILTDEL : Nat := 0x088
def RV_TALLY_SILTINS : Nat := 0x08C
def RV_TCMD : Nat := 0x060
def RV_TDATA : Nat := 0x05C
def RV_TIMERS : Nat := 0x054
def RV_TSEL : Nat := 0x058
def SED_RING_CFG : Nat := 0x088
def SED_RING_HI : Nat := 0x084
def SED_RING_LO : Nat := 0x080
def SED_RING_PTR : Nat := 0x08C
def SED_RING_TAIL : Nat := 0x100
def TB_AIRTIME_HI : Nat := 0x048
def TB_AIRTIME_LO : Nat := 0x044
def TB_CTRL : Nat := 0x040
def TB_FREQ : Nat := 0x04C
def TB_PPS_IN_HI : Nat := 0x060
def TB_PPS_IN_LO : Nat := 0x05C
def TB_PPS_OUT : Nat := 0x064
def TB_PPS_WIDTH : Nat := 0x068
def TB_PTP_RX_HI : Nat := 0x084
def TB_PTP_RX_LO : Nat := 0x080
def TB_PTP_SIZE : Nat := 0x090
def TB_PTP_TX_HI : Nat := 0x08C
def TB_PTP_TX_LO : Nat := 0x088
def TB_PTP_TX_TAIL : Nat := 0x094
def TB_SLEW : Nat := 0x050
def TB_STEP_HI : Nat := 0x058
def TB_STEP_LO : Nat := 0x054
def TB_SYNCE : Nat := 0x078
def TB_TALLY_PTPDROP : Nat := 0x098
def TB_TOD_CTRL : Nat := 0x06C
def TB_TOD_RX_HI : Nat := 0x074
def TB_TOD_RX_LO : Nat := 0x070
def TB_TREQ_BASE_HI : Nat := 0x104
def TB_TREQ_BASE_LO : Nat := 0x100
def TB_TREQ_PERIOD : Nat := 0x108
def TCE_IDENT : Nat := 0x040
def TCE_TALLY_CB : Nat := 0x050
def TCE_TALLY_CBFAIL : Nat := 0x054
def TCE_TALLY_CMD : Nat := 0x044
def TCE_TALLY_ERR : Nat := 0x048
def TCE_TALLY_HQLOST : Nat := 0x05C
def TCE_TALLY_ITER : Nat := 0x058
def TCE_TALLY_SAT : Nat := 0x04C
def TFB_OUTSTANDING : Nat := 0x0C0
def TFB_QBODY_HI : Nat := 0x05C
def TFB_QBODY_LO : Nat := 0x058
def TFB_QCFG_HI : Nat := 0x04C
def TFB_QCFG_LO : Nat := 0x048
def TFB_QCMD : Nat := 0x044
def TFB_QNOTE_HI : Nat := 0x054
def TFB_QNOTE_LO : Nat := 0x050
def TFB_QSEL : Nat := 0x040
def TFB_QSTATE : Nat := 0x060
def TFB_READY : Nat := 0x080
def TFB_TALLY_ABORT : Nat := 0x0DC
def TFB_TALLY_DEADLOCK : Nat := 0x0E0
def TFB_TALLY_DISPATCH : Nat := 0x0C8
def TFB_TALLY_DROP : Nat := 0x0D0
def TFB_TALLY_ENQ : Nat := 0x0C4
def TFB_TALLY_EXPIRED : Nat := 0x0D8
def TFB_TALLY_NOTEDROP : Nat := 0x0E4
def TFB_TALLY_PUSHDROP : Nat := 0x0E8
def TFB_TALLY_QCBMISS : Nat := 0x0EC
def TFB_TALLY_SHED : Nat := 0x0CC
def TFB_TALLY_STALL : Nat := 0x0D4
def TFB_TALLY_TRACEDROP : Nat := 0x0F0
def TFB_TRC_CTRL : Nat := 0x100
def TFB_TRC_QRANGE : Nat := 0x104
def TFB_TRC_REASON_HI : Nat := 0x10C
def TFB_TRC_REASON_LO : Nat := 0x108
def TFE_IDENT : Nat := 0x040
def TFE_TALLY_CMD : Nat := 0x044
def TFE_TALLY_ERR : Nat := 0x04C
def TFE_TALLY_SAT : Nat := 0x048
def THM_CTRL : Nat := 0x040
def THM_HBM : Nat := 0x068
def THM_OCT : Nat := 0x048
def THM_TJ : Nat := 0x044
def TLT_CORE_MAP : Nat := 0x054
def TLT_HADDR_HI : Nat := 0x064
def TLT_HADDR_LO : Nat := 0x060
def TLT_HCMD : Nat := 0x05C
def TLT_HREFS : Nat := 0x068
def TLT_HSEL : Nat := 0x058
def TLT_MIGRATE_CTRL : Nat := 0x06C
def TLT_PCMD : Nat := 0x04C
def TLT_PDATA : Nat := 0x048
def TLT_PSEL : Nat := 0x040
def TLT_PWORD : Nat := 0x044
def TLT_RSV : Nat := 0x050
def TLT_TALLY_ABANDON : Nat := 0x08C
def TLT_TALLY_BIND : Nat := 0x080
def TLT_TALLY_BINDWAIT : Nat := 0x090
def TLT_TALLY_FREE : Nat := 0x084
def TLT_TALLY_HFAULT : Nat := 0x09C
def TLT_TALLY_MIGRATE : Nat := 0x088
def TLT_TALLY_REPLACE : Nat := 0x098
def TLT_TALLY_SHED : Nat := 0x094
def WRD_BOARD_ID : Nat := 0x048
def WRD_BOOT : Nat := 0x044
def WRD_DEVICE_ID_HI : Nat := 0x050
def WRD_DEVICE_ID_LO : Nat := 0x04C
def WRD_PAIRS : Nat := 0x040
def WRD_POLICY : Nat := 0x054
def WRD_RISE : Nat := 0x058
def WRD_TALLY_HARDPAN : Nat := 0x060
def WRD_TALLY_LOCKSTEP : Nat := 0x05C

end Sys2Proof.Machine.Reg
end

