-- ==== Sys2Proof/Machine/RegTable.lean ====
section
/-!
DEFINITION. Sys2Proof/Machine/RegTable.lean: every register of every page, written from the field tables of the
manual: offset, repetition, and per field its bits, access code (R27), reset value (R25) and stated range (R618).
Bits that no row lists are reserved (R30).
-/
namespace Sys2Proof.Machine

/-- The kinds of register page (R504). -/
inductive PageKind where
  | device | ward | hif | fnPage | coreCtl | coreDbg | clod | bfe | dte | tfe | fdc | lde | lee | pce | tce | hqd | fabric | tilth | ringSys | stop
  | probe | memSys | dbBank | hbmPc | dmaCh | dmaUnit | lane | laneGroup | port | rvLink | framer | timeBase | power | octant | thermal | kaolin | sediment | telemetry
deriving DecidableEq, Repr

/-- Field access codes (R27). -/
inductive Acc where
  | ro | rw | wo | w1c | w1s | rc | rwl
deriving DecidableEq, Repr

/-- The range stated for a field: a write outside it is discarded whole (R618). -/
inductive Chk where
  | any
  | range (lo hi : Nat)
  | aligned (low : Nat)
deriving DecidableEq, Repr

/-- One field of a register: its lowest bit, width, access code, reset value and stated range. -/
structure RegField where
  lo : Nat
  w : Nat
  acc : Acc
  reset : Nat
  chk : Chk
deriving DecidableEq, Repr

/-- Whether a register is one half of a 64-bit value (R31). -/
inductive Half where
  | whole | low | high
deriving DecidableEq, Repr

/-- One row of a register page: `count` registers from `off`, `stride` bytes apart. -/
structure RegRow where
  off : Nat
  stride : Nat
  count : Nat
  half : Half
  fields : List RegField
deriving DecidableEq, Repr

/-- The common header (R506). -/
def rowsCommon : List RegRow := [
  -- PG_ID
  ⟨0x000, 0, 1, .whole, [⟨0, 12, .ro, 0x0, .any⟩, ⟨12, 4, .ro, 0x0, .any⟩]⟩,
  -- PG_VER
  ⟨0x004, 0, 1, .whole, [⟨0, 8, .ro, 0x0, .any⟩, ⟨8, 8, .ro, 0x0, .any⟩, ⟨16, 16, .ro, 0x0, .any⟩]⟩,
  -- PG_CAPS
  ⟨0x008, 0, 1, .whole, [⟨0, 1, .ro, 0x0, .any⟩, ⟨1, 1, .ro, 0x0, .any⟩, ⟨2, 1, .ro, 0x0, .any⟩, ⟨3, 1, .ro, 0x0, .any⟩, ⟨4, 1, .ro, 0x0, .any⟩]⟩,
  -- PG_STATE
  ⟨0x00C, 0, 1, .whole, [⟨0, 4, .ro, 0x1, .any⟩, ⟨4, 1, .ro, 0x0, .any⟩, ⟨8, 3, .ro, 0x0, .any⟩, ⟨11, 1, .ro, 0x0, .any⟩, ⟨12, 3, .ro, 0x0, .any⟩]⟩,
  -- PG_CMD
  ⟨0x010, 0, 1, .whole, [⟨0, 3, .wo, 0x0, .any⟩]⟩,
  -- PG_IRQ_STAT
  ⟨0x014, 0, 1, .whole, [⟨0, 30, .w1c, 0x0, .any⟩, ⟨30, 1, .w1c, 0x0, .any⟩, ⟨31, 1, .w1c, 0x0, .any⟩]⟩,
  -- PG_IRQ_EN
  ⟨0x018, 0, 1, .whole, [⟨0, 30, .rw, 0x0, .any⟩, ⟨30, 1, .rw, 0x0, .any⟩, ⟨31, 1, .rw, 0x0, .any⟩]⟩,
  -- PG_IRQ_FORCE
  ⟨0x01C, 0, 1, .whole, [⟨0, 30, .w1s, 0x0, .any⟩, ⟨30, 1, .w1s, 0x0, .any⟩, ⟨31, 1, .w1s, 0x0, .any⟩]⟩,
  -- PG_FAULT
  ⟨0x020, 0, 1, .whole, [⟨0, 2, .ro, 0x0, .any⟩, ⟨2, 1, .ro, 0x0, .any⟩, ⟨3, 1, .ro, 0x0, .any⟩, ⟨16, 16, .ro, 0x0, .any⟩]⟩,
  -- PG_FAULT_INFO
  ⟨0x024, 0, 1, .whole, [⟨0, 8, .ro, 0x0, .any⟩, ⟨8, 24, .ro, 0x0, .any⟩]⟩,
  -- PG_PACE
  ⟨0x028, 0, 1, .whole, [⟨0, 16, .ro, 0x0, .any⟩, ⟨16, 16, .ro, 0x0, .any⟩]⟩,
  -- PG_OWNER
  ⟨0x02C, 0, 1, .whole, [⟨0, 6, .rw, 0x0, .any⟩, ⟨6, 1, .rw, 0x0, .any⟩, ⟨8, 11, .rw, 0x0, .any⟩, ⟨19, 1, .rw, 0x0, .any⟩]⟩]

/-- The image window of an engine, framer or DMA unit (R586). -/
def rowsImage : List RegRow := [
  -- IMG_ADDR
  ⟨0xF00, 0, 1, .whole, [⟨2, 22, .rw, 0x0, .any⟩]⟩,
  -- IMG_DATA
  ⟨0xF04, 0, 1, .whole, [⟨0, 32, .rw, 0x0, .any⟩]⟩,
  -- IMG_CMD
  ⟨0xF08, 0, 1, .whole, [⟨0, 1, .wo, 0x0, .any⟩, ⟨1, 1, .ro, 0x0, .any⟩, ⟨2, 2, .ro, 0x0, .any⟩, ⟨4, 1, .ro, 0x0, .any⟩]⟩]

/-- Registers of a device page (R541). -/
def rowsDevice : List RegRow := [
  -- DEV_MODE
  ⟨0x040, 0, 1, .whole, [⟨0, 4, .ro, 0x1, .any⟩, ⟨4, 1, .ro, 0x0, .any⟩, ⟨5, 3, .ro, 0x0, .any⟩, ⟨8, 1, .ro, 0x0, .any⟩, ⟨9, 3, .ro, 0x0, .any⟩, ⟨12, 3, .ro, 0x0, .any⟩, ⟨15, 3, .ro, 0x0, .any⟩]⟩,
  -- DEV_CMD
  ⟨0x044, 0, 1, .whole, [⟨0, 3, .wo, 0x0, .any⟩]⟩,
  -- DEV_WAKE_CTRL
  ⟨0x048, 0, 1, .whole, [⟨0, 1, .rw, 0x1, .any⟩, ⟨1, 1, .rw, 0x0, .any⟩, ⟨2, 1, .rw, 0x0, .any⟩, ⟨16, 16, .rw, 0x1, .range 1 65535⟩]⟩,
  -- DEV_WAKE_ALARM_LO
  ⟨0x04C, 0, 1, .low, [⟨0, 32, .rw, 0x0, .any⟩]⟩,
  -- DEV_WAKE_ALARM_HI
  ⟨0x050, 0, 1, .high, [⟨0, 32, .rw, 0x0, .any⟩]⟩,
  -- DEV_PAD_HELD
  ⟨0x054, 0, 1, .whole, [⟨0, 11, .ro, 0x0, .any⟩]⟩,
  -- DEV_PAD_RELEASE
  ⟨0x058, 0, 1, .whole, [⟨0, 11, .wo, 0x0, .any⟩]⟩]

/-- Registers of a ward page (R584). -/
def rowsWard : List RegRow := [
  -- WRD_PAIRS
  ⟨0x040, 0, 1, .whole, [⟨0, 1, .ro, 0x0, .any⟩, ⟨1, 2, .ro, 0x0, .any⟩, ⟨3, 1, .ro, 0x0, .any⟩]⟩,
  -- WRD_BOOT
  ⟨0x044, 0, 1, .whole, [⟨0, 1, .ro, 0x0, .any⟩, ⟨1, 1, .ro, 0x0, .any⟩, ⟨2, 2, .ro, 0x0, .any⟩, ⟨4, 4, .ro, 0x0, .any⟩, ⟨8, 1, .ro, 0x0, .any⟩, ⟨16, 16, .ro, 0x0, .any⟩]⟩,
  -- WRD_BOARD_ID
  ⟨0x048, 0, 1, .whole, [⟨0, 32, .ro, 0x0, .any⟩]⟩,
  -- WRD_DEVICE_ID_LO
  ⟨0x04C, 0, 1, .low, [⟨0, 32, .ro, 0x0, .any⟩]⟩,
  -- WRD_DEVICE_ID_HI
  ⟨0x050, 0, 1, .high, [⟨0, 32, .ro, 0x0, .any⟩]⟩,
  -- WRD_POLICY
  ⟨0x054, 0, 1, .whole, [⟨0, 1, .rw, 0x1, .any⟩, ⟨1, 1, .rw, 0x1, .any⟩]⟩,
  -- WRD_RISE
  ⟨0x058, 0, 1, .whole, [⟨0, 1, .ro, 0x0, .any⟩, ⟨8, 8, .ro, 0x0, .any⟩]⟩,
  -- WRD_TALLY_LOCKSTEP
  ⟨0x05C, 0, 1, .whole, [⟨0, 32, .rc, 0x0, .any⟩]⟩,
  -- WRD_TALLY_HARDPAN
  ⟨0x060, 0, 1, .whole, [⟨0, 32, .rc, 0x0, .any⟩]⟩]

/-- Registers of a hif page (R511). -/
def rowsHif : List RegRow := [
  -- HIF_LINK
  ⟨0x040, 0, 1, .whole, [⟨0, 3, .ro, 0x0, .any⟩, ⟨3, 5, .ro, 0x0, .any⟩, ⟨8, 1, .ro, 0x0, .any⟩, ⟨9, 7, .ro, 0x0, .any⟩, ⟨16, 7, .ro, 0x0, .any⟩]⟩,
  -- HIF_LAST_ERR_LO
  ⟨0x044, 0, 1, .low, [⟨0, 28, .ro, 0x0, .any⟩]⟩,
  -- HIF_LAST_ERR_HI
  ⟨0x048, 0, 1, .high, [⟨0, 6, .ro, 0x0, .any⟩, ⟨6, 2, .ro, 0x0, .any⟩]⟩,
  -- HIF_TALLY_ACCERR
  ⟨0x050, 0, 1, .whole, [⟨0, 32, .rc, 0x0, .any⟩]⟩,
  -- HIF_TALLY_BADVEC
  ⟨0x054, 0, 1, .whole, [⟨0, 32, .rc, 0x0, .any⟩]⟩]

/-- Registers of a fnPage page (R512). -/
def rowsFnPage0 : List RegRow := [
  -- HIF_FN_CTRL
  ⟨0x040, 0, 1, .whole, [⟨0, 1, .rw, 0x0, .any⟩, ⟨1, 1, .ro, 0x0, .any⟩, ⟨2, 1, .ro, 0x0, .any⟩, ⟨3, 2, .rw, 0x0, .any⟩]⟩,
  -- HIF_FN_WIN_LO
  ⟨0x044, 0, 1, .low, [⟨0, 32, .rw, 0x0, .aligned 12⟩]⟩,
  -- HIF_FN_WIN_HI
  ⟨0x048, 0, 1, .high, [⟨0, 32, .rw, 0x0, .any⟩]⟩,
  -- HIF_FN_MBX
  ⟨0x04C, 0, 1, .whole, [⟨0, 11, .rw, 0x0, .any⟩]⟩,
  -- HIF_FN_TALLY_REFUSED
  ⟨0x050, 0, 1, .whole, [⟨0, 32, .rc, 0x0, .any⟩]⟩,
  -- HIF_FN_TALLY_BADDONE
  ⟨0x054, 0, 1, .whole, [⟨0, 32, .rc, 0x0, .any⟩]⟩,
  -- HIF_FN_RING_LO
  ⟨0x100, 16, 64, .low, [⟨0, 32, .rw, 0x0, .aligned 6⟩]⟩,
  -- HIF_FN_RING_HI
  ⟨0x104, 16, 64, .high, [⟨0, 32, .rw, 0x0, .any⟩]⟩,
  -- HIF_FN_RING_CFG
  ⟨0x108, 16, 64, .whole, [⟨0, 20, .rw, 0x0, .any⟩, ⟨20, 5, .rw, 0x6, .range 6 16⟩, ⟨25, 1, .rw, 0x0, .any⟩]⟩,
  -- HIF_FN_PUSH
  ⟨0x500, 4, 64, .whole, [⟨0, 20, .rw, 0x0, .any⟩, ⟨20, 1, .rw, 0x0, .any⟩]⟩,
  -- HIF_FN_DLV_LO
  ⟨0x600, 16, 8, .low, [⟨0, 32, .rw, 0x0, .aligned 8⟩]⟩,
  -- HIF_FN_DLV_HI
  ⟨0x604, 16, 8, .high, [⟨0, 32, .rw, 0x0, .any⟩]⟩]

/-- Registers of a fnPage page (R512). -/
def rowsFnPage1 : List RegRow := [
  -- HIF_FN_DLV
  ⟨0x608, 16, 8, .whole, [⟨0, 5, .rw, 0x4, .range 4 16⟩, ⟨5, 11, .rw, 0x0, .any⟩, ⟨16, 1, .rw, 0x0, .any⟩]⟩,
  -- HIF_FN_APT_LO
  ⟨0x700, 16, 16, .low, [⟨0, 32, .rw, 0x0, .aligned 12⟩]⟩,
  -- HIF_FN_APT_HI
  ⟨0x704, 16, 16, .high, [⟨0, 32, .rw, 0x0, .any⟩]⟩,
  -- HIF_FN_APT
  ⟨0x708, 16, 16, .whole, [⟨0, 15, .rw, 0x0, .any⟩, ⟨15, 1, .rw, 0x0, .any⟩]⟩]

/-- Registers of a fnPage page (R512). -/
def rowsFnPage : List RegRow := rowsFnPage0 ++ rowsFnPage1

/-- Registers of a coreCtl page (R106). -/
def rowsCoreCtl : List RegRow := [
  -- GVC_IDENT
  ⟨0x040, 0, 1, .whole, [⟨0, 8, .ro, 0x0, .any⟩, ⟨8, 1, .ro, 0x0, .any⟩, ⟨16, 4, .ro, 0x0, .any⟩, ⟨20, 5, .ro, 0x0, .any⟩]⟩,
  -- GVC_RUN
  ⟨0x044, 0, 1, .whole, [⟨0, 1, .ro, 0x0, .any⟩, ⟨1, 1, .ro, 0x0, .any⟩, ⟨2, 1, .ro, 0x0, .any⟩, ⟨3, 1, .ro, 0x0, .any⟩, ⟨4, 1, .ro, 0x0, .any⟩, ⟨5, 1, .ro, 0x0, .any⟩, ⟨6, 8, .ro, 0x0, .any⟩]⟩,
  -- GVC_TASKID
  ⟨0x048, 0, 1, .whole, [⟨0, 32, .ro, 0x0, .any⟩]⟩,
  -- GVC_LAST_ECAUSE
  ⟨0x04C, 0, 1, .whole, [⟨0, 32, .ro, 0x0, .any⟩]⟩,
  -- GVC_LAST_EPC
  ⟨0x050, 0, 1, .whole, [⟨0, 16, .ro, 0x0, .any⟩]⟩,
  -- GVC_MASK_MAX
  ⟨0x054, 0, 1, .whole, [⟨0, 16, .rc, 0x0, .any⟩]⟩,
  -- GVC_TALLY_DISPATCH
  ⟨0x058, 0, 1, .whole, [⟨0, 32, .rc, 0x0, .any⟩]⟩,
  -- GVC_TALLY_PREEMPT
  ⟨0x05C, 0, 1, .whole, [⟨0, 32, .rc, 0x0, .any⟩]⟩,
  -- GVC_TALLY_ABANDON
  ⟨0x060, 0, 1, .whole, [⟨0, 16, .rc, 0x0, .any⟩, ⟨16, 16, .rc, 0x0, .any⟩]⟩]

/-- Registers of a coreDbg page (R585). -/
def rowsCoreDbg : List RegRow := [
  -- GVI_LOAD
  ⟨0x040, 0, 1, .whole, [⟨0, 16, .ro, 0x0, .any⟩, ⟨16, 4, .ro, 0x0, .any⟩, ⟨20, 1, .ro, 0x0, .any⟩]⟩,
  -- GVI_IMAGES
  ⟨0x044, 4, 4, .whole, [⟨0, 12, .ro, 0x0, .any⟩, ⟨16, 12, .ro, 0x0, .any⟩]⟩,
  -- GVI_IMEM_ADDR
  ⟨0x054, 0, 1, .whole, [⟨2, 14, .rw, 0x0, .any⟩]⟩,
  -- GVI_IMEM_DATA
  ⟨0x058, 0, 1, .whole, [⟨0, 32, .rw, 0x0, .any⟩]⟩,
  -- GVI_IMEM_CMD
  ⟨0x05C, 0, 1, .whole, [⟨0, 1, .wo, 0x0, .any⟩, ⟨1, 1, .ro, 0x0, .any⟩, ⟨2, 2, .ro, 0x0, .any⟩]⟩,
  -- GVI_DBG_CTRL
  ⟨0x060, 0, 1, .whole, [⟨0, 1, .rw, 0x0, .any⟩, ⟨1, 1, .wo, 0x0, .any⟩, ⟨2, 1, .ro, 0x0, .any⟩, ⟨4, 16, .ro, 0x0, .any⟩]⟩,
  -- GVI_DBG_BKPT
  ⟨0x064, 0, 1, .whole, [⟨0, 1, .rw, 0x0, .any⟩, ⟨4, 12, .rw, 0x0, .any⟩]⟩]

/-- Registers of a clod page (R393). -/
def rowsClod : List RegRow := [
  -- MEM_BK_IDENT
  ⟨0x040, 0, 1, .whole, [⟨0, 2, .ro, 0x0, .any⟩, ⟨2, 7, .ro, 0x0, .any⟩, ⟨9, 7, .ro, 0x0, .any⟩]⟩,
  -- MEM_BK_ROW_CMD
  ⟨0x044, 0, 1, .whole, [⟨0, 1, .wo, 0x0, .any⟩, ⟨1, 1, .ro, 0x0, .any⟩, ⟨2, 2, .ro, 0x0, .any⟩, ⟨8, 24, .rw, 0x0, .any⟩]⟩,
  -- MEM_BK_SPARE
  ⟨0x048, 0, 1, .whole, [⟨0, 16, .ro, 0x0, .any⟩, ⟨16, 16, .ro, 0x0, .any⟩]⟩,
  -- MEM_BK_SCRUB
  ⟨0x050, 0, 1, .whole, [⟨0, 10, .ro, 0x0, .any⟩, ⟨16, 16, .ro, 0x0, .any⟩]⟩,
  -- MEM_BK_TALLY_CORR
  ⟨0x060, 0, 1, .whole, [⟨0, 32, .rc, 0x0, .any⟩]⟩,
  -- MEM_BK_TALLY_UNCORR
  ⟨0x064, 0, 1, .whole, [⟨0, 32, .rc, 0x0, .any⟩]⟩,
  -- MEM_BK_TALLY_POISON_WR
  ⟨0x068, 0, 1, .whole, [⟨0, 32, .rc, 0x0, .any⟩]⟩]

/-- Registers of a bfe page (R182). -/
def rowsBfe : List RegRow := [
  -- BFE_IDENT
  ⟨0x040, 0, 1, .whole, [⟨0, 5, .ro, 0x0, .any⟩, ⟨5, 1, .ro, 0x0, .any⟩]⟩,
  -- BFE_OCCUPANCY
  ⟨0x044, 0, 1, .whole, [⟨0, 5, .ro, 0x0, .any⟩, ⟨8, 7, .ro, 0x0, .any⟩]⟩,
  -- BFE_TALLY_CMD
  ⟨0x048, 0, 1, .whole, [⟨0, 32, .rc, 0x0, .any⟩]⟩,
  -- BFE_TALLY_SAT
  ⟨0x04C, 0, 1, .whole, [⟨0, 32, .rc, 0x0, .any⟩]⟩,
  -- BFE_TALLY_LATE
  ⟨0x050, 0, 1, .whole, [⟨0, 16, .rc, 0x0, .any⟩, ⟨16, 16, .rc, 0x0, .any⟩]⟩,
  -- BFE_TALLY_ERR
  ⟨0x054, 0, 1, .whole, [⟨0, 32, .rc, 0x0, .any⟩]⟩,
  -- BFE_CTX
  ⟨0x080, 4, 16, .whole, [⟨0, 16, .ro, 0x0, .any⟩, ⟨16, 6, .ro, 0x0, .any⟩, ⟨22, 1, .ro, 0x0, .any⟩, ⟨23, 1, .ro, 0x0, .any⟩, ⟨24, 1, .ro, 0x0, .any⟩, ⟨25, 1, .ro, 0x0, .any⟩, ⟨26, 6, .ro, 0x0, .any⟩]⟩]

/-- Registers of a dte page (R183). -/
def rowsDte : List RegRow := [
  -- DTE_IDENT
  ⟨0x040, 0, 1, .whole, [⟨0, 4, .ro, 0x0, .any⟩, ⟨4, 1, .ro, 0x0, .any⟩]⟩,
  -- DTE_TALLY_CMD
  ⟨0x044, 0, 1, .whole, [⟨0, 32, .rc, 0x0, .any⟩]⟩,
  -- DTE_TALLY_SINGULAR
  ⟨0x048, 0, 1, .whole, [⟨0, 32, .rc, 0x0, .any⟩]⟩,
  -- DTE_TALLY_NONFINITE
  ⟨0x04C, 0, 1, .whole, [⟨0, 32, .rc, 0x0, .any⟩]⟩,
  -- DTE_TALLY_SAT
  ⟨0x050, 0, 1, .whole, [⟨0, 32, .rc, 0x0, .any⟩]⟩,
  -- DTE_TALLY_ERR
  ⟨0x054, 0, 1, .whole, [⟨0, 32, .rc, 0x0, .any⟩]⟩]

/-- Registers of a tfe page (R220). -/
def rowsTfe : List RegRow := [
  -- TFE_IDENT
  ⟨0x040, 0, 1, .whole, [⟨0, 5, .ro, 0x0, .any⟩, ⟨5, 1, .ro, 0x0, .any⟩]⟩,
  -- TFE_TALLY_CMD
  ⟨0x044, 0, 1, .whole, [⟨0, 32, .rc, 0x0, .any⟩]⟩,
  -- TFE_TALLY_SAT
  ⟨0x048, 0, 1, .whole, [⟨0, 32, .rc, 0x0, .any⟩]⟩,
  -- TFE_TALLY_ERR
  ⟨0x04C, 0, 1, .whole, [⟨0, 32, .rc, 0x0, .any⟩]⟩]

/-- Registers of a fdc page (R221). -/
def rowsFdc : List RegRow := [
  -- FDC_IDENT
  ⟨0x040, 0, 1, .whole, [⟨0, 4, .ro, 0x0, .any⟩, ⟨4, 1, .ro, 0x0, .any⟩]⟩,
  -- FDC_OCCUPANCY
  ⟨0x044, 0, 1, .whole, [⟨0, 7, .ro, 0x0, .any⟩, ⟨16, 10, .ro, 0x0, .any⟩]⟩,
  -- FDC_DCB_CTRL
  ⟨0x048, 0, 1, .whole, [⟨0, 1, .rw, 0x0, .any⟩]⟩,
  -- FDC_SLICE_MAX
  ⟨0x04C, 0, 1, .whole, [⟨0, 16, .rc, 0x0, .any⟩]⟩,
  -- FDC_TALLY_CMD
  ⟨0x050, 0, 1, .whole, [⟨0, 32, .rc, 0x0, .any⟩]⟩,
  -- FDC_TALLY_SAT
  ⟨0x054, 0, 1, .whole, [⟨0, 32, .rc, 0x0, .any⟩]⟩,
  -- FDC_TALLY_ERR
  ⟨0x058, 0, 1, .whole, [⟨0, 32, .rc, 0x0, .any⟩]⟩,
  -- FDC_TALLY_SYNC
  ⟨0x05C, 0, 1, .whole, [⟨0, 32, .rc, 0x0, .any⟩]⟩,
  -- FDC_CH
  ⟨0x080, 4, 64, .whole, [⟨0, 16, .ro, 0x0, .any⟩, ⟨16, 6, .ro, 0x0, .any⟩, ⟨22, 1, .ro, 0x0, .any⟩, ⟨23, 1, .ro, 0x0, .any⟩, ⟨24, 2, .ro, 0x0, .any⟩, ⟨26, 1, .ro, 0x0, .any⟩, ⟨27, 1, .ro, 0x0, .any⟩]⟩]

/-- Registers of a lde page (R256, R257). -/
def rowsLde : List RegRow := [
  -- LDE_IDENT
  ⟨0x040, 0, 1, .whole, [⟨0, 4, .ro, 0x0, .any⟩, ⟨4, 1, .ro, 0x0, .any⟩]⟩,
  -- LDE_TALLY_CMD
  ⟨0x044, 0, 1, .whole, [⟨0, 32, .rc, 0x0, .any⟩]⟩,
  -- LDE_TALLY_ERR
  ⟨0x048, 0, 1, .whole, [⟨0, 32, .rc, 0x0, .any⟩]⟩,
  -- LDE_TALLY_SAT
  ⟨0x04C, 0, 1, .whole, [⟨0, 32, .rc, 0x0, .any⟩]⟩,
  -- LDE_TALLY_CB
  ⟨0x050, 0, 1, .whole, [⟨0, 32, .rc, 0x0, .any⟩]⟩,
  -- LDE_TALLY_CBFAIL
  ⟨0x054, 0, 1, .whole, [⟨0, 32, .rc, 0x0, .any⟩]⟩,
  -- LDE_TALLY_ITER
  ⟨0x058, 0, 1, .whole, [⟨0, 32, .rc, 0x0, .any⟩]⟩,
  -- LDE_TALLY_HQLOST
  ⟨0x05C, 0, 1, .whole, [⟨0, 16, .rc, 0x0, .any⟩, ⟨16, 16, .rc, 0x0, .any⟩]⟩]

/-- Registers of a lee page (R256). -/
def rowsLee : List RegRow := [
  -- LEE_IDENT
  ⟨0x040, 0, 1, .whole, [⟨0, 4, .ro, 0x0, .any⟩, ⟨4, 1, .ro, 0x0, .any⟩]⟩,
  -- LEE_TALLY_CMD
  ⟨0x044, 0, 1, .whole, [⟨0, 32, .rc, 0x0, .any⟩]⟩,
  -- LEE_TALLY_ERR
  ⟨0x048, 0, 1, .whole, [⟨0, 32, .rc, 0x0, .any⟩]⟩,
  -- LEE_TALLY_SAT
  ⟨0x04C, 0, 1, .whole, [⟨0, 32, .rc, 0x0, .any⟩]⟩]

/-- Registers of a pce page (R256, R257). -/
def rowsPce : List RegRow := [
  -- PCE_IDENT
  ⟨0x040, 0, 1, .whole, [⟨0, 4, .ro, 0x0, .any⟩, ⟨4, 1, .ro, 0x0, .any⟩]⟩,
  -- PCE_TALLY_CMD
  ⟨0x044, 0, 1, .whole, [⟨0, 32, .rc, 0x0, .any⟩]⟩,
  -- PCE_TALLY_ERR
  ⟨0x048, 0, 1, .whole, [⟨0, 32, .rc, 0x0, .any⟩]⟩,
  -- PCE_TALLY_SAT
  ⟨0x04C, 0, 1, .whole, [⟨0, 32, .rc, 0x0, .any⟩]⟩,
  -- PCE_TALLY_CRCFAIL
  ⟨0x050, 0, 1, .whole, [⟨0, 32, .rc, 0x0, .any⟩]⟩]

/-- Registers of a tce page (R256, R257). -/
def rowsTce : List RegRow := [
  -- TCE_IDENT
  ⟨0x040, 0, 1, .whole, [⟨0, 4, .ro, 0x0, .any⟩, ⟨4, 1, .ro, 0x0, .any⟩]⟩,
  -- TCE_TALLY_CMD
  ⟨0x044, 0, 1, .whole, [⟨0, 32, .rc, 0x0, .any⟩]⟩,
  -- TCE_TALLY_ERR
  ⟨0x048, 0, 1, .whole, [⟨0, 32, .rc, 0x0, .any⟩]⟩,
  -- TCE_TALLY_SAT
  ⟨0x04C, 0, 1, .whole, [⟨0, 32, .rc, 0x0, .any⟩]⟩,
  -- TCE_TALLY_CB
  ⟨0x050, 0, 1, .whole, [⟨0, 32, .rc, 0x0, .any⟩]⟩,
  -- TCE_TALLY_CBFAIL
  ⟨0x054, 0, 1, .whole, [⟨0, 32, .rc, 0x0, .any⟩]⟩,
  -- TCE_TALLY_ITER
  ⟨0x058, 0, 1, .whole, [⟨0, 32, .rc, 0x0, .any⟩]⟩,
  -- TCE_TALLY_HQLOST
  ⟨0x05C, 0, 1, .whole, [⟨0, 16, .rc, 0x0, .any⟩, ⟨16, 16, .rc, 0x0, .any⟩]⟩]

/-- Registers of a hqd page (R258). -/
def rowsHqd : List RegRow := [
  -- HQD_BASE_LO
  ⟨0x040, 0, 1, .low, [⟨6, 26, .rwl, 0x0, .any⟩]⟩,
  -- HQD_BASE_HI
  ⟨0x044, 0, 1, .high, [⟨0, 16, .rwl, 0x0, .any⟩]⟩,
  -- HQD_ENTRIES
  ⟨0x048, 0, 1, .whole, [⟨0, 17, .rwl, 0x0, .range 0 65536⟩]⟩,
  -- HQD_SCAN
  ⟨0x04C, 0, 1, .whole, [⟨0, 1, .ro, 0x0, .any⟩, ⟨1, 7, .ro, 0x0, .any⟩]⟩,
  -- HQD_TALLY_LOST
  ⟨0x050, 0, 1, .whole, [⟨0, 32, .rc, 0x0, .any⟩]⟩,
  -- HQD_TALLY_MISMATCH
  ⟨0x054, 0, 1, .whole, [⟨0, 16, .rc, 0x0, .any⟩, ⟨16, 16, .rc, 0x0, .any⟩]⟩]

/-- Registers of a fabric page (R304). -/
def rowsFabric0 : List RegRow := [
  -- TFB_QSEL
  ⟨0x040, 0, 1, .whole, [⟨0, 20, .rw, 0x0, .any⟩]⟩,
  -- TFB_QCMD
  ⟨0x044, 0, 1, .whole, [⟨0, 3, .wo, 0x0, .any⟩, ⟨8, 1, .ro, 0x0, .any⟩, ⟨9, 3, .ro, 0x0, .any⟩]⟩,
  -- TFB_QCFG_LO
  ⟨0x048, 0, 1, .low, [⟨0, 32, .rw, 0x0, .any⟩]⟩,
  -- TFB_QCFG_HI
  ⟨0x04C, 0, 1, .high, [⟨0, 32, .rw, 0x0, .any⟩]⟩,
  -- TFB_QNOTE_LO
  ⟨0x050, 0, 1, .low, [⟨0, 32, .rw, 0x0, .any⟩]⟩,
  -- TFB_QNOTE_HI
  ⟨0x054, 0, 1, .high, [⟨0, 32, .rw, 0x0, .any⟩]⟩,
  -- TFB_QBODY_LO
  ⟨0x058, 0, 1, .low, [⟨0, 32, .rw, 0x0, .any⟩]⟩,
  -- TFB_QBODY_HI
  ⟨0x05C, 0, 1, .high, [⟨0, 16, .rw, 0x0, .any⟩]⟩,
  -- TFB_QSTATE
  ⟨0x060, 0, 1, .whole, [⟨0, 32, .ro, 0x0, .any⟩]⟩,
  -- TFB_READY
  ⟨0x080, 4, 16, .whole, [⟨0, 24, .ro, 0x0, .any⟩]⟩,
  -- TFB_OUTSTANDING
  ⟨0x0C0, 0, 1, .whole, [⟨0, 18, .ro, 0x0, .any⟩, ⟨18, 13, .ro, 0x0, .any⟩]⟩,
  -- TFB_TALLY_ENQ
  ⟨0x0C4, 0, 1, .whole, [⟨0, 32, .rc, 0x0, .any⟩]⟩]

/-- Registers of a fabric page (R304). -/
def rowsFabric1 : List RegRow := [
  -- TFB_TALLY_DISPATCH
  ⟨0x0C8, 0, 1, .whole, [⟨0, 32, .rc, 0x0, .any⟩]⟩,
  -- TFB_TALLY_SHED
  ⟨0x0CC, 0, 1, .whole, [⟨0, 32, .rc, 0x0, .any⟩]⟩,
  -- TFB_TALLY_DROP
  ⟨0x0D0, 0, 1, .whole, [⟨0, 32, .rc, 0x0, .any⟩]⟩,
  -- TFB_TALLY_STALL
  ⟨0x0D4, 0, 1, .whole, [⟨0, 32, .rc, 0x0, .any⟩]⟩,
  -- TFB_TALLY_EXPIRED
  ⟨0x0D8, 0, 1, .whole, [⟨0, 32, .rc, 0x0, .any⟩]⟩,
  -- TFB_TALLY_ABORT
  ⟨0x0DC, 0, 1, .whole, [⟨0, 32, .rc, 0x0, .any⟩]⟩,
  -- TFB_TALLY_DEADLOCK
  ⟨0x0E0, 0, 1, .whole, [⟨0, 32, .rc, 0x0, .any⟩]⟩,
  -- TFB_TALLY_NOTEDROP
  ⟨0x0E4, 0, 1, .whole, [⟨0, 32, .rc, 0x0, .any⟩]⟩,
  -- TFB_TALLY_PUSHDROP
  ⟨0x0E8, 0, 1, .whole, [⟨0, 32, .rc, 0x0, .any⟩]⟩,
  -- TFB_TALLY_QCBMISS
  ⟨0x0EC, 0, 1, .whole, [⟨0, 32, .rc, 0x0, .any⟩]⟩,
  -- TFB_TALLY_TRACEDROP
  ⟨0x0F0, 0, 1, .whole, [⟨0, 32, .rc, 0x0, .any⟩]⟩,
  -- TFB_TRC_CTRL
  ⟨0x100, 0, 1, .whole, [⟨0, 1, .rw, 0x0, .any⟩, ⟨1, 3, .rw, 0x0, .any⟩, ⟨4, 1, .rw, 0x0, .any⟩, ⟨5, 1, .rw, 0x0, .any⟩, ⟨6, 6, .rw, 0x0, .any⟩, ⟨16, 16, .rw, 0xFFFF, .any⟩]⟩]

/-- Registers of a fabric page (R304). -/
def rowsFabric2 : List RegRow := [
  -- TFB_TRC_QRANGE
  ⟨0x104, 0, 1, .whole, [⟨0, 16, .rw, 0x0, .any⟩, ⟨16, 16, .rw, 0xFFFF, .any⟩]⟩,
  -- TFB_TRC_REASON_LO
  ⟨0x108, 0, 1, .low, [⟨0, 32, .rw, 0xFFFFFFFF, .any⟩]⟩,
  -- TFB_TRC_REASON_HI
  ⟨0x10C, 0, 1, .high, [⟨0, 32, .rw, 0xFFFFFFFF, .any⟩]⟩]

/-- Registers of a fabric page (R304). -/
def rowsFabric : List RegRow := rowsFabric0 ++ rowsFabric1 ++ rowsFabric2

/-- Registers of a tilth page (R333, R623). -/
def rowsTilth0 : List RegRow := [
  -- TLT_PSEL
  ⟨0x040, 0, 1, .whole, [⟨0, 10, .rw, 0x0, .any⟩]⟩,
  -- TLT_PWORD
  ⟨0x044, 0, 1, .whole, [⟨0, 5, .rw, 0x0, .any⟩]⟩,
  -- TLT_PDATA
  ⟨0x048, 0, 1, .whole, [⟨0, 32, .rw, 0x0, .any⟩]⟩,
  -- TLT_PCMD
  ⟨0x04C, 0, 1, .whole, [⟨0, 2, .wo, 0x0, .any⟩, ⟨8, 1, .ro, 0x0, .any⟩, ⟨9, 3, .ro, 0x0, .any⟩]⟩,
  -- TLT_RSV
  ⟨0x050, 0, 1, .whole, [⟨0, 3, .rw, 0x0, .range 0 4⟩, ⟨4, 4, .rw, 0x0, .range 0 8⟩, ⟨8, 4, .rw, 0x0, .range 0 8⟩, ⟨12, 4, .rw, 0x0, .range 0 8⟩, ⟨16, 4, .rw, 0x0, .range 0 8⟩, ⟨20, 4, .rw, 0x0, .range 0 8⟩, ⟨24, 4, .rw, 0x0, .range 0 4⟩, ⟨28, 2, .rw, 0x0, .range 0 2⟩, ⟨30, 2, .rw, 0x0, .range 0 2⟩]⟩,
  -- TLT_CORE_MAP
  ⟨0x054, 0, 1, .whole, [⟨0, 6, .rwl, 0x10, .range 1 59⟩, ⟨8, 6, .rwl, 0x10, .any⟩]⟩,
  -- TLT_HSEL
  ⟨0x058, 0, 1, .whole, [⟨0, 32, .rw, 0x0, .any⟩]⟩,
  -- TLT_HCMD
  ⟨0x05C, 0, 1, .whole, [⟨0, 2, .wo, 0x0, .any⟩, ⟨8, 1, .ro, 0x0, .any⟩, ⟨9, 3, .ro, 0x0, .any⟩]⟩,
  -- TLT_HADDR_LO
  ⟨0x060, 0, 1, .low, [⟨0, 32, .ro, 0x0, .any⟩]⟩,
  -- TLT_HADDR_HI
  ⟨0x064, 0, 1, .high, [⟨0, 16, .ro, 0x0, .any⟩, ⟨16, 4, .ro, 0x0, .any⟩, ⟨20, 4, .ro, 0x0, .any⟩]⟩,
  -- TLT_HREFS
  ⟨0x068, 0, 1, .whole, [⟨0, 16, .ro, 0x0, .any⟩, ⟨16, 8, .ro, 0x0, .any⟩]⟩,
  -- TLT_MIGRATE_CTRL
  ⟨0x06C, 0, 1, .whole, [⟨0, 1, .rw, 0x1, .any⟩, ⟨8, 8, .rw, 0x20, .range 1 255⟩]⟩]

/-- Registers of a tilth page (R333, R623). -/
def rowsTilth1 : List RegRow := [
  -- TLT_TALLY_BIND
  ⟨0x080, 0, 1, .whole, [⟨0, 32, .rc, 0x0, .any⟩]⟩,
  -- TLT_TALLY_FREE
  ⟨0x084, 0, 1, .whole, [⟨0, 32, .rc, 0x0, .any⟩]⟩,
  -- TLT_TALLY_MIGRATE
  ⟨0x088, 0, 1, .whole, [⟨0, 32, .rc, 0x0, .any⟩]⟩,
  -- TLT_TALLY_ABANDON
  ⟨0x08C, 0, 1, .whole, [⟨0, 32, .rc, 0x0, .any⟩]⟩,
  -- TLT_TALLY_BINDWAIT
  ⟨0x090, 0, 1, .whole, [⟨0, 32, .rc, 0x0, .any⟩]⟩,
  -- TLT_TALLY_SHED
  ⟨0x094, 0, 1, .whole, [⟨0, 32, .rc, 0x0, .any⟩]⟩,
  -- TLT_TALLY_REPLACE
  ⟨0x098, 0, 1, .whole, [⟨0, 32, .rc, 0x0, .any⟩]⟩,
  -- TLT_TALLY_HFAULT
  ⟨0x09C, 0, 1, .whole, [⟨0, 32, .rc, 0x0, .any⟩]⟩]

/-- Registers of a tilth page (R333, R623). -/
def rowsTilth : List RegRow := rowsTilth0 ++ rowsTilth1

/-- Registers of a ringSys page (R359). -/
def rowsRingSys : List RegRow := [
  -- RNG_STATE
  ⟨0x040, 0, 1, .whole, [⟨0, 8, .ro, 0x0, .any⟩, ⟨8, 2, .ro, 0x0, .any⟩, ⟨10, 2, .ro, 0x0, .any⟩]⟩,
  -- RNG_FAIL_SEG
  ⟨0x044, 4, 12, .whole, [⟨0, 7, .ro, 0x0, .any⟩, ⟨7, 1, .ro, 0x0, .any⟩]⟩,
  -- RNG_TALLY_SEGFAIL
  ⟨0x080, 0, 1, .whole, [⟨0, 32, .rc, 0x0, .any⟩]⟩,
  -- RNG_TALLY_LOSTOP
  ⟨0x084, 0, 1, .whole, [⟨0, 32, .rc, 0x0, .any⟩]⟩]

/-- Registers of a stop page (R360). -/
def rowsStop : List RegRow := [
  -- RNG_STOP_ID
  ⟨0x040, 0, 1, .whole, [⟨0, 7, .ro, 0x0, .any⟩, ⟨8, 3, .ro, 0x0, .any⟩, ⟨12, 5, .ro, 0x0, .any⟩, ⟨17, 3, .ro, 0x0, .any⟩]⟩,
  -- RNG_CPACE
  ⟨0x044, 0, 1, .whole, [⟨0, 16, .ro, 0x0, .any⟩]⟩,
  -- RNG_LAST_ABORT_LO
  ⟨0x048, 0, 1, .low, [⟨0, 12, .ro, 0x0, .any⟩, ⟨12, 7, .ro, 0x0, .any⟩, ⟨19, 5, .ro, 0x0, .any⟩, ⟨24, 8, .ro, 0x0, .any⟩]⟩,
  -- RNG_LAST_ABORT_HI
  ⟨0x04C, 0, 1, .high, [⟨0, 13, .ro, 0x0, .any⟩, ⟨13, 6, .ro, 0x0, .any⟩]⟩,
  -- RNG_TALLY_INJECT
  ⟨0x060, 0, 1, .whole, [⟨0, 32, .rc, 0x0, .any⟩]⟩,
  -- RNG_TALLY_HOPRETRY
  ⟨0x064, 0, 1, .whole, [⟨0, 32, .rc, 0x0, .any⟩]⟩,
  -- RNG_TALLY_CORR
  ⟨0x068, 0, 1, .whole, [⟨0, 32, .rc, 0x0, .any⟩]⟩,
  -- RNG_TALLY_UNCORR
  ⟨0x06C, 0, 1, .whole, [⟨0, 32, .rc, 0x0, .any⟩]⟩,
  -- RNG_TALLY_CRCNAK
  ⟨0x070, 0, 1, .whole, [⟨0, 32, .rc, 0x0, .any⟩]⟩,
  -- RNG_TALLY_ABORT_TX
  ⟨0x074, 0, 1, .whole, [⟨0, 32, .rc, 0x0, .any⟩]⟩,
  -- RNG_TALLY_ABORT_RX
  ⟨0x078, 0, 1, .whole, [⟨0, 32, .rc, 0x0, .any⟩]⟩,
  -- RNG_TALLY_ABSORB
  ⟨0x07C, 0, 1, .whole, [⟨0, 32, .rc, 0x0, .any⟩]⟩]

/-- Registers of a probe page (R361). -/
def rowsProbe : List RegRow := [
  -- PRB_CTRL
  ⟨0x040, 0, 1, .whole, [⟨0, 1, .rw, 0x0, .any⟩, ⟨1, 1, .rw, 0x0, .any⟩, ⟨2, 3, .rw, 0x0, .any⟩, ⟨5, 7, .rw, 0x0, .any⟩, ⟨12, 10, .rw, 0x0, .any⟩, ⟨22, 2, .rw, 0x0, .any⟩, ⟨24, 5, .rw, 0x0, .any⟩]⟩,
  -- PRB_MATCH
  ⟨0x044, 0, 1, .whole, [⟨0, 16, .rw, 0xFFFF, .any⟩, ⟨16, 7, .rw, 0x0, .any⟩, ⟨23, 1, .rw, 0x1, .any⟩, ⟨24, 7, .rw, 0x0, .any⟩, ⟨31, 1, .rw, 0x1, .any⟩]⟩,
  -- PRB_ADDR_BASE
  ⟨0x048, 0, 1, .whole, [⟨0, 32, .rw, 0x0, .any⟩]⟩,
  -- PRB_ADDR_MASK
  ⟨0x04C, 0, 1, .whole, [⟨0, 32, .rw, 0x0, .any⟩]⟩,
  -- PRB_FLITS_LO
  ⟨0x050, 0, 1, .low, [⟨0, 32, .ro, 0x0, .any⟩]⟩,
  -- PRB_FLITS_HI
  ⟨0x054, 0, 1, .high, [⟨0, 32, .ro, 0x0, .any⟩]⟩,
  -- PRB_BYTES_LO
  ⟨0x058, 0, 1, .low, [⟨0, 32, .ro, 0x0, .any⟩]⟩,
  -- PRB_BYTES_HI
  ⟨0x05C, 0, 1, .high, [⟨0, 32, .ro, 0x0, .any⟩]⟩,
  -- PRB_TALLY_CAPDROP
  ⟨0x060, 0, 1, .whole, [⟨0, 32, .rc, 0x0, .any⟩]⟩]

/-- Registers of a memSys page (R392). -/
def rowsMemSys : List RegRow := [
  -- MEM_HBM_MAP
  ⟨0x040, 0, 1, .whole, [⟨0, 6, .rwl, 0x8, .range 0 32⟩, ⟨8, 5, .rwl, 0x1, .range 0 16⟩, ⟨16, 7, .rwl, 0x4, .range 0 64⟩]⟩,
  -- MEM_SCRUB_CTRL
  ⟨0x044, 0, 1, .whole, [⟨0, 1, .rw, 0x1, .any⟩, ⟨8, 8, .rw, 0x3C, .range 10 60⟩, ⟨16, 8, .rw, 0x18, .range 1 24⟩]⟩,
  -- MEM_RETIRE_CTRL
  ⟨0x048, 0, 1, .whole, [⟨0, 4, .rw, 0x4, .range 2 15⟩, ⟨8, 8, .rw, 0x18, .range 1 255⟩, ⟨16, 1, .rw, 0x1, .any⟩]⟩,
  -- MEM_RELOC
  ⟨0x04C, 0, 1, .whole, [⟨0, 18, .ro, 0x0, .any⟩, ⟨18, 7, .ro, 0x0, .any⟩]⟩,
  -- MEM_LAST_UNCORR_LO
  ⟨0x050, 0, 1, .low, [⟨0, 32, .ro, 0x0, .any⟩]⟩,
  -- MEM_LAST_UNCORR_HI
  ⟨0x054, 0, 1, .high, [⟨0, 16, .ro, 0x0, .any⟩, ⟨16, 4, .ro, 0x0, .any⟩, ⟨20, 1, .ro, 0x0, .any⟩]⟩,
  -- MEM_TALLY_CORR
  ⟨0x060, 0, 1, .whole, [⟨0, 32, .rc, 0x0, .any⟩]⟩,
  -- MEM_TALLY_UNCORR
  ⟨0x064, 0, 1, .whole, [⟨0, 32, .rc, 0x0, .any⟩]⟩,
  -- MEM_TALLY_POISON_WR
  ⟨0x068, 0, 1, .whole, [⟨0, 32, .rc, 0x0, .any⟩]⟩,
  -- MEM_TALLY_MIRROR_FIX
  ⟨0x06C, 0, 1, .whole, [⟨0, 32, .rc, 0x0, .any⟩]⟩]

/-- Registers of a dbBank page (R393). -/
def rowsDbBank : List RegRow := [
  -- MEM_BK_IDENT
  ⟨0x040, 0, 1, .whole, [⟨0, 2, .ro, 0x0, .any⟩, ⟨2, 7, .ro, 0x0, .any⟩, ⟨9, 7, .ro, 0x0, .any⟩]⟩,
  -- MEM_BK_ROW_CMD
  ⟨0x044, 0, 1, .whole, [⟨0, 1, .wo, 0x0, .any⟩, ⟨1, 1, .ro, 0x0, .any⟩, ⟨2, 2, .ro, 0x0, .any⟩, ⟨8, 24, .rw, 0x0, .any⟩]⟩,
  -- MEM_BK_SPARE
  ⟨0x048, 0, 1, .whole, [⟨0, 16, .ro, 0x0, .any⟩, ⟨16, 16, .ro, 0x0, .any⟩]⟩,
  -- MEM_BK_SCRUB
  ⟨0x050, 0, 1, .whole, [⟨0, 10, .ro, 0x0, .any⟩, ⟨16, 16, .ro, 0x0, .any⟩]⟩,
  -- MEM_BK_TALLY_CORR
  ⟨0x060, 0, 1, .whole, [⟨0, 32, .rc, 0x0, .any⟩]⟩,
  -- MEM_BK_TALLY_UNCORR
  ⟨0x064, 0, 1, .whole, [⟨0, 32, .rc, 0x0, .any⟩]⟩,
  -- MEM_BK_TALLY_POISON_WR
  ⟨0x068, 0, 1, .whole, [⟨0, 32, .rc, 0x0, .any⟩]⟩]

/-- Registers of a hbmPc page (R393). -/
def rowsHbmPc : List RegRow := [
  -- MEM_BK_IDENT
  ⟨0x040, 0, 1, .whole, [⟨0, 2, .ro, 0x0, .any⟩, ⟨2, 7, .ro, 0x0, .any⟩, ⟨9, 7, .ro, 0x0, .any⟩]⟩,
  -- MEM_BK_ROW_CMD
  ⟨0x044, 0, 1, .whole, [⟨0, 1, .wo, 0x0, .any⟩, ⟨1, 1, .ro, 0x0, .any⟩, ⟨2, 2, .ro, 0x0, .any⟩, ⟨8, 24, .rw, 0x0, .any⟩]⟩,
  -- MEM_BK_SPARE
  ⟨0x048, 0, 1, .whole, [⟨0, 16, .ro, 0x0, .any⟩, ⟨16, 16, .ro, 0x0, .any⟩]⟩,
  -- MEM_BK_PIN
  ⟨0x04C, 0, 1, .whole, [⟨0, 7, .ro, 0x0, .any⟩, ⟨7, 1, .ro, 0x0, .any⟩]⟩,
  -- MEM_BK_SCRUB
  ⟨0x050, 0, 1, .whole, [⟨0, 10, .ro, 0x0, .any⟩, ⟨16, 16, .ro, 0x0, .any⟩]⟩,
  -- MEM_BK_TALLY_CORR
  ⟨0x060, 0, 1, .whole, [⟨0, 32, .rc, 0x0, .any⟩]⟩,
  -- MEM_BK_TALLY_UNCORR
  ⟨0x064, 0, 1, .whole, [⟨0, 32, .rc, 0x0, .any⟩]⟩,
  -- MEM_BK_TALLY_POISON_WR
  ⟨0x068, 0, 1, .whole, [⟨0, 32, .rc, 0x0, .any⟩]⟩]

/-- Registers of a dmaCh page (R408). -/
def rowsDmaCh0 : List RegRow := [
  -- DMA_CH_CFG
  ⟨0x040, 0, 1, .whole, [⟨0, 2, .rwl, 0x0, .any⟩, ⟨2, 3, .rwl, 0x0, .any⟩, ⟨5, 1, .rwl, 0x0, .any⟩, ⟨6, 1, .rwl, 0x0, .any⟩, ⟨7, 9, .rwl, 0x0, .any⟩, ⟨16, 13, .rwl, 0x40, .any⟩]⟩,
  -- DMA_CH_SHAPE
  ⟨0x044, 0, 1, .whole, [⟨0, 2, .rwl, 0x2, .any⟩, ⟨4, 7, .rwl, 0x1, .any⟩, ⟨12, 12, .rwl, 0x1, .any⟩, ⟨24, 5, .rwl, 0x10, .any⟩]⟩,
  -- DMA_CH_PSTRIDE
  ⟨0x048, 0, 1, .whole, [⟨0, 32, .rwl, 0x0, .any⟩]⟩,
  -- DMA_CH_SRC_LO
  ⟨0x04C, 0, 1, .low, [⟨0, 32, .rwl, 0x0, .any⟩]⟩,
  -- DMA_CH_SRC_HI
  ⟨0x050, 0, 1, .high, [⟨0, 16, .rwl, 0x0, .any⟩]⟩,
  -- DMA_CH_DST_LO
  ⟨0x054, 0, 1, .low, [⟨0, 32, .rwl, 0x0, .any⟩]⟩,
  -- DMA_CH_DST_HI
  ⟨0x058, 0, 1, .high, [⟨0, 16, .rwl, 0x0, .any⟩]⟩,
  -- DMA_CH_NOTIFY
  ⟨0x05C, 0, 1, .whole, [⟨0, 20, .rwl, 0x0, .any⟩, ⟨20, 1, .rwl, 0x0, .any⟩]⟩,
  -- DMA_CH_ENQ
  ⟨0x060, 0, 1, .whole, [⟨0, 20, .rwl, 0x0, .any⟩, ⟨20, 1, .rwl, 0x0, .any⟩]⟩,
  -- DMA_CH_ENQ_DESC_LO
  ⟨0x064, 0, 1, .low, [⟨0, 32, .rwl, 0x0, .any⟩]⟩,
  -- DMA_CH_ENQ_DESC_HI
  ⟨0x068, 0, 1, .high, [⟨0, 16, .rwl, 0x0, .any⟩]⟩,
  -- DMA_CH_CMD
  ⟨0x06C, 0, 1, .whole, [⟨0, 3, .wo, 0x0, .any⟩]⟩]

/-- Registers of a dmaCh page (R408). -/
def rowsDmaCh1 : List RegRow := [
  -- DMA_CH_STATUS
  ⟨0x070, 0, 1, .whole, [⟨0, 3, .ro, 0x0, .any⟩, ⟨8, 4, .ro, 0x0, .any⟩, ⟨12, 5, .ro, 0x0, .any⟩]⟩,
  -- DMA_CH_POS
  ⟨0x074, 0, 1, .whole, [⟨0, 16, .ro, 0x0, .any⟩, ⟨16, 16, .ro, 0x0, .any⟩]⟩,
  -- DMA_CH_FAIL_LO
  ⟨0x078, 0, 1, .low, [⟨0, 32, .ro, 0x0, .any⟩]⟩,
  -- DMA_CH_FAIL_HI
  ⟨0x07C, 0, 1, .high, [⟨0, 16, .ro, 0x0, .any⟩]⟩,
  -- DMA_CH_TALLY_BURST
  ⟨0x080, 0, 1, .whole, [⟨0, 32, .rc, 0x0, .any⟩]⟩,
  -- DMA_CH_TALLY_LINEFULL
  ⟨0x084, 0, 1, .whole, [⟨0, 32, .rc, 0x0, .any⟩]⟩,
  -- DMA_CH_TALLY_POISONWR
  ⟨0x088, 0, 1, .whole, [⟨0, 32, .rc, 0x0, .any⟩]⟩,
  -- DMA_CH_TALLY_HALT
  ⟨0x08C, 0, 1, .whole, [⟨0, 32, .rc, 0x0, .any⟩]⟩,
  -- DMA_CH_TALLY_SAT
  ⟨0x090, 0, 1, .whole, [⟨0, 32, .rc, 0x0, .any⟩]⟩]

/-- Registers of a dmaCh page (R408). -/
def rowsDmaCh : List RegRow := rowsDmaCh0 ++ rowsDmaCh1

/-- Registers of a lane page (R436). -/
def rowsLane0 : List RegRow := [
  -- LN_CFG
  ⟨0x040, 0, 1, .whole, [⟨0, 4, .rwl, 0x8, .any⟩, ⟨4, 1, .rwl, 0x0, .any⟩, ⟨5, 1, .rwl, 0x0, .any⟩, ⟨6, 6, .rwl, 0x0, .any⟩, ⟨12, 2, .rwl, 0x2, .any⟩, ⟨14, 2, .rw, 0x0, .range 0 2⟩]⟩,
  -- LN_TXEQ
  ⟨0x044, 0, 1, .whole, [⟨0, 32, .rwl, 0x0, .any⟩]⟩,
  -- LN_RXEQ
  ⟨0x048, 0, 1, .whole, [⟨0, 32, .rwl, 0x0, .any⟩]⟩,
  -- LN_RXFFE0
  ⟨0x04C, 0, 1, .whole, [⟨0, 32, .rwl, 0x0, .any⟩]⟩,
  -- LN_RXFFE1
  ⟨0x050, 0, 1, .whole, [⟨0, 32, .rwl, 0x0, .any⟩]⟩,
  -- LN_RXFFE2
  ⟨0x054, 0, 1, .whole, [⟨0, 32, .rwl, 0x0, .any⟩]⟩,
  -- LN_SLEEP
  ⟨0x058, 0, 1, .whole, [⟨0, 1, .rw, 0x0, .any⟩, ⟨1, 1, .rw, 0x0, .any⟩, ⟨2, 1, .ro, 0x0, .any⟩, ⟨3, 1, .ro, 0x0, .any⟩, ⟨4, 1, .ro, 0x0, .any⟩]⟩,
  -- LN_ALIGN
  ⟨0x05C, 0, 1, .whole, [⟨0, 1, .wo, 0x0, .any⟩, ⟨1, 1, .ro, 0x0, .any⟩, ⟨2, 1, .ro, 0x0, .any⟩, ⟨3, 1, .w1c, 0x0, .any⟩, ⟨4, 7, .ro, 0x0, .any⟩, ⟨16, 12, .ro, 0x0, .any⟩]⟩,
  -- LN_LAT_TX
  ⟨0x060, 0, 1, .whole, [⟨0, 20, .ro, 0x0, .any⟩]⟩,
  -- LN_LAT_RX
  ⟨0x064, 0, 1, .whole, [⟨0, 20, .ro, 0x0, .any⟩]⟩,
  -- LN_RECAL
  ⟨0x068, 0, 1, .whole, [⟨0, 1, .wo, 0x0, .any⟩, ⟨1, 1, .wo, 0x0, .any⟩, ⟨2, 1, .ro, 0x0, .any⟩, ⟨3, 1, .w1c, 0x0, .any⟩, ⟨4, 2, .ro, 0x0, .any⟩, ⟨16, 16, .ro, 0x0, .any⟩]⟩,
  -- LN_EYE_CTRL
  ⟨0x06C, 0, 1, .whole, [⟨0, 1, .wo, 0x0, .any⟩, ⟨1, 1, .ro, 0x0, .any⟩, ⟨2, 2, .rw, 0x1, .range 0 2⟩, ⟨4, 8, .rw, 0x0, .any⟩, ⟨12, 8, .rw, 0x0, .any⟩, ⟨20, 5, .rw, 0x14, .range 10 31⟩]⟩]

/-- Registers of a lane page (R436). -/
def rowsLane1 : List RegRow := [
  -- LN_EYE_COUNT
  ⟨0x070, 0, 1, .whole, [⟨0, 32, .ro, 0x0, .any⟩]⟩,
  -- LN_SWEEP_LIST_LO
  ⟨0x074, 0, 1, .low, [⟨0, 32, .rwl, 0x0, .aligned 4⟩]⟩,
  -- LN_SWEEP_LIST_HI
  ⟨0x078, 0, 1, .high, [⟨0, 16, .rwl, 0x0, .any⟩]⟩,
  -- LN_SWEEP_RES_LO
  ⟨0x07C, 0, 1, .low, [⟨0, 32, .rwl, 0x0, .aligned 4⟩]⟩,
  -- LN_SWEEP_RES_HI
  ⟨0x080, 0, 1, .high, [⟨0, 16, .rwl, 0x0, .any⟩]⟩,
  -- LN_SWEEP_CTRL
  ⟨0x084, 0, 1, .whole, [⟨0, 1, .wo, 0x0, .any⟩, ⟨1, 1, .ro, 0x0, .any⟩, ⟨2, 10, .rw, 0x1, .range 1 1023⟩]⟩,
  -- LN_TEST
  ⟨0x088, 0, 1, .whole, [⟨0, 3, .rw, 0x0, .range 0 4⟩, ⟨3, 3, .rw, 0x0, .range 0 4⟩, ⟨6, 1, .ro, 0x0, .any⟩]⟩,
  -- LN_PRBS_ERR
  ⟨0x090, 0, 1, .whole, [⟨0, 32, .rc, 0x0, .any⟩]⟩,
  -- LN_TALLY_ALIGNLOST
  ⟨0x094, 0, 1, .whole, [⟨0, 32, .rc, 0x0, .any⟩]⟩,
  -- LN_TALLY_RXSLEEP
  ⟨0x098, 0, 1, .whole, [⟨0, 32, .rc, 0x0, .any⟩]⟩,
  -- LN_TALLY_CDRLOSS
  ⟨0x09C, 0, 1, .whole, [⟨0, 32, .rc, 0x0, .any⟩]⟩]

/-- Registers of a lane page (R436). -/
def rowsLane : List RegRow := rowsLane0 ++ rowsLane1

/-- Registers of a laneGroup page (R435, R481). -/
def rowsLaneGroup0 : List RegRow := [
  -- LNG_REF
  ⟨0x040, 0, 1, .whole, [⟨0, 3, .rwl, 0x2, .any⟩, ⟨8, 4, .rwl, 0x8, .any⟩, ⟨12, 4, .rwl, 0x3, .any⟩, ⟨16, 1, .ro, 0x0, .any⟩, ⟨17, 1, .ro, 0x0, .any⟩, ⟨18, 1, .ro, 0x0, .any⟩]⟩,
  -- LNG_TABLE_ID
  ⟨0x044, 0, 1, .whole, [⟨0, 32, .rwl, 0x0, .any⟩]⟩,
  -- LNG_SCHED_CTRL
  ⟨0x048, 0, 1, .whole, [⟨0, 1, .rw, 0x0, .any⟩, ⟨1, 1, .rw, 0x0, .any⟩, ⟨2, 1, .wo, 0x0, .any⟩, ⟨3, 1, .wo, 0x0, .any⟩, ⟨4, 1, .ro, 0x0, .any⟩, ⟨5, 1, .ro, 0x0, .any⟩, ⟨6, 2, .ro, 0x0, .any⟩]⟩,
  -- LNG_SCHED0_BASE_LO
  ⟨0x060, 0, 1, .low, [⟨0, 32, .rw, 0x0, .any⟩]⟩,
  -- LNG_SCHED0_BASE_HI
  ⟨0x064, 0, 1, .high, [⟨0, 32, .rw, 0x0, .any⟩]⟩,
  -- LNG_SCHED0_PERIOD
  ⟨0x068, 0, 1, .whole, [⟨0, 32, .rw, 0x0, .any⟩]⟩,
  -- LNG_SCHED0_WIN0_START
  ⟨0x06C, 0, 1, .whole, [⟨0, 32, .rw, 0x0, .any⟩]⟩,
  -- LNG_SCHED0_WIN0_END
  ⟨0x070, 0, 1, .whole, [⟨0, 32, .rw, 0x0, .any⟩]⟩,
  -- LNG_SCHED0_WIN1_START
  ⟨0x074, 0, 1, .whole, [⟨0, 32, .rw, 0x0, .any⟩]⟩,
  -- LNG_SCHED0_WIN1_END
  ⟨0x078, 0, 1, .whole, [⟨0, 32, .rw, 0x0, .any⟩]⟩,
  -- LNG_SCHED0_WIN2_START
  ⟨0x07C, 0, 1, .whole, [⟨0, 32, .rw, 0x0, .any⟩]⟩,
  -- LNG_SCHED1_BASE_LO
  ⟨0x080, 0, 1, .low, [⟨0, 32, .rw, 0x0, .any⟩]⟩]

/-- Registers of a laneGroup page (R435, R481). -/
def rowsLaneGroup1 : List RegRow := [
  -- LNG_SCHED1_BASE_HI
  ⟨0x084, 0, 1, .high, [⟨0, 32, .rw, 0x0, .any⟩]⟩,
  -- LNG_SCHED1_PERIOD
  ⟨0x088, 0, 1, .whole, [⟨0, 32, .rw, 0x0, .any⟩]⟩,
  -- LNG_SCHED1_WIN0_START
  ⟨0x08C, 0, 1, .whole, [⟨0, 32, .rw, 0x0, .any⟩]⟩,
  -- LNG_SCHED1_WIN0_END
  ⟨0x090, 0, 1, .whole, [⟨0, 32, .rw, 0x0, .any⟩]⟩,
  -- LNG_SCHED1_WIN1_START
  ⟨0x094, 0, 1, .whole, [⟨0, 32, .rw, 0x0, .any⟩]⟩,
  -- LNG_SCHED1_WIN1_END
  ⟨0x098, 0, 1, .whole, [⟨0, 32, .rw, 0x0, .any⟩]⟩,
  -- LNG_SCHED1_WIN2_START
  ⟨0x09C, 0, 1, .whole, [⟨0, 32, .rw, 0x0, .any⟩]⟩,
  -- LNG_SCHED1_WIN2_END
  ⟨0x0A0, 0, 1, .whole, [⟨0, 32, .rw, 0x0, .any⟩]⟩,
  -- LNG_SCHED1_WIN3_START
  ⟨0x0A4, 0, 1, .whole, [⟨0, 32, .rw, 0x0, .any⟩]⟩,
  -- LNG_SCHED1_WIN3_END
  ⟨0x0A8, 0, 1, .whole, [⟨0, 32, .rw, 0x0, .any⟩]⟩,
  -- LNG_CPRI
  ⟨0x0C0, 8, 4, .whole, [⟨0, 1, .rw, 0x0, .any⟩, ⟨1, 1, .rw, 0x0, .any⟩, ⟨2, 3, .rw, 0x0, .any⟩, ⟨5, 7, .rw, 0x0, .any⟩, ⟨12, 5, .rw, 0x1, .range 1 16⟩, ⟨17, 5, .rw, 0xF, .range 8 16⟩]⟩,
  -- LNG_CPRI_BURST
  ⟨0x0C4, 8, 4, .whole, [⟨0, 13, .rw, 0x1000, .range 64 4096⟩]⟩]

/-- Registers of a laneGroup page (R435, R481). -/
def rowsLaneGroup : List RegRow := rowsLaneGroup0 ++ rowsLaneGroup1

/-- Registers of a port page (R480). -/
def rowsPort0 : List RegRow := [
  -- PORT_CFG
  ⟨0x040, 0, 1, .whole, [⟨0, 3, .rwl, 0x0, .any⟩, ⟨3, 2, .rwl, 0x0, .any⟩, ⟨5, 4, .rwl, 0x0, .any⟩, ⟨9, 14, .rwl, 0x5EE, .any⟩, ⟨23, 3, .rwl, 0x0, .any⟩, ⟨26, 6, .rwl, 0x0, .any⟩]⟩,
  -- PORT_MAC_LO
  ⟨0x044, 0, 1, .low, [⟨0, 32, .rwl, 0x0, .any⟩]⟩,
  -- PORT_MAC_HI
  ⟨0x048, 0, 1, .high, [⟨0, 16, .rwl, 0x0, .any⟩]⟩,
  -- PORT_EQ
  ⟨0x050, 4, 8, .whole, [⟨0, 16, .rw, 0x0, .any⟩, ⟨16, 16, .rw, 0x100, .any⟩]⟩,
  -- PORT_STATUS
  ⟨0x070, 0, 1, .whole, [⟨0, 1, .ro, 0x0, .any⟩, ⟨1, 1, .ro, 0x0, .any⟩, ⟨2, 1, .ro, 0x0, .any⟩, ⟨3, 1, .ro, 0x0, .any⟩]⟩,
  -- PORT_CPRI_RTT
  ⟨0x074, 0, 1, .whole, [⟨0, 24, .ro, 0x0, .any⟩]⟩,
  -- PORT_TALLY_RX
  ⟨0x080, 0, 1, .whole, [⟨0, 32, .rc, 0x0, .any⟩]⟩,
  -- PORT_TALLY_TX
  ⟨0x084, 0, 1, .whole, [⟨0, 32, .rc, 0x0, .any⟩]⟩,
  -- PORT_TALLY_BAD
  ⟨0x088, 0, 1, .whole, [⟨0, 32, .rc, 0x0, .any⟩]⟩,
  -- PORT_TALLY_NOFRAMER
  ⟨0x08C, 0, 1, .whole, [⟨0, 32, .rc, 0x0, .any⟩]⟩,
  -- PORT_TALLY_OTHER
  ⟨0x090, 0, 1, .whole, [⟨0, 32, .rc, 0x0, .any⟩]⟩,
  -- PORT_TALLY_FECCORR
  ⟨0x094, 0, 1, .whole, [⟨0, 32, .rc, 0x0, .any⟩]⟩]

/-- Registers of a port page (R480). -/
def rowsPort1 : List RegRow := [
  -- PORT_TALLY_FECUNCORR
  ⟨0x098, 0, 1, .whole, [⟨0, 32, .rc, 0x0, .any⟩]⟩,
  -- PORT_TALLY_UNDERRUN
  ⟨0x09C, 0, 1, .whole, [⟨0, 32, .rc, 0x0, .any⟩]⟩]

/-- Registers of a port page (R480). -/
def rowsPort : List RegRow := rowsPort0 ++ rowsPort1

/-- Registers of a rvLink page (R484). -/
def rowsRvLink0 : List RegRow := [
  -- RV_CFG
  ⟨0x040, 0, 1, .whole, [⟨0, 1, .rwl, 0x0, .any⟩, ⟨8, 8, .rwl, 0x0, .any⟩]⟩,
  -- RV_STATE
  ⟨0x044, 0, 1, .whole, [⟨0, 2, .ro, 0x0, .any⟩, ⟨2, 1, .ro, 0x0, .any⟩, ⟨3, 4, .ro, 0x0, .any⟩, ⟨8, 8, .ro, 0x0, .any⟩]⟩,
  -- RV_PEER_ID_LO
  ⟨0x048, 0, 1, .low, [⟨0, 32, .ro, 0x0, .any⟩]⟩,
  -- RV_PEER_ID_HI
  ⟨0x04C, 0, 1, .high, [⟨0, 32, .ro, 0x0, .any⟩]⟩,
  -- RV_SWAP
  ⟨0x050, 0, 1, .whole, [⟨0, 1, .wo, 0x0, .any⟩, ⟨1, 1, .ro, 0x0, .any⟩, ⟨2, 2, .ro, 0x0, .any⟩]⟩,
  -- RV_TIMERS
  ⟨0x054, 0, 1, .whole, [⟨0, 16, .rw, 0xF00, .any⟩]⟩,
  -- RV_TSEL
  ⟨0x058, 0, 1, .whole, [⟨0, 8, .rw, 0x0, .any⟩, ⟨8, 2, .rw, 0x0, .any⟩, ⟨10, 3, .rw, 0x0, .any⟩]⟩,
  -- RV_TDATA
  ⟨0x05C, 0, 1, .whole, [⟨0, 32, .rw, 0x0, .any⟩]⟩,
  -- RV_TCMD
  ⟨0x060, 0, 1, .whole, [⟨0, 2, .wo, 0x0, .any⟩, ⟨2, 1, .ro, 0x0, .any⟩, ⟨3, 2, .ro, 0x0, .any⟩]⟩,
  -- RV_TALLY_REPLAY
  ⟨0x080, 0, 1, .whole, [⟨0, 32, .rc, 0x0, .any⟩]⟩,
  -- RV_TALLY_CRC
  ⟨0x084, 0, 1, .whole, [⟨0, 32, .rc, 0x0, .any⟩]⟩,
  -- RV_TALLY_SILTDEL
  ⟨0x088, 0, 1, .whole, [⟨0, 32, .rc, 0x0, .any⟩]⟩]

/-- Registers of a rvLink page (R484). -/
def rowsRvLink1 : List RegRow := [
  -- RV_TALLY_SILTINS
  ⟨0x08C, 0, 1, .whole, [⟨0, 32, .rc, 0x0, .any⟩]⟩,
  -- RV_TALLY_LANECHG
  ⟨0x090, 0, 1, .whole, [⟨0, 32, .rc, 0x0, .any⟩]⟩,
  -- RV_TALLY_MIRRORDROP
  ⟨0x094, 0, 1, .whole, [⟨0, 32, .rc, 0x0, .any⟩]⟩,
  -- RV_TALLY_INREJECT
  ⟨0x098, 0, 1, .whole, [⟨0, 32, .rc, 0x0, .any⟩]⟩]

/-- Registers of a rvLink page (R484). -/
def rowsRvLink : List RegRow := rowsRvLink0 ++ rowsRvLink1

/-- Registers of a framer page (R482). -/
def rowsFramer0 : List RegRow := [
  -- FRM_IDENT
  ⟨0x040, 0, 1, .whole, [⟨0, 4, .ro, 0x0, .any⟩, ⟨4, 1, .ro, 0x0, .any⟩]⟩,
  -- FRM_TSEL
  ⟨0x044, 0, 1, .whole, [⟨0, 8, .rw, 0x0, .any⟩, ⟨8, 1, .rw, 0x0, .any⟩, ⟨9, 4, .rw, 0x0, .any⟩]⟩,
  -- FRM_TDATA
  ⟨0x048, 0, 1, .whole, [⟨0, 32, .rw, 0x0, .any⟩]⟩,
  -- FRM_TCMD
  ⟨0x04C, 0, 1, .whole, [⟨0, 3, .wo, 0x0, .any⟩, ⟨3, 1, .ro, 0x0, .any⟩, ⟨4, 2, .ro, 0x0, .any⟩]⟩,
  -- FRM_RING_LO
  ⟨0x050, 0, 1, .low, [⟨0, 32, .rwl, 0x0, .aligned 11⟩]⟩,
  -- FRM_RING_HI
  ⟨0x054, 0, 1, .high, [⟨0, 16, .rwl, 0x0, .any⟩]⟩,
  -- FRM_RING_SIZE
  ⟨0x058, 0, 1, .whole, [⟨0, 12, .rwl, 0x0, .any⟩, ⟨16, 12, .ro, 0x0, .any⟩]⟩,
  -- FRM_EARLY
  ⟨0x05C, 0, 1, .whole, [⟨0, 24, .rw, 0x10000, .any⟩]⟩,
  -- FRM_OWD
  ⟨0x060, 0, 1, .whole, [⟨0, 32, .ro, 0x0, .any⟩]⟩,
  -- FRM_TALLY_RX
  ⟨0x080, 0, 1, .whole, [⟨0, 32, .rc, 0x0, .any⟩]⟩,
  -- FRM_TALLY_NOFLOW
  ⟨0x084, 0, 1, .whole, [⟨0, 32, .rc, 0x0, .any⟩]⟩,
  -- FRM_TALLY_LATE
  ⟨0x088, 0, 1, .whole, [⟨0, 32, .rc, 0x0, .any⟩]⟩]

/-- Registers of a framer page (R482). -/
def rowsFramer1 : List RegRow := [
  -- FRM_TALLY_EARLYDROP
  ⟨0x08C, 0, 1, .whole, [⟨0, 32, .rc, 0x0, .any⟩]⟩,
  -- FRM_TALLY_UNSUPPORTED
  ⟨0x090, 0, 1, .whole, [⟨0, 32, .rc, 0x0, .any⟩]⟩,
  -- FRM_TALLY_STALE
  ⟨0x094, 0, 1, .whole, [⟨0, 32, .rc, 0x0, .any⟩]⟩,
  -- FRM_TALLY_MISSED
  ⟨0x098, 0, 1, .whole, [⟨0, 32, .rc, 0x0, .any⟩]⟩]

/-- Registers of a framer page (R482). -/
def rowsFramer : List RegRow := rowsFramer0 ++ rowsFramer1

/-- Registers of a timeBase page (R483). -/
def rowsTimeBase0 : List RegRow := [
  -- TB_CTRL
  ⟨0x040, 0, 1, .whole, [⟨0, 3, .rwl, 0x0, .any⟩, ⟨3, 1, .rw, 0x0, .any⟩, ⟨4, 1, .ro, 0x0, .any⟩, ⟨5, 10, .rw, 0x64, .range 1 1000⟩]⟩,
  -- TB_AIRTIME_LO
  ⟨0x044, 0, 1, .low, [⟨0, 32, .ro, 0x0, .any⟩]⟩,
  -- TB_AIRTIME_HI
  ⟨0x048, 0, 1, .high, [⟨0, 32, .ro, 0x0, .any⟩]⟩,
  -- TB_FREQ
  ⟨0x04C, 0, 1, .whole, [⟨0, 32, .rw, 0x0, .any⟩]⟩,
  -- TB_SLEW
  ⟨0x050, 0, 1, .whole, [⟨0, 32, .wo, 0x0, .any⟩]⟩,
  -- TB_STEP_LO
  ⟨0x054, 0, 1, .low, [⟨0, 32, .wo, 0x0, .any⟩]⟩,
  -- TB_STEP_HI
  ⟨0x058, 0, 1, .high, [⟨0, 32, .wo, 0x0, .any⟩]⟩,
  -- TB_PPS_IN_LO
  ⟨0x05C, 0, 1, .low, [⟨0, 32, .ro, 0x0, .any⟩]⟩,
  -- TB_PPS_IN_HI
  ⟨0x060, 0, 1, .high, [⟨0, 32, .ro, 0x0, .any⟩]⟩,
  -- TB_PPS_OUT
  ⟨0x064, 0, 1, .whole, [⟨0, 31, .rw, 0x0, .range 0 1966079999⟩, ⟨31, 1, .rw, 0x0, .any⟩]⟩,
  -- TB_PPS_WIDTH
  ⟨0x068, 0, 1, .whole, [⟨0, 8, .rw, 0x64, .range 1 200⟩]⟩,
  -- TB_TOD_CTRL
  ⟨0x06C, 0, 1, .whole, [⟨0, 1, .rw, 0x0, .any⟩, ⟨1, 1, .rw, 0x0, .any⟩]⟩]

/-- Registers of a timeBase page (R483). -/
def rowsTimeBase1 : List RegRow := [
  -- TB_TOD_RX_LO
  ⟨0x070, 0, 1, .low, [⟨0, 32, .ro, 0x0, .any⟩]⟩,
  -- TB_TOD_RX_HI
  ⟨0x074, 0, 1, .high, [⟨0, 32, .ro, 0x0, .any⟩]⟩,
  -- TB_SYNCE
  ⟨0x078, 4, 2, .whole, [⟨0, 6, .rw, 0x0, .any⟩, ⟨6, 1, .rw, 0x0, .any⟩, ⟨7, 1, .rw, 0x0, .any⟩]⟩,
  -- TB_PTP_RX_LO
  ⟨0x080, 0, 1, .low, [⟨0, 32, .rwl, 0x0, .aligned 11⟩]⟩,
  -- TB_PTP_RX_HI
  ⟨0x084, 0, 1, .high, [⟨0, 32, .rwl, 0x0, .any⟩]⟩,
  -- TB_PTP_TX_LO
  ⟨0x088, 0, 1, .low, [⟨0, 32, .rwl, 0x0, .aligned 11⟩]⟩,
  -- TB_PTP_TX_HI
  ⟨0x08C, 0, 1, .high, [⟨0, 32, .rwl, 0x0, .any⟩]⟩,
  -- TB_PTP_SIZE
  ⟨0x090, 0, 1, .whole, [⟨0, 12, .rwl, 0x0, .any⟩, ⟨16, 12, .rwl, 0x0, .any⟩]⟩,
  -- TB_PTP_TX_TAIL
  ⟨0x094, 0, 1, .whole, [⟨0, 12, .rw, 0x0, .any⟩]⟩,
  -- TB_TALLY_PTPDROP
  ⟨0x098, 0, 1, .whole, [⟨0, 32, .rc, 0x0, .any⟩]⟩,
  -- TB_TREQ_BASE_LO
  ⟨0x100, 16, 20, .low, [⟨0, 32, .rw, 0x0, .any⟩]⟩,
  -- TB_TREQ_BASE_HI
  ⟨0x104, 16, 20, .high, [⟨0, 32, .rw, 0x0, .any⟩]⟩]

/-- Registers of a timeBase page (R483). -/
def rowsTimeBase2 : List RegRow := [
  -- TB_TREQ_PERIOD
  ⟨0x108, 16, 20, .whole, [⟨0, 31, .rw, 0x0, .any⟩, ⟨31, 1, .rw, 0x0, .any⟩]⟩,
  -- GEN_CFG
  ⟨0x400, 32, 64, .whole, [⟨0, 2, .rw, 0x1, .any⟩, ⟨2, 1, .rw, 0x0, .any⟩, ⟨3, 1, .rw, 0x0, .any⟩, ⟨4, 1, .rw, 0x0, .any⟩]⟩,
  -- GEN_FRAME_OFFSET
  ⟨0x404, 32, 64, .whole, [⟨0, 25, .rw, 0x0, .range 0 19660799⟩]⟩,
  -- GEN_LEAD
  ⟨0x408, 32, 64, .whole, [⟨0, 25, .rw, 0x0, .range 0 19660800⟩]⟩,
  -- GEN_SLOTMASK0
  ⟨0x40C, 32, 64, .whole, [⟨0, 32, .rw, 0x0, .any⟩]⟩,
  -- GEN_SLOTMASK1
  ⟨0x410, 32, 64, .whole, [⟨0, 32, .rw, 0x0, .any⟩]⟩,
  -- GEN_SLOTMASK2
  ⟨0x414, 32, 64, .whole, [⟨0, 32, .rw, 0x0, .any⟩]⟩,
  -- GEN_SYMMASK
  ⟨0x418, 32, 64, .whole, [⟨0, 14, .rw, 0x0, .any⟩]⟩]

/-- Registers of a timeBase page (R483). -/
def rowsTimeBase : List RegRow := rowsTimeBase0 ++ rowsTimeBase1 ++ rowsTimeBase2

/-- Registers of a power page (R542). -/
def rowsPower : List RegRow := [
  -- PWR_INPUT
  ⟨0x040, 0, 1, .whole, [⟨0, 16, .ro, 0x0, .any⟩, ⟨16, 16, .ro, 0x0, .any⟩]⟩,
  -- PWR_TALLY_PHASEOPEN
  ⟨0x044, 0, 1, .whole, [⟨0, 32, .rc, 0x0, .any⟩]⟩,
  -- PWR_TALLY_SENSEFAIL
  ⟨0x048, 0, 1, .whole, [⟨0, 32, .rc, 0x0, .any⟩]⟩,
  -- PWR_TALLY_DERATE
  ⟨0x04C, 0, 1, .whole, [⟨0, 32, .rc, 0x0, .any⟩]⟩]

/-- Registers of a octant page (R543). -/
def rowsOctant : List RegRow := [
  -- PWR_OCT_STATE
  ⟨0x040, 0, 1, .whole, [⟨0, 4, .ro, 0x8, .any⟩, ⟨4, 4, .ro, 0x8, .any⟩, ⟨8, 2, .ro, 0x0, .any⟩, ⟨10, 1, .ro, 0x0, .any⟩, ⟨11, 1, .ro, 0x0, .any⟩]⟩,
  -- PWR_OCT_VOLT
  ⟨0x044, 0, 1, .whole, [⟨0, 10, .ro, 0x0, .any⟩, ⟨16, 10, .ro, 0x0, .any⟩]⟩,
  -- PWR_OCT_CURR
  ⟨0x048, 0, 1, .whole, [⟨0, 16, .ro, 0x0, .any⟩, ⟨16, 16, .rc, 0x0, .any⟩]⟩,
  -- PWR_OCT_PHASE
  ⟨0x04C, 0, 1, .whole, [⟨0, 16, .ro, 0x0, .any⟩]⟩]

/-- Registers of a thermal page (R544). -/
def rowsThermal : List RegRow := [
  -- THM_CTRL
  ⟨0x040, 0, 1, .whole, [⟨0, 8, .rw, 0x64, .range 60 105⟩, ⟨8, 1, .ro, 0x0, .any⟩]⟩,
  -- THM_TJ
  ⟨0x044, 0, 1, .whole, [⟨0, 16, .ro, 0x0, .any⟩, ⟨16, 16, .rc, 0x0, .any⟩]⟩,
  -- THM_OCT
  ⟨0x048, 4, 8, .whole, [⟨0, 16, .ro, 0x0, .any⟩]⟩,
  -- THM_HBM
  ⟨0x068, 4, 4, .whole, [⟨0, 8, .ro, 0x0, .any⟩]⟩]

/-- Registers of a kaolin page (R587). -/
def rowsKaolin : List RegRow := [
  -- KLN_LOCK
  ⟨0x040, 0, 1, .whole, [⟨0, 1, .wo, 0x0, .any⟩, ⟨1, 1, .wo, 0x0, .any⟩, ⟨2, 2, .ro, 0x0, .any⟩, ⟨4, 1, .ro, 0x0, .any⟩]⟩,
  -- KLN_CMD
  ⟨0x044, 0, 1, .whole, [⟨0, 3, .rw, 0x0, .any⟩, ⟨3, 1, .rw, 0x0, .any⟩, ⟨4, 2, .rw, 0x0, .any⟩, ⟨6, 1, .rw, 0x0, .any⟩, ⟨7, 6, .rw, 0x0, .any⟩, ⟨13, 1, .rw, 0x0, .any⟩]⟩,
  -- KLN_LABEL
  ⟨0x048, 4, 8, .whole, [⟨0, 32, .rw, 0x0, .any⟩]⟩,
  -- KLN_TWEAK_LO
  ⟨0x068, 0, 1, .low, [⟨0, 32, .rw, 0x0, .any⟩]⟩,
  -- KLN_TWEAK_HI
  ⟨0x06C, 0, 1, .high, [⟨0, 32, .rw, 0x0, .any⟩]⟩,
  -- KLN_LEN
  ⟨0x070, 0, 1, .whole, [⟨0, 20, .rw, 0x0, .any⟩]⟩,
  -- KLN_SRAM_ADDR
  ⟨0x074, 0, 1, .whole, [⟨0, 20, .rw, 0x0, .any⟩]⟩,
  -- KLN_GO
  ⟨0x078, 0, 1, .whole, [⟨0, 1, .wo, 0x0, .any⟩]⟩,
  -- KLN_STATUS
  ⟨0x07C, 0, 1, .whole, [⟨0, 1, .ro, 0x0, .any⟩, ⟨1, 3, .ro, 0x0, .any⟩]⟩,
  -- KLN_TAG
  ⟨0x080, 4, 4, .whole, [⟨0, 32, .rw, 0x0, .any⟩]⟩,
  -- KLN_TALLY_LOCKLOST
  ⟨0x090, 0, 1, .whole, [⟨0, 32, .rc, 0x0, .any⟩]⟩,
  -- KLN_DATA
  ⟨0x800, 4, 512, .whole, [⟨0, 32, .rw, 0x0, .any⟩]⟩]

/-- Registers of a sediment page (R587). -/
def rowsSediment : List RegRow := [
  -- SED_RING_LO
  ⟨0x080, 16, 8, .low, [⟨0, 32, .rw, 0x0, .aligned 12⟩]⟩,
  -- SED_RING_HI
  ⟨0x084, 16, 8, .high, [⟨0, 16, .rw, 0x0, .any⟩]⟩,
  -- SED_RING_CFG
  ⟨0x088, 16, 8, .whole, [⟨0, 5, .rw, 0xC, .range 7 24⟩, ⟨5, 1, .rw, 0x0, .any⟩, ⟨6, 1, .rw, 0x0, .any⟩]⟩,
  -- SED_RING_PTR
  ⟨0x08C, 16, 8, .whole, [⟨0, 24, .ro, 0x0, .any⟩, ⟨24, 8, .ro, 0x0, .any⟩]⟩,
  -- SED_RING_TAIL
  ⟨0x100, 4, 8, .whole, [⟨0, 24, .rw, 0x0, .any⟩]⟩]

/-- The registers of a page after its common header (R504). -/
def rowsOf : PageKind → List RegRow
  | .device => rowsDevice
  | .ward => rowsWard
  | .hif => rowsHif
  | .fnPage => rowsFnPage
  | .coreCtl => rowsCoreCtl
  | .coreDbg => rowsCoreDbg
  | .clod => rowsClod
  | .bfe => rowsBfe ++ rowsImage
  | .dte => rowsDte ++ rowsImage
  | .tfe => rowsTfe ++ rowsImage
  | .fdc => rowsFdc ++ rowsImage
  | .lde => rowsLde ++ rowsImage
  | .lee => rowsLee ++ rowsImage
  | .pce => rowsPce ++ rowsImage
  | .tce => rowsTce ++ rowsImage
  | .hqd => rowsHqd
  | .fabric => rowsFabric
  | .tilth => rowsTilth
  | .ringSys => rowsRingSys
  | .stop => rowsStop
  | .probe => rowsProbe
  | .memSys => rowsMemSys
  | .dbBank => rowsDbBank
  | .hbmPc => rowsHbmPc
  | .dmaCh => rowsDmaCh
  | .dmaUnit => rowsImage
  | .lane => rowsLane
  | .laneGroup => rowsLaneGroup
  | .port => rowsPort
  | .rvLink => rowsRvLink
  | .framer => rowsFramer ++ rowsImage
  | .timeBase => rowsTimeBase
  | .power => rowsPower
  | .octant => rowsOctant
  | .thermal => rowsThermal
  | .kaolin => rowsKaolin
  | .sediment => rowsSediment
  | .telemetry => []

end Sys2Proof.Machine
end

