-- ==== Sys2Proof/Machine/StateDma.lean ====
section
/-!
DEFINITION. Sys2Proof/Machine/StateDma.lean: what the DMA holds (R394 to R406): the request lines, and each channel's run
state, list positions and bursts in flight.
-/
namespace Sys2Proof.Machine

/-- The section of a staging symbol that a framer's request moves: flow, carrier, air start of the symbol, antenna, first
PRB and number of PRBs (R443 to R449); for an OUT request, its place in the symbol's sequence of sections. -/
structure ReqSrc where
  flow : Nat
  carrier : Nat
  start : Nat
  ant : Nat
  prb : Nat
  nprb : Nat
  part : Nat
deriving DecidableEq, Repr

/-- A request pending on a line (R396): the address and length of an addressed one, and the data that comes with one of
an IN channel. -/
structure DmaReq where
  addr : Nat
  len : Nat
  data : List Byte
  src : Option ReqSrc
deriving DecidableEq, Repr

/-- The positions of a channel's two list sides (R400). -/
structure DmaPos where
  srcE : Nat
  srcO : Nat
  dstE : Nat
  dstO : Nat
deriving DecidableEq, Repr

/-- A burst in flight: its request, the positions it began at, and how it ends (R397, R405). -/
structure DmaBurst where
  req : DmaReq
  pos : DmaPos
  /-- A write of it was acknowledged POISON. -/
  poisonWr : Bool
  /-- CAUSE and address of the failure that halts the channel. -/
  fail : Option (Nat × Nat)
  /-- Entries it completes: 0 source or 1 destination list, entry index, EV, NQ. -/
  done : List (Nat × Nat × Bool × Bool)
  sat : Nat
  /-- Bytes for the requester's buffer (OUT). -/
  out : List Byte
deriving DecidableEq, Repr

/-- A channel (R405, R408). `run` is 3 HALTED, 4 ENDED or 0; `cause` reads as DMA_CH_STATUS codes it. -/
structure DmaChan where
  run : Nat
  cause : Nat
  pos : DmaPos
  /-- Bursts since RESET. -/
  count : Nat
  flight : List DmaBurst
  /-- The request and data of the failing burst of a halted channel. -/
  held : Option DmaReq
deriving DecidableEq, Repr

def DmaPos.zero : DmaPos := ⟨0, 0, 0, 0⟩

def DmaChan.reset : DmaChan := ⟨0, 0, DmaPos.zero, 0, [], none⟩

end Sys2Proof.Machine
end

