-- ==== Sys2Proof/Machine/StateEngine.lean ====
section
/-!
DEFINITION. Sys2Proof/Machine/StateEngine.lean: what engine instances hold between commands: contexts (R145, R166, R167, R208).
-/
namespace Sys2Proof.Machine

/-- A resident context: class, physical instance, slot, owner function, CTX_ID, the size of its state in bytes, and the
state itself in the layout of its image (R145, R167, R208), bytes that are zero not listed. -/
structure Ctx where
  cls : Nat
  inst : Nat
  slot : Nat
  fn : Nat
  ctx : Nat
  size : Nat
  img : List Host.Cell
deriving DecidableEq, Repr

/-- A FILTER in progress (R211, R214): the command, its instance, what it has consumed and produced. -/
structure FdcJob where
  sn : Nat
  inst : Nat
  fn : Nat
  ctx : Nat
  /-- The command block as it was read. -/
  blk : List Byte
  /-- Input samples consumed, outputs written, outputs discarded under OUT_MAX. -/
  inN : Nat
  outN : Nat
  cutN : Nat
  sat : Nat
  pwrN : Nat
  high : Bool
  sync : Bool
  /-- Slice records written. -/
  recs : Nat
  /-- A request of its line waits to be taken (R397). -/
  reqWait : Bool
deriving DecidableEq, Repr

end Sys2Proof.Machine
end

