-- ==== Sys2Proof/Machine/StateFabric.lean ====
section
/-!
DEFINITION. Sys2Proof/Machine/StateFabric.lean: the state of the task fabric and of Tilth (R259 to R333): queues and the
descriptors accepted on them, tasks, waits, events in flight, wait groups, pools, credits, allocations and windows.
-/
namespace Sys2Proof.Machine

/-- Executor classes as QCB CLASS numbers them (R260): 0 core, 1 to 8 the engine classes BFE to TCE, 9 host. -/
abbrev ExecClass := Nat

/-- Who pushed an engine command: a core's eq.push, esave or erest carries a tag back to its task (R139, R145);
any other path names a NOTIFY queue (R265). -/
inductive CmdIssuer where
  | core (k : Nat) (taskid : Word) (tag : Nat)
  | notify
deriving DecidableEq, Repr

/-- What a COMMAND does: run a command block, or save or restore a context (R139, R145). -/
inductive CmdKind where
  | block
  | esave (keep : Bool)
  | erest
deriving DecidableEq, Repr

/-- Where a descriptor stands between acceptance and release (R266, R275, R276). -/
inductive Phase where
  | armed
  | queued
  | ready
  | dispatched
  | suspended
  /-- Its executor faulted: it waits to be placed once more (R327, R577). -/
  | abandoned
  | completed
deriving DecidableEq, Repr

/-- An open wait of a task (R294): the list address, its entries (three words each), the mode, and the marks. -/
structure Wait where
  addr : Nat
  entries : List (List Word)
  any : Bool
  marks : List Nat
deriving DecidableEq, Repr

/-- How a task ended (R276, R290): `cause` 0 is success; 0x01 to 0xFF a done STATUS (flagged) or a terminal CAUSE. -/
structure TaskEnd where
  byDone : Bool
  cause : Nat
deriving DecidableEq, Repr

/-- A descriptor accepted on a queue, and the task it becomes. -/
structure Item where
  /-- Acceptance serial (the order of R266). -/
  sn : Nat
  q : Nat
  /-- The 16 words of the descriptor (R263). -/
  words : List Word
  /-- Function the enqueue acted for. -/
  fn : Nat
  issuer : CmdIssuer
  kind : CmdKind
  phase : Phase
  /-- Order of arrival in its ready list (R269); smaller is earlier. A rerun re-enters ahead of all (R327). -/
  readyAt : Int
  /-- The event that released its trigger (R267). -/
  ev : Option DWord
  taskid : Word
  exec : Option Exec
  /-- AIRTIME of the last dispatch or resume, and running time before it (R285). -/
  tStart : Nat
  runTc : Nat
  /-- Save area index 0 to 3, if PREEMPTIBLE (R316). -/
  save : Option Nat
  wait : Option Wait
  /-- The task sits in wait.ev (R101). -/
  inWait : Bool
  /-- Task-addressed events held for it, oldest first (R288). -/
  heldEv : List DWord
  /-- A command it issued completed with a STATUS other than OK (R144). -/
  cmdFail : Bool
  ended : Option TaskEnd
  /-- Resources freed; the chained enqueue is what the release waits for (R277). -/
  freed : Bool
  /-- Handles it references, one entry per naming (R319, R320). -/
  handles : List Word
  /-- BIND_WAIT has been recorded for it, and whether it is passed over until room frees (R323). -/
  bindWait : Bool
  blocked : Bool
  /-- SHARE_HOLD and RESERVE_HOLD have been recorded for it (R331). -/
  heldRec : Bool
  /-- It has been run again once after a fault (R327, R577). -/
  rerun : Bool
  /-- Its first attempt was ended by FETCH_POISON (R577). -/
  fetchEnded : Bool
  /-- The engine has begun the command (R315). -/
  started : Bool
  /-- Physical executor it must avoid after a fault (R327). -/
  avoid : Option Exec
deriving DecidableEq, Repr

/-- A queue control block: words 0 to 5 and NOTE_LOST; COUNT and STALLED follow from the items and the holds (R260). -/
structure Qcb where
  words : List Word
  noteLost : Bool
deriving DecidableEq, Repr

/-- Whom a held enqueue belongs to (R283). -/
inductive Producer where
  | core (k : Nat)
  | engine (cls inst : Nat)
  | dma (ch : Nat)
  | chain (sn : Nat)
  | ring (fn n : Nat)
  | rv (link : Nat)
  | other
deriving DecidableEq, Repr

/-- An enqueue held by a full STALL queue (R281, R283). -/
structure Held where
  q : Nat
  fn : Nat
  words : List Word
  issuer : CmdIssuer
  kind : CmdKind
  who : Producer
deriving DecidableEq, Repr

/-- Destination of an event (R288). -/
inductive EvDest where
  | task (taskid : Word)
  | queue (q : Nat) (words : List Word)
  | published (owner : Nat)
deriving DecidableEq, Repr

/-- An event on its way to the fabric (R287). -/
structure Ev where
  word : DWord
  dest : EvDest
deriving DecidableEq, Repr

/-- An open wait group (R296). -/
structure WaitGroup where
  fn : Nat
  group : Nat
  sup : Nat
  ext : Bool
  /-- DEADLOCK posted, and no member has left wait.ev since (R298). -/
  reported : Bool
deriving DecidableEq, Repr

/-- The task fabric. -/
structure Fabric where
  items : List Item
  nextSn : Nat
  nextReady : Int
  qcbs : List (Nat × Qcb)
  held : List Held
  evs : List Ev
  /-- Next sequence number per source class and instance (R287). -/
  seqs : List (Nat × Nat)
  groups : List WaitGroup
  /-- Pre-empting item waiting for its victim core's suspension (R278). -/
  preempting : List (Nat × Nat)
deriving DecidableEq, Repr

/-- Storage that Tilth has given to a handle (R321). -/
structure Alloc where
  handle : Word
  addr : Nat
  size : Nat
  mcls : Nat
deriving DecidableEq, Repr

/-- A migration in progress: the handle and its new storage (R325). -/
structure Migration where
  handle : Word
  dst : Alloc
deriving DecidableEq, Repr

/-- Tilth. -/
structure Tilth where
  /-- Pool records, words 0 to 23 (R307). -/
  pools : List (Nat × List Word)
  /-- The staged record of the pool window, words 0 to 31 (R333). -/
  staged : List Word
  /-- Share credit per pool and class, key 16 × pool + class, in 1/16 Tc (R311). -/
  credits : List (Nat × Int)
  /-- Sheds on slack per pool (R307). -/
  sheds : List (Nat × Nat)
  allocs : List Alloc
  migr : List Migration
  /-- Windows of 4 commands per engine instance, key 4096 × class + instance, item serials in order (R315). -/
  windows : List (Nat × List Nat)
  /-- AIRTIME of the last re-evaluation (R315). -/
  replaceAt : Nat
  /-- Next pseudo-channel of the BULK rotation (R321). -/
  bulkNext : Nat
deriving DecidableEq, Repr

/-- The fabric after reset: no queue written, nothing accepted (R261, R620). -/
def Fabric.reset : Fabric where
  items := []
  nextSn := 0
  nextReady := 0
  qcbs := []
  held := []
  evs := []
  seqs := []
  groups := []
  preempting := []

/-- Tilth after reset: no pool VALID, nothing bound. -/
def Tilth.reset : Tilth where
  pools := []
  staged := List.replicate 32 0
  credits := []
  sheds := []
  allocs := []
  migr := []
  windows := []
  replaceAt := 0
  bulkNext := 0

end Sys2Proof.Machine
end

