-- ==== Sys2Proof/Machine/StateHost.lean ====
section
/-!
DEFINITION. Sys2Proof/Machine/StateHost.lean: the function windows of the host interface (R492): doorbells, host-task
completion, delivery rings and the mailbox of each function.
-/
namespace Sys2Proof.Machine

/-- A host descriptor ring as its doorbell holds it: TAIL, NEXT and ERROR (R492, R494). -/
structure FnRing where
  tail : Nat
  next : Nat
  err : Bool
deriving DecidableEq, Repr

/-- A delivery ring: the host's HEAD, the device's tail, and PHASE (R496, R497). -/
structure FnDlv where
  head : Nat
  tail : Nat
  phase : Bool
deriving DecidableEq, Repr

/-- Mailbox states of HFW_MBX_CTRL (R492). -/
inductive MbxState where
  | idle | queued | running | done | busy
deriving DecidableEq, Repr

/-- A completion sent to the host: its function, how it ends (0 data, 1 Unsupported Request, 2 retry status, 3 poisoned), and
its data. -/
structure Cpl where
  fn : Nat
  status : Nat
  data : List Byte
deriving DecidableEq, Repr

/-- One function's window. -/
structure FnWin where
  rings : List (Nat × FnRing)
  dlv : List (Nat × FnDlv)
  doneLo : Word
  mbx : MbxState
  mbxReq : List Word
  mbxResp : List Word
deriving DecidableEq, Repr

/-- What configuration requests set beside Bus Master Enable and NumVFs, which the register pages show: functions whose MSI-X
is enabled, and functions in D3hot (R485, R499, R503). -/
structure CfgSpace where
  msixOn : List Nat
  d3 : List Nat
deriving DecidableEq, Repr

def CfgSpace.reset : CfgSpace := ⟨[], []⟩
def FnRing.reset : FnRing := ⟨0, 0, false⟩
def FnDlv.reset : FnDlv := ⟨0, 0, true⟩

/-- A window after reset (R492). -/
def FnWin.reset : FnWin where
  rings := []
  dlv := []
  doneLo := 0
  mbx := .idle
  mbxReq := List.replicate 64 0
  mbxResp := List.replicate 64 0

end Sys2Proof.Machine
end

