-- ==== Sys2Proof/Machine/StateLink.lean ====
section
/-!
DEFINITION. Sys2Proof/Machine/StateLink.lean: what lanes, MACs, framers, CPRI buffers, the time base and the Realvin links hold beside
their registers (R409 to R484).
-/
namespace Sys2Proof.Machine

/-- A receive schedule in force, or committed and waiting for its boundary (R428). -/
structure Sched where
  base : Nat
  period : Nat
  /-- START and END of each window that is 8,192 Tc or longer. -/
  wins : List (Nat × Nat)
  /-- AIRTIME of the period boundary at which a committed schedule is copied in. -/
  due : Nat
deriving DecidableEq, Repr

/-- A lane beside its registers (R418, R420, R422, R425, R429 to R432). -/
structure LaneSt where
  /-- The lock awaits its confirmation after a hold. -/
  confirm : Bool
  /-- The END of the schedule window that holds the receiver asleep. -/
  window : Option Nat
  /-- The END of a window whose START a step of AIRTIME passed: it does not open. -/
  skip : Option Nat
  /-- The receiver settings a sweep restores: LN_RXEQ and LN_RXFFE0 to 2. -/
  saved : List Word
  /-- CDR locked to the incoming signal. -/
  cdr : Bool
  /-- Parts of the recalibration that runs: bit 0 RX, bit 1 TX. -/
  recal : Nat
  /-- EYE_MIN of the table entry loaded into the lane. -/
  eyeMin : Nat
deriving DecidableEq, Repr

/-- A frame or PTP entry waiting in an egress queue of a port (R439, R461): its bytes, the transmit-ring entry to stamp, and
ONE_STEP; for a downlink symbol, its framer and carrier and whether it is the symbol's last. -/
structure TxItem where
  bytes : List Byte
  /-- 4,096 × word 0 of the PTP transmit entry + its index. -/
  ptp : Option Nat
  symEnd : Option (Nat × Nat × Nat)
  flow : Option (Nat × Nat)
deriving DecidableEq, Repr

/-- A frame, pulse or message that left the device: port or pad number, AIRTIME, bytes. -/
structure Sent where
  port : Nat
  at_ : Nat
  bytes : List Byte
deriving DecidableEq, Repr

/-- A port's MAC: its egress queues and token buckets (R439). -/
structure MacSt where
  queues : List (Nat × List TxItem)
  /-- Credit in bytes × 98,304, and the AIRTIME up to which it has been filled. -/
  credit : List (Nat × Int × Nat)
  /-- AIRTIME of the last hyperframe boundary that a CPRI port sent (R456). -/
  hyper : Option Nat
deriving DecidableEq, Repr

/-- A frame between the MAC and the framer: its port, its receive stamp, its flow, the sender's address, and the message from
its eCPRI header on (R438, R440). -/
structure InFrame where
  port : Nat
  at_ : Nat
  flow : Nat
  peer : Nat
  bytes : List Byte
deriving DecidableEq, Repr

/-- A U-plane frame held early (R444). -/
structure EarlyFrame where
  flow : Nat
  openAt : Nat
  at_ : Nat
  bytes : List Byte
deriving DecidableEq, Repr

/-- A symbol of a carrier that the framer has an expectation of, or has data for (R445, R446). -/
structure SymSt where
  carrier : Nat
  /-- Air start, slot (SLOT_T) and symbol. -/
  start : Nat
  slot : Nat
  sym : Nat
  /-- Expected antenna and PRB pairs; those written; antennas that lost a section under POLICY SYMBOL. -/
  want : List (Nat × Nat)
  got : List (Nat × Nat)
  lostAnt : List Nat
  /-- The window is over and the zeros are written: PRB-antennas zero-filled. -/
  closed : Option Nat
  /-- SYMBOL_COMPLETE is posted. -/
  posted : Bool
deriving DecidableEq, Repr

/-- A staging half of a carrier (R447, R449). -/
structure HalfSt where
  carrier : Nat
  half : Nat
  slot : Nat
  sym : Nat
  notices : Nat
  /-- Uplink: the half still holds the symbol; downlink: it is ready. -/
  full : Bool
  sending : Bool
  /-- Sections of it whose OUT requests have been raised. -/
  next : Nat
deriving DecidableEq, Repr

/-- A framer's tables and stores (R440 to R453). -/
structure FramerSt where
  flows : List (Nat × List Word)
  flowOn : List Nat
  carriers : List (Nat × List Word)
  carrierOn : List Nat
  /-- Staged words of the table window. -/
  staged : List Word
  early : List EarlyFrame
  syms : List SymSt
  halves : List HalfSt
  /-- eCPRI SEQ_ID per flow. -/
  seqIds : List (Nat × Nat)
  /-- Frames that the MACs handed over, oldest first. -/
  inbox : List InFrame
  /-- The command-ring entry read and not yet processed, and the AIRTIME at which it was (R448). -/
  entry : Option (List Byte × Nat)
  /-- t1 of the one-way delay requests sent, per measurement ID (R453). -/
  owd : List (Nat × Nat)
  /-- 1 + 16 × SLOT_T + symbol of the last downlink symbol that was sent or missed, per 2 × carrier + half (R449). -/
  ended : List (Nat × Nat)
deriving DecidableEq, Repr

/-- A staging notice on its way to a framer (R447). -/
structure Notice where
  framer : Nat
  carrier : Nat
  slot : Nat
  sym : Nat
deriving DecidableEq, Repr

/-- A CPRI buffer: bytes received and not yet raised, bytes delivered and not yet sent (R455). -/
structure CpriSt where
  rx : List Byte
  tx : List Byte
deriving DecidableEq, Repr

/-- The time base beside its registers (R457 to R466). -/
structure TimeSt where
  /-- Slew still to apply, in Tc × 2^40. -/
  slew : Int
  /-- Fraction of a Tc that the rate has accumulated, in 2^-40 Tc. -/
  frac : Int
  /-- A backward step that waits (R458). -/
  held : Option Nat
  /-- Per generator: twice the boundary, plus 1 for a SYMBOL tick, from which ticks are still to be posted (R45, R467). -/
  genFrom : List (Nat × Nat)
  /-- Forward steps, from one AIRTIME to another: the ticks whose instants they passed are replayed (R45). -/
  steps : List (Nat × Nat)
  /-- Per timed request: the AIRTIME from which instants are still to be raised. -/
  treqFrom : List (Nat × Nat)
  /-- Receive and transmit PTP ring positions. -/
  ptpRx : Nat
  ptpTx : Nat
  /-- AIRTIME of the PPS_OUT edge whose ToD message is due. -/
  tod : Option Nat
  /-- Last PPS_OUT edge. -/
  ppsAt : Option Nat
  /-- PPS_IN stamp latched with the last ToD message (R464). -/
  todPps : Nat
deriving DecidableEq, Repr

/-- A packet of a Realvin link (R471). -/
inductive RvBody where
  | write (addr : Nat) (bytes : List Byte)
  | enqueue (q : Nat) (words : List Word) (entry : Nat) (fromQ : Nat) (mirror : Bool) (sn : Nat)
  | event (w : DWord)
deriving DecidableEq, Repr

structure RvPkt where
  seq : Nat
  body : RvBody
  sentAt : Nat
deriving DecidableEq, Repr

/-- A Realvin link (R468 to R479). -/
structure RvSt where
  tables : List (Nat × List Word)
  staged : List Word
  /-- Packets taken and not acknowledged, oldest first; replays without progress. -/
  replay : List RvPkt
  /-- Packets waiting for a place in the replay buffer. -/
  wait : List RvBody
  replays : Nat
  txSeq : Nat
  /-- The SEQ expected next. -/
  rxSeq : Nat
  /-- Our SWAP_REQ is outstanding; the peer's has been seen. -/
  swapOut : Bool
  /-- AIRTIME at which retraining began. -/
  retrainAt : Nat
  /-- REPLAY_TIMEOUT that the peer announced as LEAD (R474, R475). -/
  timeout : Nat
  /-- Descriptors that arrived and wait for a full STALL queue. -/
  stalled : List RvBody
deriving DecidableEq, Repr

structure Links where
  scheds : List (Nat × Sched)
  pendScheds : List (Nat × Sched)
  lanes : List (Nat × LaneSt)
  macs : List (Nat × MacSt)
  framers : List (Nat × FramerSt)
  notices : List Notice
  cpri : List (Nat × CpriSt)
  time : TimeSt
  rv : List (Nat × RvSt)
  sent : List Sent
deriving DecidableEq, Repr

def LaneSt.reset : LaneSt := ⟨false, none, none, [], false, 0, 0⟩
def MacSt.reset : MacSt := ⟨[], [], none⟩
def FramerSt.reset : FramerSt := ⟨[], [], [], [], [], [], [], [], [], [], none, [], []⟩
def CpriSt.reset : CpriSt := ⟨[], []⟩
def TimeSt.reset : TimeSt := ⟨0, 0, none, [], [], [], 0, 0, none, none, 0⟩
def RvSt.reset : RvSt := ⟨[], [], [], [], 0, 0, 0, false, 0, 0x0F00, []⟩
def Links.reset : Links := ⟨[], [], [], [], [], [], [], TimeSt.reset, [], []⟩

end Sys2Proof.Machine
end

