-- ==== Sys2Proof/Machine/StateRing.lean ====
section
/-!
DEFINITION. Sys2Proof/Machine/StateRing.lean: what the data and control rings hold (R334 to R361): operations of masters, bursts open
at targets, credits, responses on their way, and the control packets already applied.
-/
namespace Sys2Proof.Machine

/-- A master's operation: stop, agent and TAG (R340). -/
structure OpId where
  stop : Nat
  agent : Nat
  tag : Nat
deriving DecidableEq, Repr

/-- An operation of a master, with its outcome once it has one, and the data read so far (R340, R342, R343). -/
structure RingOp where
  id : OpId
  isRead : Bool
  target : Nat
  addr : Nat
  len : Nat
  status : Option Nat
  data : List Byte
deriving DecidableEq, Repr

/-- A write burst open at a target (R341, R342, R353). -/
structure Burst where
  id : OpId
  target : Nat
  addr : Nat
  len : Nat
  unord : Bool
  /-- Flits that arrived, bytes written. -/
  seqs : List Nat
  written : Nat
  /-- The incomplete line: its bytes. -/
  held : List (Nat × Byte)
  /-- Worst status so far (R349, R374). -/
  status : Nat
  /-- Ring ends and SEQ of the ABORT_TAILs seen (R353). -/
  tails : List Nat
deriving DecidableEq, Repr

/-- A response flit on its way to a master: TYPE 2, 3 or 5 of R340. -/
structure Resp where
  kind : Nat
  id : OpId
  src : Nat
  seq : Nat
  last : Bool
  status : Nat
  poison : Bool
  data : List Byte
  /-- ADDR: of payload byte 0; of a flit without payload, of its operation. -/
  addr : Nat
deriving DecidableEq, Repr

/-- The rings. -/
structure Rings where
  ops : List RingOp
  bursts : List Burst
  resps : List Resp
  /-- WRITE flits of a source at a target whose credits are not yet returned, key 128 × source + target (R343). -/
  used : List (Nat × Nat)
  /-- Credits released at the target and not yet returned. -/
  owed : List (Nat × Nat)
  /-- SEQs of control packets applied, per source stop and agent (R347). -/
  applied : List (Nat × List Nat)
  /-- CRC failures per packet, key (source, SEQ) (R347). -/
  crcFails : List (Nat × Nat)
  /-- Copies kept of the control packets of a source: key (source, SEQ) and the AIRTIME each was last sent (R347). -/
  copies : List (Nat × Nat)
  /-- Masters that were reset: responses for their operations are absorbed (R353). -/
  dead : List OpId
  /-- AIRTIMEs of hop errors per segment, key 128 × ring + stop (R348). -/
  hopErr : List (Nat × List Nat)
  /-- Matches that each probe has seen while capturing (R356). -/
  probed : List (Nat × Nat)
deriving DecidableEq, Repr

def Rings.reset : Rings where
  ops := []
  bursts := []
  resps := []
  used := []
  owed := []
  applied := []
  crcFails := []
  copies := []
  dead := []
  hopErr := []
  probed := []

end Sys2Proof.Machine
end

