-- ==== Sys2Proof/Machine/StateWard.lean ====
section
/-!
DEFINITION. Sys2Proof/Machine/StateWard.lean: what Ward, the always-on domain and the pads hold beside their registers (R513 to R526,
R545 to R583, R600, R604).
-/
namespace Sys2Proof.Machine

/-- Ward: its mailbox queue, flash, OTP and SRAM (R500, R548, R549, R557, R569). -/
structure Ward where
  /-- Functions whose requests wait, first in, first out; at most 64 (R500). -/
  queue : List Nat
  /-- Both pairs are out: no Ward service until a device reset (R568). -/
  stopped : Bool
  /-- The 2 KiB OTP; bits never written read zero (R548). -/
  otp : List Host.Cell
  /-- The xSPI flash; a byte not listed reads 0xFF, the erased value (log entry 38). -/
  flash : List Host.Cell
  /-- Ward SRAM, 1 MiB as KLN_SRAM_ADDR reaches it (R557, R587). -/
  sram : List Host.Cell
  /-- AIRTIMEs of the faults counted against parts, per page (R573). -/
  faults : List (Nat × List Nat)
  /-- Key slots that BOOT found revoked, and whether OTP_WRITE programmed fields since: both take effect at BOOT (R583). -/
  revoked : Nat
  /-- Hashes of key slots 0 to 3 as BOOT read them (R583). -/
  keys : List (List Byte)
  /-- Key slot of the running Ward firmware (R583). -/
  fwKey : Nat
  /-- WRD_POLICY.RISE_ALL, and the Subsystem IDs, as BOOT took them (R485, R584). -/
  riseAll : Bool
  subsys : Nat
  /-- AIRTIME of the Kaolin holder's last access, and the users whose KLN_STATUS shows NOT_HOLDER (R558, R559). -/
  klnAt : Nat
  klnDenied : List Nat
deriving DecidableEq, Repr

/-- The management pads and the supplies (R538, R545, R600, R602). -/
structure Pins where
  /-- Supplies in range: the device is not OFF (R513). -/
  on : Bool
  perstLow : Bool
  thermtripLow : Bool
  /-- GPIO[15:0] levels outside, sampled as straps (R601). -/
  gpio : Nat
  /-- AIRTIME at which PPS_OUT falls again, while it is high (R463). -/
  ppsHigh : Option Nat
  /-- Tc since RESET_N was released, up to 1 ms (R604). -/
  up : Nat
deriving DecidableEq, Repr

/-- REST and its entry: the mode that was left, the AIRTIME at which entry began, whether REST is reached, and PPS_IN edges
since (R520 to R523). -/
structure RestInfo where
  mode : Nat
  at_ : Nat
  done : Bool
  edges : Nat
deriving DecidableEq, Repr

def Ward.reset : Ward where
  queue := []
  stopped := false
  otp := []
  flash := []
  sram := []
  faults := []
  revoked := 0
  keys := []
  fwKey := 0
  riseAll := true
  subsys := 0
  klnAt := 0
  klnDenied := []

def Pins.reset : Pins where
  on := true
  perstLow := true
  thermtripLow := false
  gpio := 0
  ppsHigh := none
  up := 0

end Sys2Proof.Machine
end

