-- ==== Sys2Proof/Machine/State.lean ====
section
/-!
DEFINITION. Sys2Proof/Machine/State.lean: the state of the device, as plain data, and the state right after reset. Registers of
the pages are held sparsely by BAR0 offset: one that nothing has written holds its reset value (R25, RegTable.lean).
-/
namespace Sys2Proof.Machine

/-- The reasons for which a command could stop the device. -/
inductive Fault where
  /-- No command raises it, and none may: every failure that the manual describes is an effect on the state (a part FAULTED, a
  status, a tally), which the commands have. Safe: nothing stops. -/
  | none
deriving DecidableEq, Repr

/-- The reasons for which a command could be refused. -/
inductive Refusal where
  /-- The command has no meaning yet. Every command of the table has one, so no arm raises it. Safe: nothing is claimed of it. -/
  | notModelled (mnemonic : String)
deriving DecidableEq, Repr

/-- A register page: its kind and the number of the part within the kind (R504). -/
structure Page where
  kind : PageKind
  ix : Nat
deriving DecidableEq, Repr

/-- The memories at device physical addresses: what they hold and what is marked (R362 to R391). -/
structure Memory where
  /-- Bytes that are not zero, addresses strictly rising; every other byte reads zero (R620). -/
  cells : List Host.Cell
  /-- Locations that hold POISON: byte addresses in per-byte memories, line addresses in line memories (R371);
  in the mirrored window, the primary copy. -/
  poison : List Nat
  /-- Lines of the mirrored window whose secondary copy holds POISON (R386). -/
  poison2 : List Nat
  /-- Pseudo-channels whose interleaved blocks have moved to the reserves (R388, R390, R391). -/
  moved : List Nat
  /-- Pseudo-channels whose interleaved blocks found no room and stay lost (R391). -/
  lost : List Nat
  /-- Pseudo-channels out of service whose mirror copies have been rebuilt in the reserves (R388 step 7). -/
  rebuilt : List Nat
  /-- Pseudo-channels whose relocated interleaved blocks were filled with POISON, single blocks that were, and the lines of
  them that a write has made valid again (R388 step 3). A block is 2^20 × pseudo-channel + its number there. -/
  wiped : List Nat
  wipedBlks : List Nat
  mended : List Nat
  /-- The channels over which the blocks of each moved pseudo-channel were spread, block j to number j modulo their
  number; blocks that were relocated again since, and blocks that found no room then (R391). -/
  movedTo : List (Nat × List Nat)
  rehost : List (Nat × Nat)
  lostBlks : List Nat
  /-- Blocks taken from the reserve of each pseudo-channel (R391). -/
  resUsed : List (Nat × Nat)
  /-- Corrections waiting to be written back, oldest first (R376). -/
  wb : List Nat
  /-- Corrections per row within the window: part page offset and row, AIRTIMEs (R379). -/
  rowHits : List (Nat × List (Nat × Nat))
  /-- Corrections per HBM symbol position within a second (R377): pseudo-channel, (symbol, AIRTIME). -/
  pinHits : List (Nat × List (Nat × Nat))
  /-- Rows replaced by a spare, per part (R379). -/
  remap : List (Nat × List Nat)
  /-- AIRTIMEs of uncorrectable lines per line-memory part, for the 16 in 1 ms test (R388). -/
  uncHits : List (Nat × List Nat)
  /-- Patrol scrub position per part, and the AIRTIME of its last full pass (R381). -/
  scrubAt : List (Nat × Nat)
  scrubDone : List (Nat × Nat)
deriving DecidableEq, Repr

/-- One record of Ward's fault log (R575, R582). -/
structure FaultRec where
  at_ : Nat
  page : Nat
  reason : Nat
  detail : Nat
  contained : Bool
deriving DecidableEq, Repr

/-- The device. -/
structure State where
  /-- Page registers that have been written, by BAR0 offset, offsets rising (R504, R506). -/
  regs : List (Nat × Word)
  /-- The _HI halves that reads of _LO registers latched, per requester and register (R31). -/
  latch : List (Nat × Word)
  /-- The _LO halves that wait for their _HI write, per requester and register (R31). -/
  stage : List (Nat × Word)
  /-- AIRTIME in Tc (R19, R457). -/
  airtime : Nat
  /-- The memories at device physical addresses (R362). -/
  mem : Memory
  /-- Host memory as the device has written it (R483, R497): bytes, addresses rising. -/
  hostMem : List Host.Cell
  /-- The physical Geavo cores by number, those that are not as after reset (R36, R56). -/
  cores : List (Nat × Core)
  /-- The dispatch fabric (R257 to R304). -/
  fab : Fabric
  /-- Tilth (R305 to R334). -/
  tilth : Tilth
  /-- The function windows, by function (R492). -/
  wins : List (Nat × FnWin)
  /-- Configuration space (R485, R491). -/
  cfg : CfgSpace
  /-- Contexts resident in engine instances (R145). -/
  ctxs : List Ctx
  /-- FILTER commands in progress (R211, R214). -/
  fdcJobs : List FdcJob
  /-- The channel that each FDC served last (R211). -/
  fdcLast : List (Nat × Nat)
  /-- Requests pending on the DMA lines (R396, R397). -/
  dmaLines : List (Nat × List DmaReq)
  /-- The DMA channels that are not as after reset (R400, R405). -/
  dmaChans : List (Nat × DmaChan)
  /-- The channel that each DMA unit served last (R398). -/
  dmaLast : List (Nat × Nat)
  /-- Sediment: the rings, their stops and what is in flight (R335 to R361). -/
  rings : Rings
  /-- Lanes, ports, framers, the time base, Realvin and CPRI (R409 to R484). -/
  links : Links
  /-- Ward (R545 to R583). -/
  ward : Ward
  /-- Pads and supplies (R594 to R604). -/
  pins : Pins
  /-- REST or its entry (R520). -/
  rest : Option RestInfo
  /-- MSI-X vectors sent: function and vector, oldest first (R499). -/
  msix : List (Nat × Nat)
  /-- Completions sent to the host, oldest first (R488, R491). -/
  cpls : List Cpl
  /-- Ward's fault log, oldest first (R575, R582). -/
  faultLog : List FaultRec
  /-- AIRTIME of the last accepted PG_CMD of each page, for the ceilings (R507). -/
  cmdAt : List (Nat × Nat)
  /-- Images in engines, framers and DMA units, by page (R586). -/
  imgs : List (Nat × List Host.Cell)
  /-- The model's own field: how many free values have been drawn (log entry 1). -/
  free : Nat
  /-- The model's own field: commands that wait, first in, first out. -/
  pending : List Instr
deriving DecidableEq, Repr

/-- The memories after reset: nothing listed, nothing marked (R620). -/
def Memory.reset : Memory where
  cells := []
  poison := []
  poison2 := []
  moved := []
  lost := []
  rebuilt := []
  wiped := []
  wipedBlks := []
  mended := []
  movedTo := []
  rehost := []
  lostBlks := []
  resUsed := []
  wb := []
  rowHits := []
  pinHits := []
  remap := []
  uncHits := []
  scrubAt := []
  scrubDone := []

/-- The device right after reset: RESET_N released, PERST_N still low (R545, R563), mode BOOT. Every register holds the reset value
of its row (R25); a value that no rule gives is zero (DESIGN CHOICE, log entry 2). The queue is empty and no free value has
been drawn (DESIGN CHOICE, log entry 1). -/
def State.reset : State where
  regs := []
  latch := []
  stage := []
  airtime := 0
  mem := Memory.reset
  hostMem := []
  cores := []
  fab := Fabric.reset
  tilth := Tilth.reset
  wins := []
  cfg := CfgSpace.reset
  ctxs := []
  fdcJobs := []
  fdcLast := []
  dmaLines := []
  dmaChans := []
  dmaLast := []
  rings := Rings.reset
  links := Links.reset
  ward := Ward.reset
  pins := Pins.reset
  rest := none
  msix := []
  cpls := []
  faultLog := []
  cmdAt := []
  imgs := []
  free := 0
  pending := []

end Sys2Proof.Machine
end

