-- ==== Sys2Proof/Machine/Ops.lean ====
section
/-!
DEFINITION. Sys2Proof/Machine/Ops.lean: the named operations over the register pages and the memories that every family
shares: where a page lies and what its registers hold (R504, R506), tallies and interrupts (R32, R499), the device
physical map (R362 to R366), and reads and writes with POISON, mirroring and lost parts (R371 to R374, R386 to R388, R619).
-/
namespace Sys2Proof.Machine

/-! ### Register pages -/

/-- Class and instance of the first page of a kind (R504). -/
def PageKind.base : PageKind → Nat × Nat
  | .device => (0x0, 0x000) | .ward => (0x0, 0x001) | .hif => (0x0, 0x002) | .fnPage => (0x0, 0x040)
  | .coreCtl => (0x1, 0) | .coreDbg => (0x1, 1) | .clod => (0x2, 0)
  | .bfe => (0x3, 0) | .dte => (0x4, 0) | .tfe => (0x5, 0) | .fdc => (0x6, 0)
  | .lde => (0x7, 0x00) | .lee => (0x7, 0x20) | .pce => (0x7, 0x40) | .tce => (0x7, 0x60) | .hqd => (0x7, 0x80)
  | .fabric => (0x8, 0) | .tilth => (0x9, 0)
  | .ringSys => (0xA, 0x000) | .stop => (0xA, 0x100) | .probe => (0xA, 0x200)
  | .memSys => (0xB, 0x000) | .dbBank => (0xB, 0x100) | .hbmPc => (0xB, 0x200)
  | .dmaCh => (0xC, 0x00) | .dmaUnit => (0xC, 0x40)
  | .lane => (0xD, 0x00) | .laneGroup => (0xD, 0x40) | .port => (0xD, 0x80) | .rvLink => (0xD, 0xC0)
  | .framer => (0xE, 0x00) | .timeBase => (0xE, 0x18)
  | .power => (0xF, 0x000) | .octant => (0xF, 0x010) | .thermal => (0xF, 0x040)
  | .kaolin => (0xF, 0x080) | .sediment => (0xF, 0x088) | .telemetry => (0xF, 0x0C0)

/-- How many parts of a kind there are (R37, R335, R504). -/
def PageKind.count : PageKind → Nat
  | .fnPage => 64 | .coreCtl => 272 | .coreDbg => 272 | .clod => 16
  | .bfe => 33 | .dte => 17 | .tfe => 25 | .fdc => 17
  | .lde => 17 | .lee => 9 | .pce => 5 | .tce => 5
  | .stop => 86 | .probe => 32 | .dbBank => 32 | .hbmPc => 128
  | .dmaCh => 64 | .dmaUnit => 4 | .lane => 64 | .laneGroup => 8 | .port => 64 | .rvLink => 8
  | .framer => 17 | .octant => 8
  | _ => 1

/-- The instance number of a page within its class (R504). -/
def Page.num (p : Page) : Nat :=
  let b := p.kind.base.2
  match p.kind with
  | .coreCtl => 2 * p.ix
  | .coreDbg => 2 * p.ix + 1
  | _ => b + p.ix

/-- BAR0 offset of a page (R504). -/
def Page.addr (p : Page) : Nat := p.kind.base.1 * 0x1000000 + p.num * 0x1000

/-- The row of a page that covers an offset. -/
def findRow (rows : List RegRow) (off : Nat) : Option RegRow :=
  rows.find? fun r =>
    decide (r.off ≤ off) &&
      (if r.stride = 0 then off == r.off
       else (off - r.off) % r.stride == 0 && decide ((off - r.off) / r.stride < r.count))

/-- The row of a register of a page (R504, R506). -/
def rowAt (k : PageKind) (off : Nat) : Option RegRow :=
  if off < 0x40 then findRow rowsCommon off else findRow (rowsOf k) off

/-- The value a row's fields reset to (R25). -/
def RegRow.resetVal (r : RegRow) : Word :=
  w32 (r.fields.foldl (fun a f => a + f.reset * 2 ^ f.lo) 0)

/-- What a register holds: what was last put there, or its reset value. -/
def State.reg (s : State) (p : Page) (off : Nat) : Word :=
  match lookup? (p.addr + off) s.regs with
  | some v => v
  | none =>
    match rowAt p.kind off with
    | some r => r.resetVal
    | none => 0

/-- Puts a value into a register, as hardware does (no access code applies). -/
def State.setReg (s : State) (p : Page) (off : Nat) (v : Word) : State :=
  { s with regs := insertKey (p.addr + off) v s.regs }

/-- Bits [lo + w - 1 : lo] of a register. -/
def State.fld (s : State) (p : Page) (off lo w : Nat) : Nat := bitsOf (s.reg p off).toNat lo w

/-- A register with one field replaced. -/
def State.setFld (s : State) (p : Page) (off lo w v : Nat) : State :=
  s.setReg p off (w32 (setBits (s.reg p off).toNat lo w v))

/-- Adds to a tally that fills [lo + w - 1 : lo] of a register; it saturates (R32). -/
def State.tally (s : State) (p : Page) (off lo w d : Nat) : State :=
  s.setFld p off lo w (satAdd w (s.fld p off lo w) d)

/-- Adds to a 32-bit tally. -/
def State.count (s : State) (p : Page) (off d : Nat) : State := s.tally p off 0 32 d

/-- The 64-bit value of an _LO register and the _HI register after it (R31). -/
def State.reg64 (s : State) (p : Page) (off : Nat) : Nat :=
  (s.reg p off).toNat + 2 ^ 32 * (s.reg p (off + 4)).toNat

/-- Puts a 64-bit value into an _LO and _HI pair. -/
def State.setReg64 (s : State) (p : Page) (off v : Nat) : State :=
  (s.setReg p off (w32 v)).setReg p (off + 4) (w32 (v / 2 ^ 32))

/-- The pages there is one of. -/
def pgDevice : Page := ⟨.device, 0⟩
def pgWard : Page := ⟨.ward, 0⟩
def pgHif : Page := ⟨.hif, 0⟩
def pgFabric : Page := ⟨.fabric, 0⟩
def pgTilth : Page := ⟨.tilth, 0⟩
def pgMem : Page := ⟨.memSys, 0⟩
def pgRing : Page := ⟨.ringSys, 0⟩
def pgHqd : Page := ⟨.hqd, 0⟩
def pgTime : Page := ⟨.timeBase, 0⟩
def pgPower : Page := ⟨.power, 0⟩
def pgTherm : Page := ⟨.thermal, 0⟩
def pgKaolin : Page := ⟨.kaolin, 0⟩
def pgSed : Page := ⟨.sediment, 0⟩

/-- Part-state codes (R33). -/
def stAbsent : Nat := 0
def stDown : Nat := 1
def stRising : Nat := 2
def stReady : Nat := 3
def stDraining : Nat := 4
def stTending : Nat := 5
def stRetained : Nat := 6
def stFaulted : Nat := 7
def stRetired : Nat := 8

/-- The page that carries the part state: a core's debug page shows its control page's (R504; log entry 19). -/
def Page.home (p : Page) : Page :=
  match p.kind with
  | .coreDbg => ⟨.coreCtl, p.ix⟩
  | _ => p

/-- PG_STATE.STATE of a part (R33, R506). -/
def State.part (s : State) (p : Page) : Nat := s.fld p.home Reg.PG_STATE 0 4

/-- Does the part serve new work (R34)? -/
def State.ready (s : State) (p : Page) : Bool := s.part p == stReady

/-- Does a memory part serve accesses (R619)? -/
def State.serving (s : State) (p : Page) : Bool := s.part p == stReady || s.part p == stDraining

/-- Owner function of a page: PG_OWNER, except on function pages and the device, Kaolin and Ward pages (R509, R514, R583). -/
def State.owner (s : State) (p : Page) : Nat :=
  match p.kind with
  | .fnPage => p.ix
  | .kaolin | .ward | .device => 0
  | _ => s.fld p.home Reg.PG_OWNER 0 6

/-- Does the function exist and take requests: the PF, or an enabled VF (R485), not in D3hot? -/
def State.fnUp (s : State) (f : Nat) : Bool := decide (f ≤ s.fld pgHif Reg.HIF_LINK 9 7) && !s.cfg.d3.contains f

/-- A vector of a function is raised: recorded, or tallied when the function's table does not hold it (R499); while the
function's MSI-X is not enabled nothing is sent. -/
def State.raiseVec (s : State) (fn vec : Nat) : State :=
  if vec ≥ (if fn = 0 then 2048 else 32) then s.count pgHif Reg.HIF_TALLY_BADVEC 1
  else if s.cfg.msixOn.contains fn then { s with msix := s.msix ++ [(fn, vec)] }
  else s

/-- PG_IRQ_STAT AND PG_IRQ_EN (R499). -/
def State.irqLive (s : State) (p : Page) : Word := s.reg p Reg.PG_IRQ_STAT &&& s.reg p Reg.PG_IRQ_EN

/-- Raises the page's vector if PG_IRQ_STAT AND PG_IRQ_EN went from zero to non-zero (R499). -/
def State.irqEdge (before after : State) (p : Page) : State :=
  if before.irqLive p = 0 ∧ after.irqLive p ≠ 0 ∧ after.fld p.home Reg.PG_OWNER 19 1 = 1 then
    after.raiseVec (after.owner p) (after.fld p.home Reg.PG_OWNER 8 11)
  else after

/-- Hardware sets bits of PG_IRQ_STAT (R506). -/
def State.irq (s : State) (p : Page) (bits : Nat) : State :=
  s.irqEdge (s.setReg p Reg.PG_IRQ_STAT (s.reg p Reg.PG_IRQ_STAT ||| w32 bits)) p

/-- A change of part state: STATE, READY and the STATE interrupt (R506). -/
def State.setPart (s : State) (p : Page) (st : Nat) : State :=
  if s.part p = st then s
  else ((s.setFld p.home Reg.PG_STATE 0 4 st).setFld p.home Reg.PG_STATE 4 1 (bit (st == stReady))).irq p.home (2 ^ 31)

/-- A Hardpan fault report reaches Ward: its tally and its log (R575, R584). -/
def State.hardpanAs (s : State) (p : Page) (reason detail : Nat) (contained : Bool) : State :=
  { s.count pgWard Reg.WRD_TALLY_HARDPAN 1 with
    faultLog := s.faultLog ++ [⟨s.airtime, p.addr, reason, detail, contained⟩] }

/-- The report of a fault that its region contained. -/
def State.hardpan (s : State) (p : Page) (reason detail : Nat) : State := s.hardpanAs p reason detail true

/-! ### The device physical map -/

/-- Where a device physical address lies (R362). -/
inductive Region where
  | coreMem (k : Nat)
  | clodMem (c : Nat)
  | deep (b : Nat)
  | regs
  | hbmIntl (p : Nat)
  | hbmMir (p1 p2 : Nat)
  | hbmLocal (p : Nat)
  | host (f : Nat)
  | unmapped
deriving DecidableEq, Repr

def coreMemBase : Nat := 0x000100000000
def clodMemBase : Nat := 0x000200000000
def deepBase : Nat := 0x000300000000
def regsBase : Nat := 0x000400000000
def hbmBase : Nat := 0x001000000000
def hostBase : Nat := 0x800000000000

/-- Capacity of a pseudo-channel: 512 MiB, or 256 MiB on the BH32 (R364, R365). -/
def pcCap : Nat := if Config.bh32 then 0x10000000 else 0x20000000

/-- INTL, MIR and RELOC in bytes (R365, R392). -/
def State.intl (s : State) : Nat := s.fld pgMem Reg.MEM_HBM_MAP 0 6 * 0x1000000
def State.mir (s : State) : Nat := s.fld pgMem Reg.MEM_HBM_MAP 8 5 * 0x1000000
def State.reloc (s : State) : Nat := s.fld pgMem Reg.MEM_HBM_MAP 16 7 * 0x100000

/-- The HBM windows (R365): the relocation reserve and the top are unmapped. -/
def State.hbmRegion (s : State) (x : Nat) : Region :=
  let iw := 128 * s.intl
  let mw := 64 * s.mir
  let L := pcCap - s.intl - s.mir
  if x < iw then .hbmIntl (x / 4096 % 128)
  else if x < iw + mw then
    let j := (x - iw) / 4096 % 64
    .hbmMir j (j + 64)
  else if x < iw + mw + 128 * L then
    let y := x - iw - mw
    if y % L < L - s.reloc then .hbmLocal (y / L) else .unmapped
  else .unmapped

/-- The region of a device physical address (R362, R364). -/
def State.region (s : State) (a : Nat) : Region :=
  if coreMemBase ≤ a ∧ a < coreMemBase + 272 * 0x40000 then .coreMem ((a - coreMemBase) / 0x40000)
  else if clodMemBase ≤ a ∧ a < clodMemBase + 16 * 0x400000 then .clodMem ((a - clodMemBase) / 0x400000)
  else if deepBase ≤ a ∧ a < deepBase + 32 * 0x300000 then .deep ((a - deepBase) / 0x300000)
  else if regsBase ≤ a ∧ a < regsBase + 0x10000000 then .regs
  else if hbmBase ≤ a ∧ a < hbmBase + 128 * pcCap then s.hbmRegion (a - hbmBase)
  else if hostBase ≤ a ∧ a < 2 * hostBase then .host ((a - hostBase) / 0x20000000000)
  else .unmapped

/-- Is the region a line memory, with a code on every 64-byte line (R370)? -/
def Region.isLine : Region → Bool
  | .deep _ | .hbmIntl _ | .hbmMir _ _ | .hbmLocal _ => true
  | _ => false

/-- Is the region storage of the device (not registers, not host memory)? -/
def Region.isMem : Region → Bool
  | .regs | .host _ | .unmapped => false
  | _ => true

/-- The 64-byte line of an address. -/
def lineOf (a : Nat) : Nat := a - a % 64

/-- The page of the memory part that an address's first copy lies in (R393). -/
def Region.page : Region → Option Page
  | .coreMem k => some ⟨.clod, k / 17⟩
  | .clodMem c => some ⟨.clod, c⟩
  | .deep b => some ⟨.dbBank, b⟩
  | .hbmIntl p => some ⟨.hbmPc, p⟩
  | .hbmMir p _ => some ⟨.hbmPc, p⟩
  | .hbmLocal p => some ⟨.hbmPc, p⟩
  | _ => none

/-- How the storage behind an address answers (R388, R390, R619). -/
inductive Serve where
  | yes
  /-- Reads return poison; writes are discarded and acknowledged with ACCESS. -/
  | dead
  | no
deriving DecidableEq, Repr

/-- Number of a block of pseudo-channel `p`: its interleaved blocks come first, its mirrored ones after (R365). -/
def State.blockKey (s : State) (p a : Nat) : Nat :=
  let x := a - hbmBase
  p * 2 ^ 20 + (if x < 128 * s.intl then x / 4096 / 128 else s.intl / 4096 + (x - 128 * s.intl) / 4096 / 64)

/-- Does pseudo-channel `p` hold a copy of the mirrored block at an address, itself or rebuilt in the reserves? -/
def State.mirServes (s : State) (p a : Nat) : Bool :=
  s.serving ⟨.hbmPc, p⟩ || (s.mem.rebuilt.contains p && !s.mem.lostBlks.contains (s.blockKey p a))

/-- Service of an address by the state of its part (R388, R390, R619). -/
def State.serve (s : State) (a : Nat) : Serve :=
  match s.region a with
  | .coreMem k => if s.serving ⟨.coreCtl, k⟩ then .yes else .no
  | .clodMem c => if s.serving ⟨.clod, c⟩ then .yes else .no
  | .deep b =>
    let p : Page := ⟨.dbBank, b⟩
    if s.serving p then .yes else if s.part p = stFaulted then .dead else .no
  | .hbmIntl p =>
    let g : Page := ⟨.hbmPc, p⟩
    if s.serving g then .yes
    else if s.mem.moved.contains p then (if s.mem.lostBlks.contains (s.blockKey p a) then .dead else .yes)
    else if s.mem.lost.contains p then .dead
    else .no
  | .hbmMir p q => if s.mirServes p a || s.mirServes q a then .yes else .dead
  | .hbmLocal p =>
    let g : Page := ⟨.hbmPc, p⟩
    if s.serving g then .yes else if s.part g = stFaulted || s.part g = stRetired then .dead else .no
  | _ => .no

/-! ### Reads and writes -/

/-- The result of a read (R378). -/
inductive Rd where
  | ok (bytes : List Byte)
  /-- The first byte that reads as poison is at `a`. -/
  | poison (a : Nat)
  | access
deriving DecidableEq, Repr

/-- The status of a write (R340, R374). -/
inductive Wr where
  | ok
  | poison
  | access
deriving DecidableEq, Repr

/-- The byte stored at an address; a byte never written is zero (R620). -/
def memByte (m : List Host.Cell) (a : Nat) : Byte :=
  match lookup? a m with
  | some b => b
  | none => 0

/-- One byte stored: the list keeps rising addresses and holds no zero. -/
def memPut (m : List Host.Cell) (a : Nat) (b : Byte) : List Host.Cell :=
  if b = 0 then eraseKey a m else insertKey a b m

/-- Consecutive bytes stored. -/
def memPuts (m : List Host.Cell) (a : Nat) : List Byte → List Host.Cell
  | [] => m
  | b :: bs => memPuts (memPut m a b) (a + 1) bs

/-- Consecutive bytes read. -/
def memGets (m : List Host.Cell) (a n : Nat) : List Byte := (List.range n).map fun i => memByte m (a + i)

/-- Strictly rising addresses and no byte that an unlisted address would read as. -/
def cellsWf : List Host.Cell → Bool
  | [] => true
  | [c] => c.2 != 0
  | c :: d :: t => c.2 != 0 && decide (c.1 < d.1) && cellsWf (d :: t)

/-- The canonical form of the memories. -/
def Memory.wf (m : Memory) : Bool := cellsWf m.cells

/-- Does an address lie in a relocated block that was filled with POISON (R388 step 3)? -/
def State.inWiped (s : State) (a : Nat) : Bool :=
  match s.region a with
  | .hbmIntl p => s.mem.wiped.contains p || s.mem.wipedBlks.contains (s.blockKey p a)
  | _ => false

/-- Is a location marked POISON in its first copy, its second copy? -/
def State.bad1 (s : State) (a : Nat) : Bool :=
  s.mem.poison.contains (if (s.region a).isLine then lineOf a else a) ||
    (s.inWiped a && !s.mem.mended.contains (lineOf a))
def State.bad2 (s : State) (a : Nat) : Bool := s.mem.poison2.contains (lineOf a)

/-- Does a read of one byte meet poison (R371, R386, R388)? -/
def State.readsBad (s : State) (a : Nat) : Bool :=
  match s.serve a with
  | .dead => true
  | .no => false
  | .yes =>
    match s.region a with
    | .hbmMir p q => !((s.mirServes p a && !s.bad1 a) || (s.mirServes q a && !s.bad2 a))
    | _ => s.bad1 a

/-- Reads `n` bytes (R362, R378, R619): ACCESS if any byte is not there, poison if any byte reads as poison. -/
def State.read (s : State) (a n : Nat) : Rd :=
  let ix := List.range n
  if ix.any fun i => s.serve (a + i) == .no then .access
  else match ix.find? fun i => s.readsBad (a + i) with
    | some i => .poison (a + i)
    | none => .ok (memGets s.mem.cells a n)

/-- The line addresses that `n` bytes at `a` touch. -/
def linesOf (a n : Nat) : List Nat :=
  if n = 0 then [] else (List.range ((a + n - 1) / 64 - a / 64 + 1)).map fun i => 64 * (a / 64 + i)

/-- A mirrored line whose primary copy holds POISON while its secondary does not is rewritten (R386). -/
def State.mirrorFix (s : State) (a n : Nat) : State :=
  (linesOf a n).foldl
    (fun s l =>
      match s.region l with
      | .hbmMir p q =>
        if s.mirServes p l && s.bad1 l && s.mirServes q l && !s.bad2 l then
          { s with mem := { s.mem with poison := s.mem.poison.filter (· != l) } }.count pgMem
            Reg.MEM_TALLY_MIRROR_FIX 1
        else s
      | _ => s)
    s

/-- A read as a requester makes it: the value, and the repair of mirrored lines (R386). -/
def State.fetch (s : State) (a n : Nat) : State × Rd :=
  match s.read a n with
  | .ok bs => (s.mirrorFix a n, .ok bs)
  | r => (s, r)

/-- Marks or clears POISON at a location. -/
def State.mark (s : State) (a : Nat) (bad : Bool) : State :=
  let k := if (s.region a).isLine then lineOf a else a
  let both := match s.region a with
    | .hbmMir _ _ => true
    | _ => false
  { s with mem := { s.mem with
      poison := if bad then insertNat k s.mem.poison else s.mem.poison.filter (· != k)
      poison2 := if both then (if bad then insertNat k s.mem.poison2 else s.mem.poison2.filter (· != k))
                 else s.mem.poison2
      mended := if !s.inWiped a then s.mem.mended
                else if bad then s.mem.mended.filter (· != k) else insertNat k s.mem.mended } }

/-- MEM_LAST_UNCORR (R392): the line or byte address, who met it, and whether it already held POISON. -/
def State.noteBad (s : State) (a requester : Nat) (was : Bool) : State :=
  let k := if (s.region a).isLine then lineOf a else a
  let s := s.setReg pgMem Reg.MEM_LAST_UNCORR_LO (w32 k)
  s.setReg pgMem Reg.MEM_LAST_UNCORR_HI (w32 (k / 2 ^ 32 % 2 ^ 16 + requester * 2 ^ 16 + bit was * 2 ^ 20))

/-! ### Realvin packets (R471, R472, R476) -/

/-- Something leaves the device through a port or pad. -/
def State.send (s : State) (port : Nat) (bs : List Byte) : State :=
  { s with links := { s.links with sent := s.links.sent ++ [⟨port, s.airtime, bs⟩] } }

def pgRv (n : Nat) : Page := ⟨.rvLink, n⟩
def State.rv (s : State) (n : Nat) : RvSt := lookupD RvSt.reset n s.links.rv
def State.setRv (s : State) (n : Nat) (x : RvSt) : State :=
  { s with links := { s.links with rv := insertKey n x s.links.rv } }

/-- RV_STATE.LINK: 0 DOWN, 1 TRAINING, 2 UP, 3 RETRAIN. -/
def State.rvLink (s : State) (n : Nat) : Nat := s.fld (pgRv n) Reg.RV_STATE 0 2

/-- Where a link's packets are recorded as sent. -/
def rvPort (n : Nat) : Nat := 0x200 + n

/-- Entry of a link's tables: 0 outbound windows, 1 inbound windows, 2 queue map, 3 event filters (R484). -/
def RvSt.entry (x : RvSt) (tbl i : Nat) : List Word := lookupD [] (256 * tbl + i) x.tables

/-- A number with its least significant byte first, in 32-byte blocks. -/
def rvPad (bs : List Byte) : List Byte := bs ++ List.replicate ((32 - bs.length % 32) % 32) 0

/-- A packet as it travels (R471): TYPE, SEQ, ACK, NAK, the fields above bit 33 as one number, data; with its CRC. -/
def rvPacket (ty seq ack : Nat) (nak : Bool) (hi : Nat) (data : List Byte) : List Byte :=
  let d := rvPad data
  let h := ty + seq % 4096 * 2 ^ 4 + ack % 4096 * 2 ^ 16 + bit nak * 2 ^ 28 + d.length / 32 * 2 ^ 29 + hi * 2 ^ 33
  let c := crc32 (leBytes 32 h ++ d)
  leBytes 32 (h + c * 2 ^ 224) ++ d

/-- The ACK that a link sends: the last SEQ received intact. -/
def RvSt.ack (x : RvSt) : Nat := (x.rxSeq + 4095) % 4096

/-- The packet of a body. -/
def RvSt.packet (x : RvSt) (k : RvPkt) : List Byte :=
  match k.body with
  | .write a bs => rvPacket 1 k.seq x.ack false (a % 2 ^ 48 + bs.length * 2 ^ 48) bs
  | .enqueue q ws _ _ _ _ => rvPacket 2 k.seq x.ack false (q % 2 ^ 20) (ws.flatMap fun w => leBytes 4 w.toNat)
  | .event w => rvPacket 3 k.seq x.ack false w.toNat []

/-- A link takes a packet: it is sent and kept in the replay buffer, or waits for a place there (R471). -/
def State.rvTake (s : State) (n : Nat) (b : RvBody) : State :=
  let x := s.rv n
  if s.rvLink n < 2 then s
  else if x.replay.length ≥ 2048 ∨ !x.wait.isEmpty then s.setRv n { x with wait := x.wait ++ [b] }
  else
    let k : RvPkt := ⟨x.txSeq, b, s.airtime⟩
    let s := if s.rvLink n = 2 then s.send (rvPort n) (x.packet k) else s
    s.setRv n { x with replay := x.replay ++ [k], txSeq := (x.txSeq + 1) % 4096 }

/-- Runs of consecutive bytes. -/
def runsOf : List (Nat × Byte) → List (Nat × List Byte)
  | [] => []
  | (a, b) :: r =>
    match runsOf r with
    | (a', bs) :: t => if a + 1 = a' then (a, b :: bs) :: t else (a, [b]) :: (a', bs) :: t
    | [] => [(a, [b])]

/-- Bytes written locally inside the outbound windows of a link that is up go to its peer (R476). -/
def State.mirrorOut (s : State) (bs : List (Nat × Byte)) : State :=
  s.links.rv.foldl
    (fun s e =>
      (List.range 16).foldl
        (fun s w =>
          let t := e.2.entry 0 w
          let word (i : Nat) : Nat := (t.getD i 0).toNat
          let base := word 0 + word 1 * 2 ^ 32
          let inside := bs.filter fun b => decide (base ≤ b.1) && decide (b.1 < base + word 4 * 4096)
          (runsOf inside).foldl (fun s r => s.rvTake e.1 (.write (word 2 + word 3 * 2 ^ 32 + (r.1 - base)) r.2)) s)
        s)
    s

/-- The parts whose copies of a line a partial write finds failing: every serving copy of a mirrored line (R387). -/
def State.copyParts (s : State) (a : Nat) : List Page :=
  match s.region a with
  | .hbmMir p q => ([p, q].filter fun x => s.mirServes x a).map fun x => ⟨.hbmPc, x⟩
  | r => r.page.toList

/-- Enabled bytes of one 64-byte line are written (R341, R373, R374, R387): the new state, and whether the line
failed to verify. A write of all 64 bytes replaces the line and clears POISON. -/
def State.writeLine (s : State) (blk : Nat) (bs : List (Nat × Byte)) : State × Bool :=
  let cells := bs.foldl (fun m b => memPut m (blk + b.1) b.2) s.mem.cells
  let s1 := { s with mem := { s.mem with cells := cells } }
  if !(s.region blk).isLine then (bs.foldl (fun s b => s.mark (blk + b.1) false) s1, false)
  else if bs.length = 64 then (s1.mark blk false, false)
  else if s.readsBad blk then
    let tallied (s : State) (p : Page) : State :=
      (s.count pgMem Reg.MEM_TALLY_POISON_WR 1).count p Reg.MEM_BK_TALLY_POISON_WR 1
    (((s.copyParts blk).foldl tallied (s1.mark blk true)).noteBad blk 8 true, true)
  else (s1.mark blk false, false)

/-- The same, and what the links send of it (R476). -/
def State.writeSome (s : State) (blk : Nat) (bs : List (Nat × Byte)) : State × Bool :=
  let w := s.writeLine blk bs
  if s.links.rv.isEmpty then w else (w.1.mirrorOut (bs.map fun b => (blk + b.1, b.2)), w.2)

/-- Consecutive bytes within one line, as offsets from the line. -/
def lineBytes (a : Nat) (bs : List Byte) : List (Nat × Byte) :=
  (List.range bs.length).map fun i => (a % 64 + i, bs.getD i 0)

/-- The pieces of a write, one per 64-byte line. -/
def pieces : Nat → Nat → List Byte → List (Nat × List Byte)
  | 0, _, _ => []
  | fuel + 1, a, bs =>
    if bs.isEmpty then []
    else
      let n := 64 - a % 64
      (a, bs.take n) :: pieces fuel (a + n) (bs.drop n)

/-- Writes bytes (R342, R373, R374, R388, R619): pieces that are not there are discarded with ACCESS. -/
def State.write (s : State) (a : Nat) (bs : List Byte) : State × Wr :=
  (pieces (bs.length + 1) a bs).foldl
    (fun r p =>
      if (List.range p.2.length).all fun i => r.1.serve (p.1 + i) == .yes then
        let w := r.1.writeSome (lineOf p.1) (lineBytes p.1 p.2)
        (w.1, if w.2 then (if r.2 == .access then .access else .poison) else r.2)
      else (r.1, .access))
    (s, .ok)

/-- Little-endian words read and written. -/
def State.readW (s : State) (a : Nat) : Option Word :=
  match s.read a 4 with
  | .ok bs => some (w32 (ofLe bs))
  | _ => none

/-- `n` 32-bit words at an address, if every byte reads. -/
def State.readWords (s : State) (a n : Nat) : Option (List Word) :=
  match s.read a (4 * n) with
  | .ok bs => some ((List.range n).map fun i => w32 (ofLe ((bs.drop (4 * i)).take 4)))
  | _ => none

/-- The bytes of a list of words. -/
def wordBytes (ws : List Word) : List Byte := ws.flatMap fun w => leBytes 4 w.toNat

/-- A free value, and the counter advanced (Config.freeValue; log entry 1). -/
def State.fresh (s : State) (w : Nat) : BitVec w × State :=
  (Config.freeValue w s.free, { s with free := s.free + 1 })

/-! ### Cores and functions -/

/-- A physical core. -/
def State.core (s : State) (k : Nat) : Core := lookupD Core.reset k s.cores

/-- A physical core replaced. -/
def State.setCore (s : State) (k : Nat) (c : Core) : State := { s with cores := insertKey k c s.cores }

/-- Device physical address of a near address of core #k (R70, R363); `none` outside the near map. -/
def nearAddr (k a : Nat) : Option Nat :=
  if a < 0x40000 then some (coreMemBase + k * 0x40000 + a)
  else if 0x400000 ≤ a ∧ a < 0x800000 then some (clodMemBase + k / 17 * 0x400000 + (a - 0x400000))
  else none

/-- Bus Master Enable of a function as its page mirrors it (R491, R512). -/
def State.bme (s : State) (f : Nat) : Bool := s.fnUp f && s.fld ⟨.fnPage, f⟩ Reg.HIF_FN_CTRL 1 1 == 1

/-- A device write through the host window of function `f`, acting for function `g` (R490, R491): it lands at the
PCIe address HIF_FN_WIN + y, kept per function; otherwise it fails with ACCESS. -/
def State.hostWrite (s : State) (a g : Nat) (bs : List Byte) : State × Wr :=
  match s.region a with
  | .host f =>
    if f = g ∧ s.bme f then
      let y := (a - hostBase) % 0x20000000000
      let pa := f * 2 ^ 64 + s.reg64 ⟨.fnPage, f⟩ Reg.HIF_FN_WIN_LO + y
      ({ s with hostMem := memPuts s.hostMem pa bs }, .ok)
    else (s, .access)
  | _ => (s, .access)

/-- A write by an agent that acts for function `g` to device storage or to its host window. -/
def State.writeFor (s : State) (g a : Nat) (bs : List Byte) : State × Wr :=
  match s.region a with
  | .host _ => s.hostWrite a g bs
  | _ => s.write a bs

end Sys2Proof.Machine
end

