-- ==== Sys2Proof/Machine/CoreMem.lean ====
section
/-!
DEFINITION. Sys2Proof/Machine/CoreMem.lean: memory as one core sees it: near and far addresses (R70, R71), the store-gather
buffer and the read buffer (R74, R75), settling (R76), and the end of a task on a core (R89, R99).
-/
namespace Sys2Proof.Machine

/-- The pages of physical core #k. -/
def pgCore (k : Nat) : Page := ⟨.coreCtl, k⟩
def pgDbg (k : Nat) : Page := ⟨.coreDbg, k⟩

/-- What a far access may reach: core data, clod memory, deep buffer and HBM (R71). -/
def farReach (s : State) (a : Nat) : Bool := (s.region a).isMem

/-- Is the device address in core #k's own data memory (R74: stored to directly)? -/
def ownData (k a : Nat) : Bool :=
  decide (coreMemBase + k * 0x40000 ≤ a) && decide (a < coreMemBase + (k + 1) * 0x40000)

/-- Replaces bytes of a read-buffer line that a store covers (R75). -/
def rbStore (a : Nat) (bs : List Byte) (l : RbLine) : RbLine :=
  let hit (i : Nat) : Option Byte :=
    if a ≤ l.blk + i ∧ l.blk + i < a + bs.length then bs[l.blk + i - a]? else none
  { l with
    bytes := (List.range 64).map (fun i => (hit i).getD (l.bytes.getD i 0)),
    bad := l.bad.filter (fun i => (hit i).isNone) }

/-- Bytes put into a store-gather entry, later bytes replacing earlier ones (R74). -/
def sgMerge (e : SgEntry) (a : Nat) (bs : List Byte) : SgEntry :=
  let merged := (List.range bs.length).foldl (fun l i => insertKey (a + i - e.blk) (bs.getD i 0) l) e.bytes
  { e with bytes := merged }

/-- Entry `i` of core #k's store-gather buffer is written at its target with its code (R74). -/
def sgDrain (s : State) (k i : Nat) : State :=
  let c := s.core k
  match c.sg[i]? with
  | none => s
  | some e =>
    let s := s.setCore k { c with sg := c.sg.eraseIdx i }
    if s.serve e.blk == .yes then (s.writeSome e.blk e.bytes).1 else s

/-- Entry 0 drains until none is left, with fuel. -/
def sgDrainAll : Nat → State → Nat → State
  | 0, s, _ => s
  | n + 1, s, k => if (s.core k).sg.isEmpty then s else sgDrainAll n (sgDrain s k 0) k

/-- A settle (R76): every store-gather entry lands, then every read-buffer line is dropped. -/
def settleCore (s : State) (k : Nat) : State :=
  let s := sgDrainAll 16 s k
  s.setCore k { s.core k with rb := [] }

/-- The pieces of a store, one per aligned 64-byte block, into the store-gather buffer; a full buffer with no
matching entry drains one first (R74). -/
def sgStore (s : State) (k : Nat) (a : Nat) (bs : List Byte) : State :=
  (pieces (bs.length + 1) a bs).foldl
    (fun s p =>
      let blk := lineOf p.1
      let c := s.core k
      if c.sg.any (·.blk == blk) then
        s.setCore k { c with sg := c.sg.map fun e => if e.blk = blk then sgMerge e p.1 p.2 else e }
      else
        let s := if c.sg.length < 16 then s else sgDrain s k (Config.drainPick c.sg.length ((c.cnt * 512 + k) * 2 ^ 48 + p.1) % 16)
        let c := s.core k
        s.setCore k { c with sg := c.sg ++ [sgMerge ⟨blk, []⟩ p.1 p.2] })
    s

/-- A store by core #k of bytes at a device address (R74, R75). -/
def coreStore (s : State) (k a : Nat) (bs : List Byte) : State :=
  let c := s.core k
  let s := s.setCore k { c with rb := c.rb.map (rbStore a bs) }
  if ownData k a then
    let c := s.core k
    -- an entry left by a far store to the same block takes the later bytes too
    let sg' := c.sg.map fun e => if e.blk = lineOf a then sgMerge e a (bs.take (e.blk + 64 - a)) else e
    let s := s.setCore k { c with sg := sg' }
    (s.write a bs).1
  else sgStore s k a bs

/-- The byte that core #k's own earlier stores hold at an address, if any (R75). -/
def sgByte (c : Core) (a : Nat) : Option Byte :=
  match c.sg.find? fun e => e.blk == lineOf a with
  | some e => lookup? (a - lineOf a) e.bytes
  | none => none

/-- A line of memory brought into the read buffer (R74). -/
def rbFill (s : State) (k blk : Nat) : State :=
  let s1 := (s.fetch blk 64).1
  let l : RbLine := ⟨blk, memGets s1.mem.cells blk 64,
    (List.range 64).filter fun i => s1.serve (blk + i) != .yes || s1.readsBad (blk + i)⟩
  let c := s1.core k
  s1.setCore k
    (if c.rb.length < 4 then { c with rb := c.rb ++ [l] }
     else { c with rb := c.rb.set (c.rbNext % 4) l, rbNext := (c.rbNext + 1) % 4 })

/-- Makes sure the read buffer holds every block of an access that does not go to the core's own data memory. -/
def rbReady (s : State) (k a n : Nat) : State :=
  if ownData k a then s
  else (linesOf a n).foldl
    (fun s l => if (s.core k).rb.any (·.blk == l) then s else rbFill s k l) s

/-- One byte as core #k loads it: its own stores first, then the read buffer, then memory (R74, R75);
`none` for poison. -/
def coreByte (s : State) (k a : Nat) : Option Byte :=
  let c := s.core k
  match sgByte c a with
  | some b => some b
  | none =>
    if ownData k a then (if s.readsBad a then none else some (memByte s.mem.cells a))
    else
      match c.rb.find? fun l => l.blk == lineOf a with
      | some l => if l.bad.contains (a - l.blk) then none else some (l.bytes.getD (a - l.blk) 0)
      | none => if s.readsBad a then none else some (memByte s.mem.cells a)

/-- A load of `n` bytes by core #k at a device address (R73): the state after the access, and the bytes or poison. -/
def coreLoad (s : State) (k a n : Nat) : State × Option (List Byte) :=
  let s := rbReady s k a n
  let bs := (List.range n).map fun i => coreByte s k (a + i)
  (s, if bs.all (·.isSome) then some (bs.map fun b => b.getD 0) else none)

/-- Checks a near access of `n` bytes: in the near map, aligned to `al`, and served (R70, R72, R619). -/
def nearCheck (s : State) (k a n al : Nat) : Except OpFault Nat :=
  match nearAddr k a, nearAddr k (a + n - 1) with
  | some d, some e =>
    if a % al ≠ 0 ∨ e ≠ d + (n - 1) ∨ s.serve d == .no then .error ⟨0x11, 0, a⟩ else .ok d
  | _, _ => .error ⟨0x11, 0, a⟩

/-- Checks a far access: 48-bit address within reach, aligned, served; DETAIL carries address [47:32] (R71, R72). -/
def farCheck (s : State) (a n al : Nat) : Except OpFault Nat :=
  if a % al ≠ 0 ∨ !(farReach s a) ∨ !(farReach s (a + n - 1)) ∨ s.serve a == .no ∨ s.serve (a + n - 1) == .no then
    .error ⟨0x11, bitsOf a 32 16, a⟩
  else .ok a

/-- The far address {g(base+1)[15:0], g(base)} + offset (R71); an odd base raises ILLEGAL. -/
def farAddr (c : Core) (base : GReg) (off : Int) : Except OpFault Nat :=
  if base.toNat % 2 ≠ 0 then .error (illegal 1)
  else
    let hi := (readG c (base + 1)).toNat % 65536
    .ok (((hi * 2 ^ 32 + (readG c base).toNat : Int) + off) % (2 ^ 48 : Int)).toNat

/-- Near effective address base + offset, modulo 2^32. -/
def nearEa (c : Core) (base : GReg) (off : Int) : Nat :=
  (((readG c base).toNat : Int) + off) % (2 ^ 32 : Int) |>.toNat

/-- The masked region that ends now is measured into GVC_MASK_MAX (R94). -/
def maskEnd (s : State) (k : Nat) : State :=
  let c := s.core k
  match c.maskSince with
  | none => s
  | some t =>
    let d := min (s.airtime - t) 0xFFFF
    let s := s.setCore k { c with maskSince := none }
    if d > s.fld (pgCore k) Reg.GVC_MASK_MAX 0 16 then s.setFld (pgCore k) Reg.GVC_MASK_MAX 0 16 d else s

/-- WAIT_GROUP of a descriptor (R263). -/
def wgOf (ws : List Word) : Nat := bitsOf (ws.getD 7 0).toNat 0 16

/-- A task has left wait.ev: a deadlock of its group may be reported afresh (R298). -/
def leftWait (s : State) (it : Item) : State :=
  let g := wgOf it.words
  { s with fab := { s.fab with groups := s.fab.groups.map fun w =>
      if w.group = g ∧ w.fn = it.fn then { w with reported := false } else w } }

/-- Whatever the presented bundle of core #k waited for is withdrawn: its held enqueue, and its place in wait.ev; the
match state of its wait stays with the fabric (R101, R283). -/
def unwait (s : State) (k : Nat) : State :=
  let held := s.fab.held.filter fun h => h.who != .core k
  let items := s.fab.items.map fun i =>
    if i.phase == .dispatched && i.exec == some (.core k) then { i with inWait := false } else i
  let gone := s.fab.items.filter fun i => i.inWait && i.phase == .dispatched && i.exec == some (.core k)
  let s := gone.foldl leftWait { s with fab := { s.fab with held := held, items := items } }
  s.setCore k { s.core k with bundle := [], waiting := false, br := none, vresume := false, pushRes := none }

/-- The core becomes idle as in wait.task (R89, R99, R103); a pre-emption decided for it is withdrawn (R280). -/
def coreIdle (s : State) (k : Nat) : State :=
  let s := unwait (maskEnd s k) k
  let s := { s with fab := { s.fab with preempting := s.fab.preempting.filter fun p => p.2 != k } }
  s.setCore k { s.core k with run := .idle, preempt := false }

/-- ECAUSE as R86 lays it out. -/
def ecauseOf (cause : Nat) (sl : Slot) (detail : Nat) : Word :=
  w32 (cause + sl.code * 256 + detail % 65536 * 65536)

/-- A terminal cause on the core's side (R89): issued operations complete, the store-gather buffer drains, the cause is
recorded, and the core is idle. The report to the fabric is the caller's. -/
def coreTerminal (s : State) (k cause detail : Nat) : State :=
  let s := s.setCore k (landEvery (s.core k))
  let s := sgDrainAll 16 s k
  let s := s.setReg (pgCore k) Reg.GVC_LAST_ECAUSE (ecauseOf cause .A detail)
  let s := s.setReg (pgCore k) Reg.GVC_LAST_EPC (w32 ((s.core k).lastPc))
  coreIdle (s.tally (pgCore k) Reg.GVC_TALLY_ABANDON 0 16 1) k

end Sys2Proof.Machine
end

