-- ==== Sys2Proof/Machine/FabricOps.lean ====
section
/-!
DEFINITION. Sys2Proof/Machine/FabricOps.lean: the task fabric's shared operations: queue control blocks (R260), descriptors
(R263, R264), Sediment records (R302, R588), events and notes (R287 to R292), acceptance and overflow (R266, R281,
R282), service descriptors (R295, R296), ready lists (R269) and the end of tasks (R284, R286).
-/
namespace Sys2Proof.Machine

/-! ### Queue control blocks and descriptors -/

/-- The service queues 0xF_FFC0 + f (R259). -/
def isSvc (q : Nat) : Bool := decide (0xFFFC0 ≤ q) && decide (q < 0x100000)

/-- A QCB never written reads as zero (R261, R620). -/
def Qcb.empty : Qcb := ⟨List.replicate 6 0, false⟩

/-- The QCB of a queue; a service queue has its owner and is enabled (R259). -/
def State.qcb (s : State) (q : Nat) : Qcb :=
  if isSvc q then ⟨[w32 ((q - 0xFFFC0) * 2 ^ 12 + 2 ^ 18), 0, 0, 0, 0, 0], false⟩
  else lookupD Qcb.empty q s.fab.qcbs

def State.setQcb (s : State) (q : Nat) (c : Qcb) : State :=
  { s with fab := { s.fab with qcbs := insertKey q c s.fab.qcbs } }

/-- Bits of a word of a list of words. -/
def wfld (ws : List Word) (i lo w : Nat) : Nat := bitsOf (ws.getD i 0).toNat lo w

def Qcb.level (c : Qcb) : Nat := wfld c.words 0 0 4
def Qcb.cls (c : Qcb) : Nat := wfld c.words 0 4 4
def Qcb.overflow (c : Qcb) : Nat := wfld c.words 0 8 2
def Qcb.order (c : Qcb) : Nat := wfld c.words 0 10 2
def Qcb.owner (c : Qcb) : Nat := wfld c.words 0 12 6
def Qcb.enabled (c : Qcb) : Bool := wfld c.words 0 18 1 == 1
def Qcb.preempts (c : Qcb) : Bool := wfld c.words 0 19 1 == 1
def Qcb.abortLate (c : Qcb) : Bool := wfld c.words 0 20 1 == 1
def Qcb.noteEn (c : Qcb) : Bool := wfld c.words 0 21 1 == 1
def Qcb.resident (c : Qcb) : Bool := wfld c.words 0 22 1 == 1
def Qcb.traced (c : Qcb) : Bool := wfld c.words 0 23 1 == 1
def Qcb.depth (c : Qcb) : Nat := wfld c.words 1 0 17
def Qcb.pool (c : Qcb) : Nat := wfld c.words 1 17 10
def Qcb.noteQ (c : Qcb) : Nat := wfld c.words 2 0 20
def Qcb.body (c : Qcb) : Nat := (c.words.getD 4 0).toNat + 2 ^ 32 * wfld c.words 5 0 16

/-- Descriptor fields (R263, R264). -/
def dKind (ws : List Word) : Nat := wfld ws 0 0 4
def dTrig (ws : List Word) : Bool := wfld ws 0 4 1 == 1
def dPreemptible (ws : List Word) : Bool := wfld ws 0 5 1 == 1
def dChain (ws : List Word) : Bool := wfld ws 0 6 1 == 1
def dDonePost (ws : List Word) : Bool := wfld ws 0 7 1 == 1
def dPinExec (ws : List Word) : Bool := wfld ws 0 8 1 == 1
def dPinMem (ws : List Word) : Bool := wfld ws 0 9 1 == 1
def dPinCls (ws : List Word) : Nat := wfld ws 0 10 2
def dNbuf (ws : List Word) : Nat := wfld ws 0 12 5
def dPinInst (ws : List Word) : Nat := wfld ws 0 17 12
def dTag (ws : List Word) : Word := ws.getD 1 0
def dDeadline (ws : List Word) : Nat := (ws.getD 2 0).toNat + 2 ^ 32 * (ws.getD 3 0).toNat
def dGroup (ws : List Word) : Nat := wfld ws 7 0 16
/-- RUN_EST; a NOTE has an AIRTIME in its place (R263, R291). -/
def dRunEst (ws : List Word) : Nat := if dKind ws ≤ 1 then wfld ws 7 16 16 else 0
def dChainAddr (ws : List Word) : Nat := (ws.getD 8 0).toNat + 2 ^ 32 * wfld ws 9 0 16
def dChainQ (ws : List Word) : Nat := wfld ws 10 0 20
def dChainAlways (ws : List Word) : Bool := wfld ws 10 20 1 == 1
def dRunLimit (ws : List Word) : Nat := wfld ws 11 0 16
def dEntry (ws : List Word) : Nat := wfld ws 12 0 16
def dResume (ws : List Word) : Nat := wfld ws 12 16 16
def dImage (ws : List Word) : Nat := wfld ws 13 0 12
def dCmdAddr (ws : List Word) : Nat := (ws.getD 12 0).toNat + 2 ^ 32 * wfld ws 13 0 16
def dNotify (ws : List Word) : Nat := wfld ws 14 0 20

/-- The fields of a descriptor that must be zero (R263, R264, R265); a NOTE has the layout of R291 and is the fabric's own. -/
def dReservedOk (ws : List Word) : Bool :=
  decide (dKind ws > 1) ||
  (wfld ws 0 29 3 == 0 &&
   (!dTrig ws || wfld ws 6 21 11 == 0) &&
   (!dChain ws || (wfld ws 9 16 16 == 0 && wfld ws 10 21 11 == 0)) &&
   wfld ws 11 16 16 == 0 &&
   (if dKind ws = 0 then
     wfld ws 13 12 20 == 0 && (decide (dNbuf ws ≤ 2) || wfld ws 15 16 16 == 0)
    else
     wfld ws 13 16 16 == 0 && wfld ws 14 20 12 == 0 && (ws.getD 15 0) == 0))

/-- Descriptors accepted on a queue and not yet dispatched, shed or flushed (COUNT of R260). -/
def Item.counts (it : Item) : Bool :=
  it.phase == .armed || it.phase == .queued || (it.phase == .ready && !it.rerun)

def State.qCount (s : State) (q : Nat) : Nat := (s.fab.items.filter fun i => i.q == q && i.counts).length

/-- Armed descriptors in the trigger table (R268). -/
def State.armedCount (s : State) : Nat := (s.fab.items.filter fun i => i.phase == .armed).length

def State.item? (s : State) (sn : Nat) : Option Item := s.fab.items.find? fun i => i.sn == sn

/-- The dispatched and unreleased task of a TASKID (R272). -/
def State.task? (s : State) (tid : Word) : Option Item :=
  s.fab.items.find? fun i => !i.counts && i.taskid == tid

/-- Rewrites one item. -/
def State.updItem (s : State) (sn : Nat) (f : Item → Item) : State :=
  { s with fab := { s.fab with items := s.fab.items.map fun i => if i.sn = sn then f i else i } }

/-- Takes one item away. -/
def State.delItem (s : State) (sn : Nat) : State :=
  { s with fab := { s.fab with items := s.fab.items.filter fun i => i.sn != sn } }

/-- The lateness test at the present AIRTIME (R282). -/
def State.late (s : State) (ws : List Word) : Bool :=
  dDeadline ws != 0 && decide (s.airtime + 64 * dRunEst ws > dDeadline ws)

/-! ### Sediment records -/

/-- Offset of register `off` of Sediment ring `r` (R588). -/
def sedOff (off r : Nat) : Nat := off + 16 * r

/-- A slot whose record failed has unspecified contents (R588): free bytes, where device storage lies behind it. -/
def State.slotOpen (s : State) (a : Nat) : State :=
  if (s.region a).isMem then
    (List.range 32).foldl
      (fun s i =>
        let f := s.fresh 8
        { f.2 with mem := { f.2.mem with cells := memPut f.2.mem.cells (a + i) f.1 } })
      s
  else s

/-- Writes a 32-byte record to trace ring `r`: the state, and whether the record was taken and written with OK
(R303, R588). -/
def State.sediment (s : State) (r : Nat) (ws : List Word) : State × Bool :=
  let cfg := s.reg pgSed (sedOff Reg.SED_RING_CFG r)
  if !bitOf cfg.toNat 6 then (s, false)
  else
    let size := 2 ^ bitsOf cfg.toNat 0 5
    let ptr := sedOff Reg.SED_RING_PTR r
    let head := s.fld pgSed ptr 0 24
    let tail := s.fld pgSed (Reg.SED_RING_TAIL + 4 * r) 0 24
    if bitOf cfg.toNat 5 && (head + 1) % size == tail % size then (s, false)
    else
      let base := (s.reg pgSed (sedOff Reg.SED_RING_LO r)).toNat +
        2 ^ 32 * s.fld pgSed (sedOff Reg.SED_RING_HI r) 0 16
      let (s, w) := s.writeFor 0 (base + 32 * head) (wordBytes ws)
      let s := if w == .access then s.slotOpen (base + 32 * head) else s
      let s := s.setFld pgSed ptr 0 24 ((head + 1) % size)
      (if head + 1 ≥ size then s.setFld pgSed ptr 24 8 (s.fld pgSed ptr 24 8 + 1) else s, w == .ok)

/-- What a decision record reports (R302). -/
structure Decision where
  reason : Nat
  level : Nat
  cls : Nat
  q : Nat
  owner : Nat
  taskid : Word
  exec : Nat
  mcls : Nat
  tag : Nat
  deadline : Nat
  detail : Word
deriving DecidableEq, Repr

/-- Slack of word 5 (R302). -/
def slackWord (s : State) (deadline : Nat) : Word :=
  if deadline = 0 then 0x7FFFFFFF#32
  else
    let x : Int := ((deadline : Int) - s.airtime) / 64
    BitVec.ofInt 32 (max (-(2 ^ 31 : Int)) (min x (2 ^ 31 - 1)))

/-- Does a decision pass the trace filters (R304)? -/
def State.tracePasses (s : State) (d : Decision) : Bool :=
  let c := (s.reg pgFabric Reg.TFB_TRC_CTRL).toNat
  let r := (s.reg pgFabric Reg.TFB_TRC_QRANGE).toNat
  let blk := d.q / 16
  bitOf c 0 &&
  (!bitOf c 4 || ((s.qcb d.q).traced && decide (bitsOf r 0 16 ≤ blk) && decide (blk ≤ bitsOf r 16 16))) &&
  (!bitOf c 5 || bitsOf c 6 6 == d.owner) &&
  bitOf c (16 + d.level) &&
  decide (d.reason < 64) && bitOf (s.reg64 pgFabric Reg.TFB_TRC_REASON_LO) d.reason

/-- A decision of the fabric or of Tilth is traced; a record not written is tallied (R302, R303). -/
def State.trace (s : State) (d : Decision) : State :=
  if s.tracePasses d then
    let ws : List Word := [w32 s.airtime,
      w32 (bitsOf s.airtime 32 8 + d.reason * 2 ^ 8 + d.level * 2 ^ 16 + d.cls * 2 ^ 20),
      w32 (d.q + d.owner * 2 ^ 20), d.taskid,
      w32 (d.exec % 4096 + d.mcls * 2 ^ 12 + d.tag % 65536 * 2 ^ 16),
      slackWord s d.deadline, d.detail, 0]
    let (s', ok) := s.sediment (s.fld pgFabric Reg.TFB_TRC_CTRL 1 3) ws
    if ok then s' else s'.count pgFabric Reg.TFB_TALLY_TRACEDROP 1
  else s

/-- Physical instance of an executor as a record shows it (R302). -/
def Exec.num : Exec → Nat
  | .core k => k
  | .engine _ i => i
  | .host f _ => f

/-- The record of a decision about an item. -/
def State.traceItem (s : State) (reason : Nat) (it : Item) (detail : Word) : State :=
  let c := s.qcb it.q
  s.trace ⟨reason, c.level, c.cls, it.q, c.owner, it.taskid, (it.exec.map Exec.num).getD 0, 15,
    (dTag it.words).toNat, dDeadline it.words, detail⟩

/-- The record of a stall that begins (0x0D) or ends (0x0E) with an enqueue held by a queue (R283, R302). -/
def State.traceStall (s : State) (reason q : Nat) (ws : List Word) : State :=
  let c := s.qcb q
  s.trace ⟨reason, c.level, c.cls, q, c.owner, 0, 0, 15, (dTag ws).toNat, dDeadline ws, 0⟩

/-- An abort ends the stall of an enqueue that a queue holds for the core (R283). -/
def State.stallGone (s : State) (k : Nat) : State :=
  (s.fab.held.filter fun h => h.who == .core k).foldl (fun s h => s.traceStall 0x0E h.q h.words) s

/-! ### Events and notes -/

/-- The next sequence number of a source, and the count advanced (R287). -/
def State.nextSeq (s : State) (cls inst : Nat) : Nat × State :=
  let k := cls * 4096 + inst
  let n := lookupD 0 k s.fab.seqs
  (n, { s with fab := { s.fab with seqs := insertKey k ((n + 1) % 4096) s.fab.seqs } })

/-- The 64-bit event word (R287). -/
def evWord (cls inst seq : Nat) (low : Word) : DWord :=
  BitVec.ofNat 64 (low.toNat + seq % 4096 * 2 ^ 32 + inst % 4096 * 2 ^ 44 + cls % 256 * 2 ^ 56)

/-- A source posts an event: it takes its sequence number and is on its way to the fabric (R287, R288). -/
def State.postEv (s : State) (cls inst : Nat) (low : Word) (mk : DWord → EvDest) : State :=
  let (n, s) := s.nextSeq cls inst
  let w := evWord cls inst n low
  { s with fab := { s.fab with evs := s.fab.evs ++ [⟨w, mk w⟩] } }

/-- The words of a NOTE descriptor (R291). -/
def noteWords (s : State) (ev : DWord) (tag : Word) (q : Nat) (tid : Word) (deadline : Nat) (w30 w34 : Word) :
    List Word :=
  [2, tag, 0, 0, w32 ev.toNat, w32 (ev.toNat / 2 ^ 32), w32 s.airtime, w32 (s.airtime / 2 ^ 32),
   w32 q, tid, w32 deadline, w32 (deadline / 2 ^ 32), w30, w34, 0, 0]

/-- An event that another chapter addresses to a notify queue (R288, R291). -/
def State.postTo (s : State) (cls inst : Nat) (low : Word) (q : Nat) : State :=
  s.postEv cls inst low fun w => .queue q (noteWords s w 0 0 0 0 0 0)

/-- A published event (R288). -/
def State.publish (s : State) (cls inst : Nat) (low : Word) (owner : Nat) : State :=
  s.postEv cls inst low fun _ => .published owner

/-- May the item enter its ready list under its queue's ordering mode (R266)? -/
def State.mayReady (s : State) (it : Item) : Bool :=
  let ahead := s.fab.items.filter fun j => j.q == it.q && decide (j.sn < it.sn)
  match (s.qcb it.q).order with
  | 1 => !(ahead.any Item.counts)
  | 2 => ahead.isEmpty
  | _ => true

/-! ### Remote enqueue (R477) -/

/-- Is the body an enqueue? -/
def RvBody.isEnq : RvBody → Bool
  | .enqueue .. => true
  | _ => false

/-- Enqueue packets that a link has taken and the peer has not accepted. -/
def RvSt.enqs (x : RvSt) : List RvBody := (x.replay.map (·.body) ++ x.wait).filter RvBody.isEnq

/-- The valid map entry of a queue with a MODE (0 FORWARD, 1 MIRROR): link and entry, the lowest. -/
def State.rvMap (s : State) (q mode : Nat) : Option (Nat × Nat) :=
  s.links.rv.findSome? fun e =>
    ((List.range 256).find? fun i =>
      let w := e.2.entry 2 i
      wfld w 0 20 1 == 1 && wfld w 0 0 20 == q && wfld w 0 21 1 == mode).map fun i => (e.1, i)

/-- Has a link taken the item? -/
def RvSt.took (x : RvSt) (sn : Nat) : Bool :=
  x.enqs.any fun b => match b with
    | .enqueue _ _ _ _ mirror k => !mirror && k == sn
    | _ => false

/-- Descriptors of a FORWARD queue are handed to the link in acceptance order while its enqueue channel has room. -/
def State.rvPump (s : State) (n e q : Nat) : State :=
  (s.fab.items.filter fun i => i.q == q && i.phase == .queued).foldl
    (fun s i =>
      let x := s.rv n
      if s.rvLink n < 2 ∨ x.took i.sn ∨ x.enqs.length ≥ 256 then s
      else s.rvTake n (.enqueue (wfld (x.entry 2 e) 1 0 20) i.words e q false i.sn))
    s

/-- A descriptor accepted on a MIRROR queue is copied to the peer, or the copy is dropped (R477). -/
def State.rvMirror (s : State) (q sn : Nat) (ws : List Word) : State :=
  match s.rvMap q 1 with
  | none => s
  | some (n, e) =>
    let x := s.rv n
    if s.rvLink n < 2 ∨ x.enqs.length ≥ 256 then
      (s.count (pgRv n) Reg.RV_TALLY_MIRRORDROP 1).publish 0x08 n (w32 (0x75 * 2 ^ 24 + e)) (s.owner (pgRv n))
    else s.rvTake n (.enqueue (wfld (x.entry 2 e) 1 0 20) ws e q true sn)

/-- Queued items that may now enter their ready lists enter them, in acceptance order (R266, R269); those of a FORWARD queue
go to the link instead (R477). -/
def State.refresh (s : State) (q : Nat) : State :=
  match s.rvMap q 0 with
  | some (n, e) => s.rvPump n e q
  | none =>
    (s.fab.items.filter fun i => i.q == q && i.phase == .queued).foldl
      (fun s i =>
        if s.mayReady i then
          let s' := s.updItem i.sn fun j => { j with phase := .ready, readyAt := s.fab.nextReady }
          { s' with fab := { s'.fab with nextReady := s.fab.nextReady + 1 } }
        else s)
      s

/-- A descriptor accepted on a queue becomes an item, armed or queued (R266, R267). -/
def State.accept (s : State) (q fn : Nat) (ws : List Word) (iss : CmdIssuer) (kind : CmdKind) : State :=
  let it : Item :=
    { sn := s.fab.nextSn, q := q, words := ws, fn := fn, issuer := iss, kind := kind
      phase := if dTrig ws && dKind ws ≤ 1 then .armed else .queued
      readyAt := 0, ev := none, taskid := 0, exec := none, tStart := 0, runTc := 0, save := none
      wait := none, inWait := false, heldEv := [], cmdFail := false, ended := none, freed := false
      handles := [], bindWait := false, blocked := false, heldRec := false, rerun := false, fetchEnded := false, started := false, avoid := none }
  let fab := { s.fab with items := s.fab.items ++ [it], nextSn := s.fab.nextSn + 1 }
  let s' := ({ s with fab := fab }.count pgFabric Reg.TFB_TALLY_ENQ 1).refresh q
  if s.links.rv.isEmpty then s' else s'.rvMirror q it.sn ws

/-- A note reaches its queue: accepted, or discarded with NOTE_LOST and a tally (R292). -/
def State.note (s : State) (q : Nat) (ws : List Word) : State :=
  let c := s.qcb q
  if !isSvc q ∧ c.enabled ∧ s.qCount q < c.depth ∧ (c.cls = 0 ∨ c.cls = 9) then
    s.accept q c.owner ws .notify .block
  else
    let s := s.count pgFabric Reg.TFB_TALLY_NOTEDROP 1
    if isSvc q then s else s.setQcb q { s.qcb q with noteLost := true }

/-- A note the fabric posts about a descriptor of queue `q0` (R290, R291). -/
def State.fabNote (s : State) (toQ code pay : Nat) (tag : Word) (q0 : Nat) (tid : Word) (deadline : Nat)
    (w30 w34 : Word) : State :=
  let (n, s) := s.nextSeq 0x07 0
  let w := evWord 0x07 0 n (w32 (code * 2 ^ 24 + pay % 2 ^ 24))
  s.note toQ (noteWords s w tag q0 tid deadline w30 w34)

/-- A note about an item to its queue's NOTE_QUEUE, when NOTE_EN = 1 (R260). -/
def State.noteItem (s : State) (code hi : Nat) (q : Nat) (ws : List Word) (tid : Word) (w30 : Word) : State :=
  let c := s.qcb q
  if c.noteEn then
    s.fabNote c.noteQ code (hi * 2 ^ 16 + (dTag ws).toNat % 65536) (dTag ws) q tid (dDeadline ws) w30 0
  else s

/-! ### Shedding -/

/-- The SHED reasons of R290. -/
def shedLateEnqueue : Nat := 0
def shedLateQueued : Nat := 1
def shedFull : Nat := 2
def shedFlush : Nat := 3
def shedTilth : Nat := 4

/-- The CMD_DONE of a COMMAND (R142, R265): to the issuing task, whose tag becomes free, or to its NOTIFY queue. An
abandoned attempt's commands report to nobody (R577). -/
def State.cmdEvent (s : State) (it : Item) (inst status : Nat) : State :=
  let cls := 0x10 + (s.qcb it.q).cls
  match it.issuer with
  | .core k t g =>
    let c := s.core k
    let s := s.setCore k { c with tagsOut := c.tagsOut.filter (· != g) }
    if t = 0 then s
    else
      let s := if status = 0 then s
        else { s with fab := { s.fab with items := s.fab.items.map fun i =>
          if !i.counts && i.taskid == t then { i with cmdFail := true } else i } }
      s.postEv cls inst (w32 (0x30 * 2 ^ 24 + status % 256 * 2 ^ 16 + g % 65536)) fun _ => .task t
  | .notify =>
    s.postTo cls inst (w32 (0x30 * 2 ^ 24 + status % 256 * 2 ^ 16 + (dTag it.words).toNat % 65536)) (dNotify it.words)

/-- A queued, armed or ready descriptor is discarded with a SHED note and, but for a flush, a record (R282, R261, R329);
a COMMAND completes with SHED, source instance 0 (DEDUCED, log entry 14). -/
def State.shed (s : State) (it : Item) (reason traceReason : Nat) (detail : Word) : State :=
  let s := if traceReason = 0 then s else s.traceItem traceReason it detail
  let s := s.count pgFabric Reg.TFB_TALLY_SHED 1
  let s := s.noteItem 0x42 reason it.q it.words 0 0
  let s := if dKind it.words = 1 then s.cmdEvent it 0 0x05 else s
  (s.delItem it.sn).refresh it.q

/-- An arriving descriptor is discarded with status DROPPED and a SHED note (R281, R282). -/
def State.dropShed (s : State) (q : Nat) (ws : List Word) (reason : Nat) : State :=
  let c := s.qcb q
  let s := s.trace ⟨(if reason = shedFull then 0x0A else 0x07), c.level, c.cls, q, c.owner, 0, 0, 15,
    (dTag ws).toNat, dDeadline ws, 0⟩
  let s := (s.count pgFabric Reg.TFB_TALLY_SHED 1).count pgFabric Reg.TFB_TALLY_DROP 1
  s.noteItem 0x42 reason q ws 0 0

/-- An arriving descriptor is discarded with status DROPPED and a DROPPED note (R281, R301). -/
def State.dropNewest (s : State) (q : Nat) (ws : List Word) : State :=
  let c := s.qcb q
  let s := s.trace ⟨0x0A, c.level, c.cls, q, c.owner, 0, 0, 15, (dTag ws).toNat, dDeadline ws, 0⟩
  (s.count pgFabric Reg.TFB_TALLY_DROP 1).noteItem 0x43 0 q ws 0 0

/-! ### The end of a task -/

/-- A task completes: `byDone` with its STATUS, or a cause of R290; its executor is let go (R276). -/
def State.endTask (s : State) (sn : Nat) (byDone : Bool) (cause : Nat) : State :=
  s.updItem sn fun i =>
    { i with
        phase := .completed
        runTc := if i.phase = .dispatched then i.runTc + (s.airtime - i.tStart) else i.runTc
        ended := some ⟨byDone, cause⟩
        exec := i.exec
        wait := none
        inWait := false }

/-- A suspended task leaves its core's list (R279). -/
def State.unsuspend (s : State) (k : Nat) (tid : Word) : State :=
  let c := s.core k
  s.setCore k { c with suspended := c.suspended.filter (· != tid.toNat) }

/-- An abort of a dispatched and unreleased task (R284, R285, R286): terminal cause ABORT on a core, and the task
fails with the reason. A task already ended is left alone. -/
def State.abortTask (s : State) (it : Item) (reason : Nat) : State :=
  if it.phase == .dispatched || it.phase == .suspended then
    let s := s.count pgFabric Reg.TFB_TALLY_ABORT 1
    let s := s.traceItem 0x0B it (w32 reason)
    let s := match it.exec, it.phase with
      | some (.core k), .dispatched => coreTerminal (s.stallGone k) k 0x22 reason
      | some (.core k), .suspended => s.unsuspend k it.taskid
      | _, _ => s
    (s.endTask it.sn false reason).updItem it.sn fun i => { i with save := none }
  else s

/-- The commands that a task issued are nobody's any more: their completions are consumed and discarded (R577). -/
def State.orphan (s : State) (tid : Word) : State :=
  let own (i : Item) : Item := match i.issuer with
    | .core k t g => if t = tid then { i with issuer := .core k 0 g } else i
    | .notify => i
  { s with fab := { s.fab with items := s.fab.items.map own } }

/-- An attempt of a core task is abandoned (R577): the first is to be placed again, the second fails. -/
def State.abandonTask (s : State) (it : Item) (fetch : Bool) : State :=
  let s := s.orphan it.taskid
  if it.rerun then s.endTask it.sn false (if fetch then 0x20 else 0x22)
  else
    s.updItem it.sn fun i =>
      { i with
          phase := .abandoned
          runTc := 0
          wait := none
          inWait := false
          heldEv := []
          save := none
          avoid := i.exec
          fetchEnded := fetch
          rerun := true }

/-! ### Service descriptors -/

/-- WG_OPEN (R296). -/
def State.wgOpenOp (s : State) (fn group sup : Nat) (ext : Bool) : State :=
  if group = 0 ∨ s.fab.groups.length ≥ 4096 ∨ s.fab.groups.any (fun g => g.fn == fn && g.group == group) then
    s.fabNote sup 0x46 group 0 0 0 0 0 0
  else { s with fab := { s.fab with groups := s.fab.groups ++ [⟨fn, group, sup, ext, false⟩] } }

/-- WG_CLOSE (R296). -/
def State.wgCloseOp (s : State) (fn group : Nat) : State :=
  { s with fab := { s.fab with groups := s.fab.groups.filter fun g => !(g.fn == fn && g.group == group) } }

/-- POST by a core (its logical number) or by a function's host (R287, R295). -/
def State.postOp (s : State) (fn : Nat) (core : Option Nat) (payload : Word) : State :=
  if payload.toNat < 0x80000000 then s.count pgFabric Reg.TFB_TALLY_NOTEDROP 1
  else
    match core with
    | some n => s.publish 0x04 n payload fn
    | none => s.publish 0x05 fn payload fn

/-- ABORT (R286): only a TASK of the producer's function on a core or host executor, or suspended. -/
def State.abortOp (s : State) (fn : Nat) (tid : Word) : State :=
  match s.task? tid with
  | some it =>
    if dKind it.words = 0 ∧ it.fn = fn then s.abortTask it 0x0034 else s
  | none => s

/-- Logical number of a physical core, as its page shows it (R106). -/
def State.coreLogical (s : State) (k : Nat) : Nat := s.fld (pgCore k) Reg.GVC_IDENT 0 8

/-- A service descriptor takes effect (R295). -/
def State.service (s : State) (fn : Nat) (ws : List Word) (core : Option Nat) : State :=
  match dKind ws with
  | 3 => s.wgOpenOp fn (wfld ws 1 0 16) (wfld ws 2 0 20) (wfld ws 2 20 1 == 1)
  | 4 => s.wgCloseOp fn (wfld ws 1 0 16)
  | 5 => s.postOp fn core (ws.getD 2 0)
  | 6 => s.abortOp fn (ws.getD 2 0)
  | _ => s

/-! ### Enqueue -/

/-- The outcome of an enqueue as its producer sees it (R100). -/
inductive Enq where
  | accepted
  | dropped
  | refused
  | held
deriving DecidableEq, Repr

/-- Does the queue accept the kind from a producer (R265)? -/
def kindAccepted (cls kind : Nat) : Bool :=
  (kind == 0 && (cls == 0 || cls == 9)) || (kind == 1 && decide (1 ≤ cls) && decide (cls ≤ 8))

/-- Is the queue full for this descriptor: COUNT at DEPTH_LIMIT, or an arm with a full trigger table (R266, R268)? -/
def State.fullFor (s : State) (q : Nat) (ws : List Word) : Bool :=
  decide (s.qCount q ≥ (s.qcb q).depth) || (dTrig ws && decide (s.armedCount ≥ 1048576))

/-- Late descriptors queued on a DROP_LATE queue, armed ones apart, are shed, oldest first (R281; log entry 15). -/
def State.shedLate (s : State) (q : Nat) : State :=
  (s.fab.items.filter fun i => i.q == q && i.counts && i.phase != .armed).foldl
    (fun s i => if s.late i.words then s.shed i shedLateQueued 0x08 0 else s) s

/-- Which core a held or accepted enqueue came from, for POST (R287). -/
def Producer.coreOf (s : State) : Producer → Option Nat
  | .core k => some (s.coreLogical k)
  | _ => none

/-- An enqueue arrives at a queue (R265, R266, R268, R281, R282, R295): the state, and accepted, dropped, refused or
held. `mayHold` is false for a producer that is never held. -/
def State.enqueue (s : State) (q fn : Nat) (ws : List Word) (iss : CmdIssuer) (kind : CmdKind) (who : Producer)
    (mayHold : Bool) : State × Enq :=
  let c := s.qcb q
  if isSvc q then
    if q = 0xFFFC0 + fn ∧ 3 ≤ dKind ws ∧ dKind ws ≤ 6 then (s.service fn ws (who.coreOf s), .accepted)
    else (s, .refused)
  else if !c.enabled ∨ c.owner ≠ fn ∨ !kindAccepted c.cls (dKind ws) then (s, .refused)
  else
    let s := if c.overflow = 2 ∧ s.fullFor q ws then s.shedLate q else s
    if s.fullFor q ws then
      if c.overflow = 0 then
        if mayHold then
          let s := s.count pgFabric Reg.TFB_TALLY_STALL 1
          let s := s.traceStall 0x0D q ws
          ({ s with fab := { s.fab with held := s.fab.held ++ [⟨q, fn, ws, iss, kind, who⟩] } }, .held)
        else (s, .held)
      else if c.overflow = 2 then (s.dropShed q ws shedFull, .dropped)
      else (s.dropNewest q ws, .dropped)
    else if c.overflow = 2 ∧ s.late ws then (s.dropShed q ws shedLateEnqueue, .dropped)
    else (s.accept q fn ws iss kind, .accepted)

/-- Arrived descriptors are enqueued in order until one is held (R477). -/
def rvDeliver : List RvBody → State → Nat → State
  | [], s, _ => s
  | b :: r, s, n =>
    match b with
    | .enqueue q ws e _ _ _ =>
      if s.fab.held.any fun h => h.who == .rv n then s.setRv n { s.rv n with stalled := (s.rv n).stalled ++ (b :: r) }
      else
        let iss : CmdIssuer := .notify
        rvDeliver r (s.enqueue q e ws iss .block (.rv n) true).1 n
    | _ => rvDeliver r s n

/-! ### Waits and triggers -/

/-- Does an event match a trigger or a match entry of three words (R293)? -/
def evMatches (value mask src : Word) (w : DWord) : Bool :=
  let n := w.toNat
  bitsOf src.toNat 21 11 == 0 &&
  bitsOf n 56 8 == bitsOf src.toNat 12 8 &&
  (bitOf src.toNat 20 || bitsOf n 44 12 == bitsOf src.toNat 0 12) &&
  ((w32 n ^^^ value) &&& mask) == 0

/-- A match entry of four words; word 3 must be zero (R293). -/
def entryMatches (e : List Word) (w : DWord) : Bool :=
  e.getD 3 0 == 0 && evMatches (e.getD 0 0) (e.getD 1 0) (e.getD 2 0) w

/-- The lowest-numbered entry that an event matches and that is not yet marked (R294). -/
def Wait.hit (wt : Wait) (w : DWord) : Option Nat :=
  (List.range wt.entries.length).find? fun i =>
    !(wt.marks.contains i) && entryMatches (wt.entries.getD i []) w

/-- An event offered to a wait: the marks after it, and whether it marked an entry (R294). -/
def Wait.offer (wt : Wait) (w : DWord) : Wait × Bool :=
  match wt.hit w with
  | some i => ({ wt with marks := insertNat i wt.marks }, true)
  | none => (wt, false)

/-- Is the wait's condition met (R101)? -/
def Wait.met (wt : Wait) : Bool :=
  if wt.any then !wt.marks.isEmpty else wt.marks.length == wt.entries.length

/-- The bitmask of matched entries (R101). -/
def Wait.mask (wt : Wait) : Word := w32 (wt.marks.foldl (fun m i => m + 2 ^ i) 0)

/-- Held task-addressed events are matched first, oldest first; one that marks an entry is consumed (R294). -/
def drainHeld (wt : Wait) : List DWord → Wait × List DWord
  | [] => (wt, [])
  | w :: ws =>
    let (wt', used) := wt.offer w
    let (wt'', rest) := drainHeld wt' ws
    (wt'', if used then rest else w :: rest)

/-- A wait opens, or an open wait with the same list address goes on (R294). -/
def State.openWait (s : State) (sn addr : Nat) (entries : List (List Word)) (any : Bool) : State :=
  match s.item? sn with
  | none => s
  | some it =>
    let again := match it.wait with
      | some w => w.addr == addr
      | none => false
    if again then s
    else
      let (w, rest) := drainHeld ⟨addr, entries, any, []⟩ it.heldEv
      s.updItem sn fun i => { i with wait := some w, heldEv := rest }

/-- An item's descriptor after its trigger was released: bytes 0x10 to 0x17 hold the event (R267). -/
def Item.released (it : Item) (w : DWord) : Item :=
  { it with
      phase := .queued
      ev := some w
      words := (it.words.set 4 (w32 w.toNat)).set 5 (w32 (w.toNat / 2 ^ 32)) }

end Sys2Proof.Machine
end

