-- ==== Sys2Proof/Machine/Float.lean ====
section
/-!
DEFINITION. Sys2Proof/Machine/Float.lean: binary16 and binary32 as R119 and R169 define them:
round to nearest even, subnormal operands and results flushed to zero of the same sign, and one
canonical quiet NaN. Values are bit patterns (Nat); every operation computes exactly and narrows once.
-/
namespace Sys2Proof.Machine

/-- A binary interchange format: exponent bits and stored fraction bits. -/
structure FFmt where
  e : Nat
  m : Nat
deriving DecidableEq, Repr

/-- IEEE binary16. -/
def f16 : FFmt := ⟨5, 10⟩
/-- IEEE binary32. -/
def f32 : FFmt := ⟨8, 23⟩

/-- The width of the format in bits. -/
def FFmt.width (q : FFmt) : Nat := 1 + q.e + q.m
/-- The exponent bias. -/
def FFmt.bias (q : FFmt) : Nat := 2 ^ (q.e - 1) - 1
/-- The canonical quiet NaN of R119: 0x7E00 and 0x7FC0_0000. -/
def FFmt.nan (q : FFmt) : Nat := (2 ^ q.e - 1) * 2 ^ q.m + 2 ^ (q.m - 1)
/-- Infinity with a sign. -/
def FFmt.inf (q : FFmt) (s : Bool) : Nat := bit s * 2 ^ (q.e + q.m) + (2 ^ q.e - 1) * 2 ^ q.m
/-- Zero with a sign. -/
def FFmt.zero (q : FFmt) (s : Bool) : Nat := bit s * 2 ^ (q.e + q.m)

/-- What a bit pattern denotes; a finite number is m × 2^e. -/
inductive FVal where
  | nan
  | inf (s : Bool)
  | fin (s : Bool) (m : Nat) (e : Int)
deriving DecidableEq, Repr

/-- Reads a pattern; a subnormal operand is zero of the same sign (R119). -/
def fDec (q : FFmt) (x : Nat) : FVal :=
  let s := bitOf x (q.e + q.m)
  let ex := bitsOf x q.m q.e
  let fr := bitsOf x 0 q.m
  if ex = 2 ^ q.e - 1 then (if fr = 0 then .inf s else .nan)
  else if ex = 0 then .fin s 0 0
  else .fin s (2 ^ q.m + fr) ((ex : Int) - q.bias - q.m)

/-- Rounds the exact value ±m × 2^e (with a sticky flag for a non-zero remainder below it)
to the format: nearest even, overflow to infinity, subnormal results to zero (R119). -/
def fRound (q : FFmt) (s : Bool) (m : Nat) (e : Int) (sticky : Bool) : Nat :=
  if m = 0 then q.zero s else
    -- two guard bits keep the sticky flag below the rounding position
    let m4 := 4 * m + bit sticky
    let e4 := e - 2
    let len := bitLen 4096 m4
    let sh : Int := (len : Int) - (q.m + 1)
    let (r, er) : Nat × Int :=
      if sh > 0 then ((rnd false (m4 : Int) sh.toNat).toNat, e4 + sh)
      else (m4 * 2 ^ (-sh).toNat, e4 + sh)
    let (r, er) := if r ≥ 2 ^ (q.m + 1) then (r / 2, er + 1) else (r, er)
    let ex : Int := er + q.m + q.bias
    if ex ≥ 2 ^ q.e - 1 then q.inf s
    else if ex ≤ 0 then q.zero s
    else bit s * 2 ^ (q.e + q.m) + ex.toNat * 2 ^ q.m + (r - 2 ^ q.m)

/-- Any pattern in the form a result takes: one NaN, no subnormals (R119). -/
def fCanon (q : FFmt) (x : Nat) : Nat :=
  match fDec q x with
  | .nan => q.nan
  | .inf s => q.inf s
  | .fin s m e => fRound q s m e false

/-- The sign bit turned over. -/
def fNeg (q : FFmt) (x : Nat) : Nat :=
  let h := 2 ^ (q.e + q.m)
  if x % (2 * h) ≥ h then x % (2 * h) - h else x % (2 * h) + h

/-- Sign of a pattern. -/
def fSign (q : FFmt) (x : Nat) : Bool := bitOf x (q.e + q.m)

/-- Is the pattern a NaN? -/
def fIsNan (q : FFmt) (x : Nat) : Bool := fDec q x == .nan

/-- Is the pattern finite? -/
def fIsFin (q : FFmt) (x : Nat) : Bool :=
  match fDec q x with
  | .fin .. => true
  | _ => false

/-- A finite value as an integer scaled by 2^(-e0), for an e0 at or below its exponent. -/
def fScaled (s : Bool) (m : Nat) (e e0 : Int) : Int :=
  let v : Int := m * 2 ^ (e - e0).toNat
  if s then -v else v

/-- Addition, rounded once. -/
def fAdd (q : FFmt) (a b : Nat) : Nat :=
  match fDec q a, fDec q b with
  | .nan, _ => q.nan
  | _, .nan => q.nan
  | .inf s, .inf t => if s = t then q.inf s else q.nan
  | .inf s, _ => q.inf s
  | _, .inf t => q.inf t
  | .fin s m e, .fin t n f =>
    if m = 0 ∧ n = 0 then q.zero (s && t)
    else
      let e0 := if m = 0 then f else if n = 0 then e else min e f
      let v := (if m = 0 then 0 else fScaled s m e e0) + (if n = 0 then 0 else fScaled t n f e0)
      if v = 0 then q.zero false
      else fRound q (decide (v < 0)) v.natAbs e0 false

/-- Subtraction, rounded once. -/
def fSub (q : FFmt) (a b : Nat) : Nat := if fIsNan q b then q.nan else fAdd q a (fNeg q b)

/-- Multiplication, rounded once. -/
def fMul (q : FFmt) (a b : Nat) : Nat :=
  match fDec q a, fDec q b with
  | .nan, _ => q.nan
  | _, .nan => q.nan
  | .inf s, .inf t => q.inf (s != t)
  | .inf s, .fin t n _ => if n = 0 then q.nan else q.inf (s != t)
  | .fin s m _, .inf t => if m = 0 then q.nan else q.inf (s != t)
  | .fin s m e, .fin t n f => fRound q (s != t) (m * n) (e + f) false

/-- Division, rounded once. -/
def fDiv (q : FFmt) (a b : Nat) : Nat :=
  match fDec q a, fDec q b with
  | .nan, _ => q.nan
  | _, .nan => q.nan
  | .inf _, .inf _ => q.nan
  | .inf s, .fin t _ _ => q.inf (s != t)
  | .fin s _ _, .inf t => q.zero (s != t)
  | .fin s m e, .fin t n f =>
    if n = 0 then (if m = 0 then q.nan else q.inf (s != t))
    else
      let k := 2 * q.m + 4
      let num := m * 2 ^ k
      fRound q (s != t) (num / n) (e - f - k) (decide (num % n ≠ 0))

/-- Integer square root by bits, from bit `k` down. -/
def isqrtGo : Nat → Nat → Nat → Nat
  | 0, x, r => if (r + 1) * (r + 1) ≤ x then r + 1 else r
  | k + 1, x, r =>
    let r' := r + 2 ^ (k + 1)
    isqrtGo k x (if r' * r' ≤ x then r' else r)

/-- Integer square root of a number below 2^128. -/
def isqrt (x : Nat) : Nat := isqrtGo 64 x 0

/-- Square root, rounded once. -/
def fSqrt (q : FFmt) (a : Nat) : Nat :=
  match fDec q a with
  | .nan => q.nan
  | .inf s => if s then q.nan else q.inf false
  | .fin s m e =>
    if m = 0 then q.zero s
    else if s then q.nan
    else
      let k := 2 * q.m + 6
      let k := if (e - k) % 2 = 0 then k else k + 1
      let x := m * 2 ^ k
      let r := isqrt x
      fRound q false r ((e - k) / 2) (decide (r * r ≠ x))

/-- a < b for two patterns that are not NaN; +0 and -0 are equal. -/
def fLt (q : FFmt) (a b : Nat) : Bool :=
  match fDec q a, fDec q b with
  | .nan, _ => false
  | _, .nan => false
  | .inf s, .inf t => s && !t
  | .inf s, .fin .. => s
  | .fin .., .inf t => !t
  | .fin s m e, .fin t n f =>
    let e0 := min e f
    decide ((if m = 0 then 0 else fScaled s m e e0) < (if n = 0 then 0 else fScaled t n f e0))

/-- The minimum of R120: a NaN operand yields the other operand; equal values yield a. -/
def fMin (q : FFmt) (a b : Nat) : Nat :=
  if fIsNan q a then fCanon q b else if fIsNan q b then fCanon q a
  else if fLt q b a then fCanon q b else fCanon q a

/-- The maximum of R120. -/
def fMax (q : FFmt) (a b : Nat) : Nat :=
  if fIsNan q a then fCanon q b else if fIsNan q b then fCanon q a
  else if fLt q a b then fCanon q b else fCanon q a

/-- The integer `x × 2^e` in the format, rounded once (R121). -/
def fOfScaled (q : FFmt) (x : Int) (e : Int) : Nat := fRound q (decide (x < 0)) x.natAbs e false

/-- Conversion between two formats (R121: f16 to f32 and back). -/
def fConv (p q : FFmt) (x : Nat) : Nat :=
  match fDec p x with
  | .nan => q.nan
  | .inf s => q.inf s
  | .fin s m e => fRound q s m e false

/-- x × 2^k as an exact integer plus a count of fraction bits: (n, t) stands for n ÷ 2^t. -/
def fFixed (q : FFmt) (x : Nat) (k : Int) : Option (Int × Nat) :=
  match fDec q x with
  | .fin s m e =>
    let e' := e + k
    let v : Int := if s then -(m : Int) else m
    some (if e' ≥ 0 then (v * 2 ^ e'.toNat, 0) else (v, (-e').toNat))
  | _ => none

/-- The value 1 of a format. -/
def FFmt.one (q : FFmt) : Nat := q.bias * 2 ^ q.m

end Sys2Proof.Machine
end

