-- ==== Sys2Proof/Machine/VectorOps.lean ====
section
/-!
DEFINITION. Sys2Proof/Machine/VectorOps.lean: what each slot V operation without memory access computes (R107 to R126).
-/
namespace Sys2Proof.Machine

/-- VTYPE.ET, VTYPE.BFPW and VL.COUNT (R109, R110). -/
def vET (c : Core) : Nat := bitsOf c.vtype.toNat 0 4
def vN (c : Core) : Nat := bitsOf c.vtype.toNat 4 5
def vCount (c : Core) : Nat := bitsOf c.vl.toNat 0 9
/-- RMODE.TRUNC and RMODE.WRAP (R116). -/
def vTrunc (c : Core) : Bool := bitOf c.rmode.toNat 0
def vWrap (c : Core) : Bool := bitOf c.rmode.toNat 1

/-- Element size in bits of a type; a bfp element is handled by blocks (R109). -/
def etBits : Nat → Nat
  | 0 => 8 | 1 => 16 | 2 => 32 | 3 => 16 | 4 => 32 | 5 => 32 | 6 => 64 | _ => 32

/-- Capacity of an operand in elements of a type; PRB blocks for bfp (R109). -/
def etCap (long : Bool) (et : Nat) : Nat :=
  if et = 7 then (if long then 5 else 0) else (if long then 2048 else 512) / etBits et

/-- Effective count for operands of the given types (R110). -/
def effCount (c : Core) (long : Bool) (ets : List Nat) : Nat :=
  ets.foldl (fun m e => min m (etCap long e)) (vCount c)

/-- Is the type an integer, a float, or one of the two complex ones (R109)? -/
def isIntT (et : Nat) : Bool := et ≤ 2
def isFltT (et : Nat) : Bool := et == 3 || et == 4

/-- The format of a floating type. -/
def fltOf (et : Nat) : FFmt := if et = 3 then f16 else f32

/-- The checks of R112 that every V operation passes, then those its definition adds. A long operand's field
must have its low two bits zero (R136). -/
def vGuard (c : Core) (long : Bool) (ops : List Grp) (types : List Nat) (k : Except OpFault OpOut) :
    Except OpFault OpOut :=
  if vET c ≥ 8 ∨ ¬ types.contains (vET c) ∨ (vET c = 7 ∧ (vN c = 0 ∨ vN c > 16 ∨ !long)) ∨
     (long ∧ ops.any fun G => decide (G.toNat % 4 ≠ 0))
  then .error (illegal 1) else k

/-- Element results and whether any of them saturated, as writes of latency 6 (R62, R118). -/
def vOut (regs : List Nat) (s : Nat) (els : List (Nat × (Nat × Bool))) : OpOut :=
  let ws := elemWrites regs s (els.map fun e => (e.1, e.2.1))
  let sat := els.any fun e => e.2.2
  { wr := ws.map (fun w => (6, w)) ++ (if sat then [(6, .satf)] else []) }

/-- A narrowed integer as a pattern of `n` bits. -/
def npat (wrap : Bool) (n : Nat) (y : Int) : Nat × Bool :=
  let r := narrow wrap y n
  (pat n r.1, r.2)

/-- A per-component result on a cq16 element (R22). -/
def cqMap (f : Int → Nat × Bool) (x : Nat) : Nat × Bool :=
  let i := f (sx 16 x)
  let q := f (sx 16 (x / 65536))
  (i.1 + 65536 * q.1, i.2 || q.2)

/-- A per-component result on two cq16 elements. -/
def cqMap2 (f : Int → Int → Nat × Bool) (x y : Nat) : Nat × Bool :=
  let i := f (sx 16 x) (sx 16 y)
  let q := f (sx 16 (x / 65536)) (sx 16 (y / 65536))
  (i.1 + 65536 * q.1, i.2 || q.2)

/-- The exact complex product of two cq16 elements, b conjugated on request (R120, R123). -/
def cqProd (cj : Bool) (x y : Nat) : Int × Int :=
  let aI := sx 16 x
  let aQ := sx 16 (x / 65536)
  let bI := sx 16 y
  let bQ := if cj then -(sx 16 (y / 65536)) else sx 16 (y / 65536)
  (aI * bI - aQ * bQ, aI * bQ + aQ * bI)

/-- cf32: two binary32 halves, each product and each sum rounded separately (R119). -/
def cfMul (cj : Bool) (x y : Nat) : Nat :=
  let aI := x % 2 ^ 32
  let aQ := x / 2 ^ 32
  let bI := y % 2 ^ 32
  let bQ := if cj then fNeg f32 (y / 2 ^ 32) else y / 2 ^ 32
  fSub f32 (fMul f32 aI bI) (fMul f32 aQ bQ) + 2 ^ 32 * fAdd f32 (fMul f32 aI bQ) (fMul f32 aQ bI)

/-- Mantissa k (0 to 23, I then Q per element) of block p, and its exponent (R113). -/
def bfpMant (c : Core) (regs : List Nat) (p k : Nat) : Int := sx 16 (getElem c regs 16 (24 * p + k))
def bfpExp (c : Core) (regs : List Nat) (p : Nat) : Nat := getElem c regs 8 (240 + p) % 16

/-- The 24 rounded components at exponent e (R115). -/
def bfpTry (trunc : Bool) (xs : List Int) (s e : Nat) : List Int := xs.map fun x => rnd trunc x (s + e)

/-- Do all components fit N bits? -/
def bfpFits (n : Nat) (ys : List Int) : Bool :=
  ys.all fun y => decide (-(2 ^ (n - 1) : Int) ≤ y) && decide (y ≤ 2 ^ (n - 1) - 1)

/-- Smallest fitting exponent at or above e, searching with fuel (R115). -/
def bfpFind (trunc : Bool) (n : Nat) (xs : List Int) (s : Nat) : Nat → Nat → Option Nat
  | 0, _ => none
  | fuel + 1, e => if bfpFits n (bfpTry trunc xs s e) then some e else bfpFind trunc n xs s fuel (e + 1)

/-- The block normalization of R115: exponent, mantissas, and whether it saturated or wrapped. -/
def bfpNorm (trunc wrap : Bool) (n : Nat) (xs : List Int) (s : Nat) : Nat × List Int × Bool :=
  match bfpFind trunc n xs s 16 0 with
  | some e => (e, bfpTry trunc xs s e, false)
  | none => (15, (bfpTry trunc xs s 15).map fun y => (narrow wrap y n).1, true)

/-- Writes of P normalized blocks to a long register, with SATF if one saturated (R113, R115). -/
def bfpOut (regs : List Nat) (blocks : List (Nat × List Int × Bool)) : OpOut :=
  let idx := List.range blocks.length
  let els := (idx.flatMap fun p =>
    let b := blocks.getD p (0, [], false)
    (List.range 24).map fun k => (24 * p + k, pat 16 (b.2.1.getD k 0)))
  -- 16-bit elements and 8-bit exponent elements touch different registers only above bit 1919
  let ex := idx.map fun p => (240 + p, (blocks.getD p (0, [], false)).1)
  let sat := blocks.any fun b => b.2.2
  { wr := (elemWrites regs 16 els ++ elemWrites regs 8 ex).map (fun w => (6, w)) ++
      (if sat then [(6, .satf)] else []) }

/-- Operand b of an element-wise operation: a vector of the same width, or a scalar register (R120). -/
def opB (c : Core) (long s : Bool) (vb : Grp) (sz i : Nat) : Nat :=
  if s then (readG c vb).toNat % 2 ^ sz else getElem c (grpRegs c long vb) sz i

/-- An element-wise operation of two operands on the non-bfp types (R120). -/
def vBin (c : Core) (long : Bool) (vd va vb : Grp) (s : Bool) (f : Nat → Nat → Nat × Bool) : OpOut :=
  let sz := etBits (vET c)
  let a := grpRegs c long va
  let n := effCount c long [vET c]
  vOut (grpRegs c long vd) sz
    ((List.range n).map fun i => (i, f (getElem c a sz i) (opB c long s vb sz i)))

/-- An element-wise operation of one operand (R120). -/
def vUn (c : Core) (long : Bool) (vd va : Grp) (f : Nat → Nat × Bool) : OpOut :=
  let sz := etBits (vET c)
  let a := grpRegs c long va
  vOut (grpRegs c long vd) sz
    ((List.range (effCount c long [vET c])).map fun i => (i, f (getElem c a sz i)))

/-- Operand fields that name vectors, for the alignment check of R136. -/
def vecOps (s : Bool) (vd va vb : Grp) : List Grp := if s then [vd, va] else [vd, va, vb]

/-- vadd and vsub (R120). -/
def vAddSub (c : Core) (sub long : Bool) (vd va vb : Grp) (s : Bool) : Except OpFault OpOut :=
  let et := vET c
  vGuard c long (vecOps s vd va vb) (if s then [0, 1, 2, 3, 4, 5] else [0, 1, 2, 3, 4, 5, 6, 7]) <|
    let ia (x y : Int) : Int := if sub then x - y else x + y
    let fa (q : FFmt) (x y : Nat) : Nat := if sub then fSub q x y else fAdd q x y
    if isIntT et then
      let n := etBits et
      .ok (vBin c long vd va vb s fun x y => npat (vWrap c) n (ia (sx n x) (sx n y)))
    else if isFltT et then .ok (vBin c long vd va vb s fun x y => (fa (fltOf et) x y, false))
    else if et = 5 then
      .ok (vBin c long vd va vb s (cqMap2 fun x y => npat (vWrap c) 16 (ia x y)))
    else if et = 6 then
      .ok (vBin c long vd va vb s fun x y =>
        (fa f32 (x % 2 ^ 32) (y % 2 ^ 32) + 2 ^ 32 * fa f32 (x / 2 ^ 32) (y / 2 ^ 32), false))
    else
      let a := grpRegs c long va
      let b := grpRegs c long vb
      .ok (bfpOut (grpRegs c long vd) ((List.range (effCount c long [7])).map fun p =>
        bfpNorm (vTrunc c) (vWrap c) (vN c)
          ((List.range 24).map fun k =>
            ia (bfpMant c a p k * 2 ^ bfpExp c a p) (bfpMant c b p k * 2 ^ bfpExp c b p)) 0))

/-- vmul; the cj option conjugates b (R120). With bfp, b is a cq16 vector or scalar. -/
def vMulOp (c : Core) (long : Bool) (vd va vb : Grp) (s cj : Bool) : Except OpFault OpOut :=
  let et := vET c
  vGuard c long (vecOps s vd va vb) (if s then [0, 1, 2, 3, 4, 5, 7] else [0, 1, 2, 3, 4, 5, 6, 7]) <|
    if isIntT et then
      let n := etBits et
      .ok (vBin c long vd va vb s fun x y =>
        npat (vWrap c) n (rnd (vTrunc c) (sx n x * sx n y) (n - 1)))
    else if isFltT et then .ok (vBin c long vd va vb s fun x y => (fMul (fltOf et) x y, false))
    else if et = 5 then
      .ok (vBin c long vd va vb s fun x y =>
        let P := cqProd cj x y
        let i := npat (vWrap c) 16 (rnd (vTrunc c) P.1 15)
        let q := npat (vWrap c) 16 (rnd (vTrunc c) P.2 15)
        (i.1 + 65536 * q.1, i.2 || q.2))
    else if et = 6 then .ok (vBin c long vd va vb s fun x y => (cfMul cj x y, false))
    else
      let a := grpRegs c long va
      .ok (bfpOut (grpRegs c long vd) ((List.range (effCount c long [7])).map fun p =>
        bfpNorm (vTrunc c) (vWrap c) (vN c)
          ((List.range 12).flatMap fun j =>
            let P := cqProd cj (getElem c a 32 (12 * p + j)) (opB c long s vb 32 (12 * p + j))
            [P.1 * 2 ^ bfpExp c a p, P.2 * 2 ^ bfpExp c a p]) 15))

/-- vmin and vmax (R120). -/
def vMinMax (c : Core) (mx long : Bool) (vd va vb : Grp) (s : Bool) : Except OpFault OpOut :=
  let et := vET c
  vGuard c long (vecOps s vd va vb) [0, 1, 2, 3, 4] <|
    if isIntT et then
      let n := etBits et
      .ok (vBin c long vd va vb s fun x y =>
        let lt := decide (sx n x < sx n y)
        (if (if mx then lt else decide (sx n y < sx n x)) then y else x, false))
    else
      .ok (vBin c long vd va vb s fun x y =>
        (if mx then fMax (fltOf et) x y else fMin (fltOf et) x y, false))

/-- vand, vor and vxor (R120); a scalar is illegal for cf32. -/
def vLogic (c : Core) (long : Bool) (vd va vb : Grp) (s : Bool) (f : Nat → Nat → Nat) :
    Except OpFault OpOut :=
  vGuard c long (vecOps s vd va vb) (if s then [0, 1, 2, 3, 4, 5] else [0, 1, 2, 3, 4, 5, 6]) <|
    .ok (vBin c long vd va vb s fun x y => (f x y, false))

/-- vsra and vsll by t (R120). -/
def vShift (c : Core) (left long : Bool) (vd va : Grp) (t : BitVec 5) : Except OpFault OpOut :=
  let et := vET c
  vGuard c long [vd, va] [0, 1, 2, 5] <|
    let sh (x : Int) : Int := if left then x * 2 ^ t.toNat else rnd (vTrunc c) x t.toNat
    if et = 5 then .ok (vUn c long vd va (cqMap fun x => npat (vWrap c) 16 (sh x)))
    else
      let n := etBits et
      .ok (vUn c long vd va fun x => npat (vWrap c) n (sh (sx n x)))

/-- vpow: the power of cq16 elements as i32 (R120). -/
def vPowOp (c : Core) (long : Bool) (vd va : Grp) : Except OpFault OpOut :=
  vGuard c long [vd, va] [5] <|
    .ok (vUn c long vd va fun x =>
      npat (vWrap c) 32 (sx 16 x * sx 16 x + sx 16 (x / 65536) * sx 16 (x / 65536)))

/-- vbcst (R120): the effective elements take the scalar; illegal for cf32 and bfp. -/
def vBcstOp (c : Core) (long : Bool) (vd : Grp) (gb : GReg) : Except OpFault OpOut :=
  vGuard c long [vd] [0, 1, 2, 3, 4, 5] <|
    let sz := etBits (vET c)
    .ok (vOut (grpRegs c long vd) sz
      ((List.range (effCount c long [vET c])).map fun i => (i, ((readG c gb).toNat % 2 ^ sz, false))))

/-- vmov and vzero over the whole operand, ignoring VL (R120). -/
def vMovOp (c : Core) (long : Bool) (vd : Grp) (va : Option Grp) : Except OpFault OpOut :=
  vGuard c long (vd :: va.toList) [0, 1, 2, 3, 4, 5, 6, 7] <|
    let d := grpRegs c long vd
    .ok (vOut d 64 ((List.range d.length).map fun i =>
      (i, ((match va with
            | some a => getElem c (grpRegs c long a) 64 i
            | none => 0), false))))

/-- A float converted to an n-bit fixed-point integer (R121); the value of an infinity is free where WRAP keeps
low bits that the manual does not define (DESIGN CHOICE, log entry 4). -/
def fltToInt (c : Core) (q : FFmt) (n x : Nat) : Nat × Bool :=
  match fDec q x with
  | .nan => (0, false)
  | .inf s =>
    if vWrap c then (Config.infWrap s n % 2 ^ n, true)
    else (pat n (if s then -(2 ^ (n - 1) : Int) else 2 ^ (n - 1) - 1), true)
  | .fin .. =>
    match fFixed q x (n - 1) with
    | some (v, t) => npat (vWrap c) n (rnd (vTrunc c) v t)
    | none => (0, false)

/-- One element converted between two non-bfp types; `none` for a pair R121 does not list. -/
def cvtElem (c : Core) (src dst : Nat) : Option (Nat → Nat × Bool) :=
  match src, dst with
  | 0, 1 => some fun x => (pat 16 (sx 8 x * 256), false)
  | 1, 2 => some fun x => (pat 32 (sx 16 x * 65536), false)
  | 1, 0 => some fun x => npat (vWrap c) 8 (rnd (vTrunc c) (sx 16 x) 8)
  | 2, 1 => some fun x => npat (vWrap c) 16 (rnd (vTrunc c) (sx 32 x) 16)
  | 1, 3 => some fun x => (fOfScaled f16 (sx 16 x) (-15), false)
  | 1, 4 => some fun x => (fOfScaled f32 (sx 16 x) (-15), false)
  | 2, 3 => some fun x => (fOfScaled f16 (sx 32 x) (-31), false)
  | 2, 4 => some fun x => (fOfScaled f32 (sx 32 x) (-31), false)
  | 3, 1 => some fun x => fltToInt c f16 16 x
  | 3, 2 => some fun x => fltToInt c f16 32 x
  | 4, 1 => some fun x => fltToInt c f32 16 x
  | 4, 2 => some fun x => fltToInt c f32 32 x
  | 3, 4 => some fun x => (fConv f16 f32 x, false)
  | 4, 3 => some fun x => (fConv f32 f16 x, false)
  | 5, 6 => some fun x =>
    (fOfScaled f32 (sx 16 x) (-15) + 2 ^ 32 * fOfScaled f32 (sx 16 (x / 65536)) (-15), false)
  | 6, 5 => some fun x =>
    let i := fltToInt c f32 16 (x % 2 ^ 32)
    let q := fltToInt c f32 16 (x / 2 ^ 32)
    (i.1 + 65536 * q.1, i.2 || q.2)
  | _, _ => none

/-- vcvt (R121). A bfp side needs a long register and a valid BFPW (R112, R113). -/
def vCvtOp (c : Core) (long : Bool) (vd va : Grp) (tgt : BitVec 4) : Except OpFault OpOut :=
  let et := vET c
  let a := grpRegs c long va
  let d := grpRegs c long vd
  vGuard c long [vd, va] [0, 1, 2, 3, 4, 5, 6, 7] <|
    if et = 5 ∧ tgt = 7 then
      if !long ∨ vN c = 0 ∨ vN c > 16 then .error (illegal 1)
      else
        .ok (bfpOut d ((List.range (min (vCount c / 12) 5)).map fun p =>
          bfpNorm (vTrunc c) (vWrap c) (vN c)
            ((List.range 24).map fun k => sx 16 (getElem c a 16 (24 * p + k))) 0))
    else if et = 7 ∧ tgt = 5 then
      let P := min (vCount c) 5
      .ok (vOut d 16 ((List.range (24 * P)).map fun k =>
        (k, npat (vWrap c) 16 (bfpMant c a (k / 24) (k % 24) * 2 ^ bfpExp c a (k / 24)))))
    else
      match cvtElem c et tgt.toNat with
      | none => .error (illegal 1)
      | some f =>
        let n := effCount c long [et, tgt.toNat]
        .ok (vOut d (etBits tgt.toNat) ((List.range n).map fun i => (i, f (getElem c a (etBits et) i))))

/-- Lanes an accumulator operation touches (R122). -/
def accLanes (c : Core) (long : Bool) : Nat :=
  if vET c = 7 then 12 * min (vCount c) 5 else min (vCount c) (if long then 64 else 16)

/-- cmul and cmac (R123). -/
def cMacOp (c : Core) (mac long ad : Bool) (tb : BitVec 2) (cj : Bool) (va vb : Grp) :
    Except OpFault OpOut :=
  if tb = 3 then .error (illegal 1)
  else
    vGuard c long (if tb = 1 then [va] else [va, vb]) [5, 7] <|
      let a := grpRegs c long va
      let b := grpRegs c long vb
      let old := if ad then c.ch1 else c.ch0
      let isB := vET c == 7
      let lanes := (List.range (accLanes c long)).map fun j =>
        let y := if tb = 1 then (readG c vb).toNat else getElem c b 32 j
        let P := cqProd cj (getElem c a 32 j) y
        let E := (if isB then bfpExp c a (j / 12) else 0) +
                 (if isB && tb == 2 then bfpExp c b (j / 12) else 0)
        let L := old.getD j Lane.zero
        let i := (if mac then L.re.toInt else 0) + P.1 * 2 ^ E
        let q := (if mac then L.im.toInt else 0) + P.2 * 2 ^ E
        let ni := narrow (vWrap c) i 40
        let nq := narrow (vWrap c) q 40
        ((j, (⟨BitVec.ofInt 40 ni.1, BitVec.ofInt 40 nq.1⟩ : Lane)), ni.2 || nq.2)
      let ls := lanes.map (·.1)
      .ok { wr := (6, .accVis ad ls) :: (if lanes.any (·.2) then [(6, .satf)] else []),
            chain := [(ad, ls)] }

/-- aclr: every lane, whatever VL holds (R123). It has no width, so the group-width rule of R112 does not
reach it (DEDUCED, log entry 5). -/
def aclrOp (c : Core) (ad : Bool) : Except OpFault OpOut :=
  if vET c ≥ 8 ∨ (vET c = 7 ∧ (vN c = 0 ∨ vN c > 16)) then .error (illegal 1)
  else
    let ls := (List.range 64).map fun j => (j, Lane.zero)
    .ok { wr := [(6, .accVis ad ls)], chain := [(ad, ls)] }

/-- The accumulator as an operation outside its chain reads it (R64). -/
def accRead (c : Core) (a : Bool) : List Lane := if a then c.a1 else c.a0

/-- ard.c (R124). -/
def ardCOp (c : Core) (long : Bool) (vd : Grp) (a : Bool) (sh : BitVec 6) : Except OpFault OpOut :=
  if sh.toNat > 39 then .error (illegal 1)
  else
    vGuard c long [vd] [5] <|
      let acc := accRead c a
      .ok (vOut (grpRegs c long vd) 32 ((List.range (accLanes c long)).map fun j =>
        let L := acc.getD j Lane.zero
        let i := npat (vWrap c) 16 (rnd (vTrunc c) L.re.toInt sh.toNat)
        let q := npat (vWrap c) 16 (rnd (vTrunc c) L.im.toInt sh.toNat)
        (j, (i.1 + 65536 * q.1, i.2 || q.2))))

/-- ard.v, long width only (R124). -/
def ardVOp (c : Core) (vd : Grp) (a : Bool) (sh : BitVec 6) : Except OpFault OpOut :=
  if sh.toNat > 39 then .error (illegal 1)
  else
    vGuard c true [vd] [7] <|
      let acc := accRead c a
      .ok (bfpOut (grpRegs c true vd) ((List.range (min (vCount c) 5)).map fun p =>
        bfpNorm (vTrunc c) (vWrap c) (vN c)
          ((List.range 12).flatMap fun j =>
            let L := acc.getD (12 * p + j) Lane.zero
            [L.re.toInt, L.im.toInt]) sh.toNat))

/-- Magnitude of an element for the abs option (R125). -/
def absElem (et x : Nat) : Nat :=
  if isIntT et then
    let n := etBits et
    let v := sx n x
    if v = -(2 ^ (n - 1) : Int) then 2 ^ (n - 1) - 1 else pat n (if v < 0 then -v else v)
  else x % 2 ^ (etBits et - 1)

/-- The elements a search looks at, with their indexes; NaN takes no part (R125). -/
def searchElems (c : Core) (long : Bool) (src : Grp) (abs : Bool) : List (Nat × Nat) :=
  let et := vET c
  let sz := etBits et
  ((List.range (effCount c long [et])).map fun i =>
    let x := getElem c (grpRegs c long src) sz i
    (i, if abs then absElem et x else x)).filter
      fun e => !(isFltT et && fIsNan (fltOf et) e.2)

/-- Strict comparison of two elements of the present type. -/
def elemLt (et x y : Nat) : Bool :=
  if isIntT et then decide (sx (etBits et) x < sx (etBits et) y) else fLt (fltOf et) x y

/-- First element that no other beats (R125). -/
def searchBest (lt : Nat → Nat → Bool) : List (Nat × Nat) → Option (Nat × Nat)
  | [] => none
  | e :: es => some (es.foldl (fun b x => if lt x.2 b.2 then x else b) e)

/-- A value as bits [31:0] of a search result (R125); a subnormal element is zero of its sign (R119). -/
def searchVal (et x : Nat) : Nat := if isIntT et then pat 32 (sx (etBits et) x) else fCanon (fltOf et) x

/-- A whole single float register with latency 6. -/
def outF (c : Core) (fd : FReg) (v : Nat) : OpOut :=
  { wr := [(6, .f (physF c fd.toNat) (BitVec.ofNat 64 (2 ^ 64 - 1)) (BitVec.ofNat 64 v))] }

/-- vmin.ix and vmax.ix (R125). -/
def vSearchOp (c : Core) (mx long : Bool) (fd : FReg) (src : Grp) (abs : Bool) : Except OpFault OpOut :=
  vGuard c long [src] [0, 1, 2, 3, 4] <|
    let lt (x y : Nat) : Bool := if mx then elemLt (vET c) y x else elemLt (vET c) x y
    match searchBest lt (searchElems c long src abs) with
    | none => .ok (outF c fd 0)
    | some (i, v) => .ok (outF c fd (searchVal (vET c) v + i * 2 ^ 32 + 2 ^ 63))

/-- vmin2.ix (R126). -/
def vMin2Op (c : Core) (long : Bool) (fd : FReg) (src : Grp) (abs : Bool) : Except OpFault OpOut :=
  vGuard c long [src] [0, 1] <|
    let et := vET c
    let els := searchElems c long src abs
    match searchBest (elemLt et) els with
    | none => .ok (outF c fd 0)
    | some (i, v) =>
      let m2 :=
        match searchBest (elemLt et) (els.filter fun e => e.1 != i) with
        | some (_, w) => pat 16 (sx (etBits et) w)
        | none => 2 ^ (etBits et - 1) - 1
      .ok (outF c fd (pat 16 (sx (etBits et) v) + m2 * 2 ^ 16 + i * 2 ^ 32 + 2 ^ 63))

end Sys2Proof.Machine
end

