-- ==== Sys2Proof/Machine/CoreAccess.lean ====
section
/-!
DEFINITION. Sys2Proof/Machine/CoreAccess.lean: what the memory operations of slots M and V do when their bundle starts: scalar and
far accesses (R68 to R73), vector memory (R127 to R133), control blocks (R95), accumulator images (R132), pushes
(R100, R139, R140, R145), and wait.ev (R101).
-/
namespace Sys2Proof.Machine

/-- What follows the issue of a bundle whose M slot held an operation. -/
inductive After where
  | go
  /-- The bundle cannot issue yet (R63). -/
  | wait
  | done (status : Nat)
  | idle
  | suspend
deriving DecidableEq, Repr

/-- An M-slot operation that started: the state after its access, its register writes with latencies, and what follows. -/
structure MOut where
  st : State
  wr : List (Nat × RegWrite) := []
  after : After := .go
deriving DecidableEq, Repr

/-- A post-modify write of the base (R69, R127). -/
def pmWrite (c : Core) (base : GReg) (d : Int) : Nat × RegWrite :=
  (1, .g (physG c base) (readG c base + BitVec.ofInt 32 d))

/-- A load of `n` bytes at a checked address; poison raises LOAD_POISON with the far address [47:32] (R73, R86). -/
def loadOut (s : State) (k n ea detail : Nat) (chk : Except OpFault Nat) (f : List Byte → List (Nat × RegWrite)) :
    Except OpFault MOut :=
  match chk with
  | .error e => .error e
  | .ok d =>
    match coreLoad s k d n with
    | (s', some bs) => .ok { st := s', wr := f bs }
    | (_, none) => .error ⟨0x12, detail, ea⟩

/-- A store of bytes at a checked address. -/
def storeOut (s : State) (k : Nat) (chk : Except OpFault Nat) (bs : List Byte) (wr : List (Nat × RegWrite)) :
    Except OpFault MOut :=
  match chk with
  | .error e => .error e
  | .ok d => .ok { st := coreStore s k d bs, wr := wr }

/-- A scalar load of `n` bytes from a near address (R69, R72). -/
def nearLoad (s : State) (k : Nat) (rd base : GReg) (off : Int) (n : Nat) (ext : Nat → Word) : Except OpFault MOut :=
  let c := s.core k
  let a := nearEa c base off
  loadOut s k n a 0 (nearCheck s k a n n) fun bs => [(4, .g (physG c rd) (ext (ofLe bs)))]

/-- A scalar store of `n` bytes to a near address. -/
def nearStore (s : State) (k : Nat) (rs base : GReg) (off : Int) (n : Nat) : Except OpFault MOut :=
  let c := s.core k
  let a := nearEa c base off
  storeOut s k (nearCheck s k a n n) (leBytes n (readG c rs).toNat) []

/-- Sign and zero extension of a loaded value. -/
def extS (n x : Nat) : Word := BitVec.ofInt 32 (sx n x)
def extZ (x : Nat) : Word := w32 x

/-- A whole float register written by a load. -/
def fWrite (c : Core) (fd : FReg) (v : Nat) : Nat × RegWrite :=
  (4, .f (physF c fd.toNat) (BitVec.ofNat 64 (2 ^ 64 - 1)) (BitVec.ofNat 64 v))

/-- Runs a far operation at its address (R71). -/
def withFar (c : Core) (base : GReg) (off : Int) (f : Nat → Except OpFault MOut) : Except OpFault MOut :=
  match farAddr c base off with
  | .error e => .error e
  | .ok a => f a

/-! ### Vector memory in slot M (R127) -/

/-- The group number of the long register vk. -/
def longG (v : BitVec 3) : Grp := BitVec.ofNat 5 (4 * v.toNat)

/-- The address check of a near or far vector access. -/
def vCheck (s : State) (k : Nat) (far : Bool) (a n al : Nat) : Except OpFault Nat :=
  if n = 0 then .ok a else if far then farCheck s a n al else nearCheck s k a n al

/-- The address of a near or far vector access. -/
def vAddr (c : Core) (far : Bool) (gb : GReg) (off : Int) : Except OpFault Nat :=
  if far then farAddr c gb off else .ok (nearEa c gb off)

/-- A whole operand loaded: 64 bytes at a 4-byte-aligned address, or 256 bytes at a 64-byte-aligned one. -/
def vLoadOp (s : State) (k : Nat) (far long : Bool) (G : Grp) (gb : GReg) (off : Int) (pm : Option Int) :
    Except OpFault MOut :=
  let c := s.core k
  let n := if long then 256 else 64
  match vAddr c far gb off with
  | .error e => .error e
  | .ok a =>
    loadOut s k n a (if far then bitsOf a 32 16 else 0) (vCheck s k far a n (if long then 64 else 4)) fun bs =>
      (byteWrites (grpRegs c long G) ((List.range n).map fun i => (i, bs.getD i 0))).map (fun w => (4, w)) ++
        (pm.map (pmWrite c gb)).toList

/-- A whole operand stored. -/
def vStoreOp (s : State) (k : Nat) (far long : Bool) (G : Grp) (gb : GReg) (off : Int) (pm : Option Int) :
    Except OpFault MOut :=
  let c := s.core k
  let n := if long then 256 else 64
  match vAddr c far gb off with
  | .error e => .error e
  | .ok a =>
    let regs := grpRegs c long G
    storeOut s k (vCheck s k far a n (if long then 64 else 4))
      ((List.range n).map fun i => BitVec.ofNat 8 (getElem c regs 8 i)) (pm.map (pmWrite c gb)).toList

/-- Bytes of one bfp block of width `n` (R114). -/
def bfpBytes (n : Nat) : Nat := 1 + 3 * n

/-- The number that bytes spell, most significant first. -/
def ofBe (bs : List Byte) : Nat := bs.foldl (fun a b => a * 256 + b.toNat) 0

/-- The `n` bytes of a number, most significant first. -/
def beBytes (n v : Nat) : List Byte := (leBytes n v).reverse

/-- Exponent and mantissas of a block in memory (R114). -/
def bfpUnpack (n : Nat) (bs : List Byte) : Nat × List Int × Bool :=
  let M := ofBe (bs.drop 1)
  ((bs.getD 0 0).toNat % 16, (List.range 24).map fun j => sx n (M / 2 ^ (n * (23 - j)) % 2 ^ n), false)

/-- A block packed for memory, each mantissa narrowed, and whether one was out of range (R114, R127). -/
def bfpPack (wrap : Bool) (n e : Nat) (ms : List Int) : List Byte × Bool :=
  let nr := ms.map fun m => narrow wrap m n
  let M := nr.foldl (fun a r => a * 2 ^ n + pat n r.1) 0
  (BitVec.ofNat 8 (e % 16) :: beBytes (3 * n) M, nr.any (·.2))

/-- vld.b, vst.b and their far forms need VTYPE bfp with a valid BFPW (R112, R127). -/
def bfpGuard (c : Core) (k : Except OpFault MOut) : Except OpFault MOut :=
  if vET c ≠ 7 ∨ vN c = 0 ∨ vN c > 16 then .error (illegal 1) else k

/-- Blocks and bytes of a bfp access (R127). -/
def bfpP (c : Core) : Nat := min (vCount c) 5
def bfpLen (c : Core) : Nat := bfpP c * bfpBytes (vN c)

/-- vld.b and vldf.b. -/
def vldBOp (s : State) (k : Nat) (far : Bool) (v : BitVec 3) (gb : GReg) (off : Int) (pm : Bool) : Except OpFault MOut :=
  let c := s.core k
  bfpGuard c <|
    match vAddr c far gb off with
    | .error e => .error e
    | .ok a =>
      loadOut s k (bfpLen c) a (if far then bitsOf a 32 16 else 0) (vCheck s k far a (bfpLen c) 1) fun bs =>
        let n := vN c
        let blocks := (List.range (bfpP c)).map fun p => bfpUnpack n ((bs.drop (p * bfpBytes n)).take (bfpBytes n))
        ((bfpOut (grpRegs c true (longG v)) blocks).wr.map fun w => (4, w.2)) ++
          (if pm then [pmWrite c gb (bfpLen c)] else [])

/-- vst.b and vstf.b; a narrowed mantissa sets SATF with latency 1 (no latency is stated: log entry 7). -/
def vstBOp (s : State) (k : Nat) (far : Bool) (v : BitVec 3) (gb : GReg) (off : Int) (pm : Bool) : Except OpFault MOut :=
  let c := s.core k
  bfpGuard c <|
    match vAddr c far gb off with
    | .error e => .error e
    | .ok a =>
      let regs := grpRegs c true (longG v)
      let blocks := (List.range (bfpP c)).map fun p =>
        bfpPack (vWrap c) (vN c) (bfpExp c regs p) ((List.range 24).map fun j => bfpMant c regs p j)
      storeOut s k (vCheck s k far a (bfpLen c) 1) (blocks.flatMap (·.1))
        ((if blocks.any (·.2) then [(1, .satf)] else []) ++ (if pm then [pmWrite c gb (bfpLen c)] else []))

/-- mfr (R131). -/
def mfrOp (s : State) (k : Nat) (gd : GReg) (fs : FReg) (h : Bool) : Except OpFault MOut :=
  let c := s.core k
  .ok { st := s, wr := [(4, .g (physG c gd) (w32 (bitsOf (readF c fs).toNat (if h then 32 else 0) 32)))] }

/-- asave: 640 bytes, lane j in bytes 10j to 10j + 9 (R132). -/
def asaveOp (s : State) (k : Nat) (a : Bool) (gb : GReg) (off : Int) : Except OpFault MOut :=
  let c := s.core k
  storeOut s k (nearCheck s k (nearEa c gb off) 640 64)
    ((accRead c a).flatMap fun L => leBytes 5 L.re.toNat ++ leBytes 5 L.im.toNat) []

/-- arest (R132). -/
def arestOp (s : State) (k : Nat) (a : Bool) (gb : GReg) (off : Int) : Except OpFault MOut :=
  let c := s.core k
  let ea := nearEa c gb off
  loadOut s k 640 ea 0 (nearCheck s k ea 640 64) fun bs =>
    [(4, .accLoad a ((List.range 64).map fun j =>
      (j, ⟨BitVec.ofNat 40 (ofLe ((bs.drop (10 * j)).take 5)), BitVec.ofNat 40 (ofLe ((bs.drop (10 * j + 5)).take 5))⟩)))]

/-! ### Control blocks (R95) -/

/-- The selector of word `n` of a control block. -/
def blockSel : List Nat :=
  [0x08, 0x09, 0x0A, 0x0B, 0x0C, 0x0D, 0x0E, 0x10, 0x11, 0x12, 0x13, 0x01, 0x02, 0x05, 0x06]

/-- The words that a mask selects. -/
def blockWords (m : BitVec 16) : List Nat := (List.range 15).filter fun n => m.getLsbD n

/-- The address of a control block, checked whole (word alignment and reach: log entry 8). -/
def blockCheck (s : State) (k : Nat) (off5 : BitVec 5) (base : GReg) : Except OpFault Nat :=
  nearCheck s k (nearEa (s.core k) base (64 * off5.toNat)) 64 4

/-- csave. -/
def csaveOp (s : State) (k : Nat) (off5 : BitVec 5) (base : GReg) (mask : BitVec 16) : Except OpFault MOut :=
  if mask.getLsbD 15 then .error (illegal 1)
  else
    match blockCheck s k off5 base with
    | .error e => .error e
    | .ok d =>
      let c := s.core k
      .ok { st := (blockWords mask).foldl
              (fun s n => coreStore s k (d + 4 * n) (leBytes 4 ((readCtl c (blockSel.getD n 0)).getD 0).toNat)) s }

/-- The selected words of a control block as a load sees them; `none` for poison. -/
def crestRead (k d : Nat) : List Nat → State → State × Option (List (Nat × RegWrite))
  | [], s => (s, some [])
  | n :: ns, s =>
    match coreLoad s k (d + 4 * n) 4 with
    | (s', some bs) =>
      (match crestRead k d ns s' with
       | (s'', some ws) => (s'', some ((1, .ctl (blockSel.getD n 0) (w32 (ofLe bs))) :: ws))
       | (s'', none) => (s'', none))
    | (s', none) => (s', none)

/-- crest: the registers are written with latency 1. -/
def crestOp (s : State) (k : Nat) (off5 : BitVec 5) (base : GReg) (mask : BitVec 16) : Except OpFault MOut :=
  if mask.getLsbD 15 then .error (illegal 1)
  else
    match blockCheck s k off5 base with
    | .error e => .error e
    | .ok d =>
      match crestRead k d (blockWords mask) s with
      | (s', some ws) => .ok { st := s', wr := ws }
      | (_, none) => .error ⟨0x12, 0, nearEa (s.core k) base (64 * off5.toNat)⟩

/-! ### Element accesses in slot V (R128, R133) -/

/-- How far a V-slot memory operation came: the loaded elements, and the element that stopped it. -/
structure VRun where
  st : State
  got : List (Nat × Nat)
  bad : Option (Nat × OpFault)
deriving DecidableEq, Repr

/-- Elements `i`, `i + 1`, … with `fuel` of them to go; `val` gives the stored elements. -/
def vElems (k : Nat) (val : Option (Nat → Nat)) (bytes : Nat) (ea : Nat → Nat) : Nat → Nat → State → VRun
  | 0, _, s => ⟨s, [], none⟩
  | fuel + 1, i, s =>
    match nearCheck s k (ea i) bytes bytes with
    | .error _ => ⟨s, [], some (i, ⟨0x14, i % 256, ea i⟩)⟩
    | .ok d =>
      match val with
      | some f => vElems k val bytes ea fuel (i + 1) (coreStore s k d (leBytes bytes (f i)))
      | none =>
        match coreLoad s k d bytes with
        | (s', some bs) =>
          let r := vElems k val bytes ea fuel (i + 1) s'
          { r with got := (i, ofLe bs) :: r.got }
        | (_, none) => ⟨s, [], some (i, ⟨0x15, i % 256, ea i⟩)⟩

/-- The checks before issue of a V-slot memory operation (R112, R128, R130, R136). -/
def vMemGuard (c : Core) (long : Bool) (ops : List Grp) (overlap : Bool) : Except OpFault OpOut :=
  if overlap then .error (illegal 1) else vGuard c long ops [0, 1, 2, 3, 4, 5, 6] (.ok {})

/-- Index elements an operand of the width holds (R128). -/
def idxCap (long : Bool) : Nat := if long then 64 else 16

/-- A V-slot memory operation from element `start` on. -/
def vMemRun (s : State) (k : Nat) (long store : Bool) (v : Grp) (n : Nat) (ea : Nat → Nat) (start : Nat) : VRun :=
  let c := s.core k
  let sz := etBits (vET c)
  let regs := grpRegs c long v
  vElems k (if store then some (fun i => getElem c regs sz i) else none) (sz / 8) ea (n - start) start s

/-- Addresses of a strided access. -/
def strideEa (c : Core) (base stride : GReg) (i : Nat) : Nat :=
  ((readG c base).toNat + i * (readG c stride).toNat) % 2 ^ 32

/-- Addresses of an indexed access. -/
def indexEa (c : Core) (long : Bool) (base : GReg) (idx : Grp) (i : Nat) : Nat :=
  ((readG c base).toNat + getElem c (grpRegs c long idx) 32 i) % 2 ^ 32

/-- The V-slot memory operation of a bundle, from an element on; `none` for any other operation. -/
def vMem (s : State) (k : Nat) (start : Nat) : Instr → Option VRun
  | .vlds _ long vd base stride _ =>
    some (vMemRun s k long false vd (effCount (s.core k) long [vET (s.core k)]) (strideEa (s.core k) base stride) start)
  | .vsts _ long vs base stride _ =>
    some (vMemRun s k long true vs (effCount (s.core k) long [vET (s.core k)]) (strideEa (s.core k) base stride) start)
  | .vgth _ long vd base idx _ =>
    some (vMemRun s k long false vd (min (effCount (s.core k) long [vET (s.core k)]) (idxCap long))
      (indexEa (s.core k) long base idx) start)
  | .vsct _ long vs base idx _ =>
    some (vMemRun s k long true vs (min (effCount (s.core k) long [vET (s.core k)]) (idxCap long))
      (indexEa (s.core k) long base idx) start)
  | _ => none

/-- The destination of a V-slot load. -/
def vMemDest (c : Core) : Instr → List Nat
  | .vlds _ long vd .. => grpRegs c long vd
  | .vgth _ long vd .. => grpRegs c long vd
  | _ => []

/-! ### Tasks, pushes and waits -/

/-- The task that runs on a core. -/
def State.coreItem (s : State) (k : Nat) : Option Item :=
  s.fab.items.find? fun i => i.phase == .dispatched && i.exec == some (.core k)

/-- The owner function of the task on a core (R97). -/
def coreOwner (s : State) (k : Nat) : Nat :=
  match s.coreItem k with
  | some it => it.fn
  | none => 0

/-- The operations that block may not start while IE = 0 (R93). -/
def blocking (c : Core) (k : Except OpFault MOut) : Except OpFault MOut :=
  if !bitOf c.stat.toNat 0 then .error (illegal 5) else k

/-- The enqueue of core #k that a full STALL queue holds. -/
def heldBy (s : State) (k : Nat) : Bool := s.fab.held.any fun h => h.who == .core k

/-- q.push (R100): settle, read the descriptor, enqueue; a held enqueue leaves the bundle waiting. -/
def qPushOp (s : State) (k : Nat) (rd rs rt : GReg) (imm : BitVec 11) : Except OpFault MOut :=
  let c := s.core k
  blocking c <|
    if imm ≠ 0 then .error (illegal 1)
    else
      let res (st : State) (v : Nat) : MOut :=
        { st := st.setCore k { st.core k with pushRes := none }, wr := [(4, .g (physG c rd) (w32 v))] }
      match c.pushRes with
      | some r => .ok (res s r.1)
      | none =>
        if heldBy s k then .ok { st := s, after := .wait }
        else
          let a := (readG c rs).toNat
          match nearCheck s k a 64 64 with
          | .error e => .error e
          | .ok d =>
            let s1 := settleCore s k
            match s1.readWords d 16 with
            | none => .error ⟨0x12, 0, a⟩
            | some ws =>
              match s1.enqueue (bitsOf (readG c rt).toNat 0 20) (coreOwner s k) ws .notify .block (.core k) true with
              | (s2, .accepted) => .ok (res s2 0)
              | (s2, .dropped) => .ok (res s2 1)
              | (s2, .refused) => .ok (res s2 2)
              | (s2, .held) => .ok { st := s2, after := .wait }

/-- The next tag of a core: the first value of the counter that no outstanding command carries (R140), with fuel. -/
def nextTag (out : List Nat) : Nat → Nat → Nat
  | 0, t => t
  | fuel + 1, t => if out.contains t then nextTag out fuel (if t = 0xFFFF then 1 else t + 1) else t

/-- The tag counter after a push took `t` (R140). -/
def afterTag (t : Nat) : Nat := if t = 0xFFFF then 1 else t + 1

/-- A core takes note of an accepted command with its tag. -/
def takeTag (s : State) (k t : Nat) : State :=
  let c := s.core k
  s.setCore k { c with tag := afterTag t, tagsOut := c.tagsOut ++ [t] }

/-- The address that eq.push, esave and erest name: near clod memory, or a far pair in deep buffer or HBM (R139). -/
def pushAddr (s : State) (k : Nat) (rs : GReg) (far : Bool) : Except OpFault Nat :=
  let c := s.core k
  if far then
    match farAddr c rs 0 with
    | .error e => .error e
    | .ok a =>
      (match s.region a with
       | .deep _ | .hbmIntl _ | .hbmMir _ _ | .hbmLocal _ =>
         if a % 64 = 0 then .ok a else .error ⟨0x11, bitsOf a 32 16, a⟩
       | _ => .error ⟨0x11, bitsOf a 32 16, a⟩)
  else
    let a := (readG c rs).toNat
    if 0x400000 ≤ a ∧ a < 0x800000 ∧ a % 64 = 0 then
      match nearAddr k a with
      | some d => .ok d
      | none => .error ⟨0x11, 0, a⟩
    else .error ⟨0x11, 0, a⟩

/-- The COMMAND descriptor that a push builds (R139, R141, R265). Its RUN_EST is a value that no rule gives: free
(log entry 9). -/
def cmdWords (tag deadline addr : Nat) (runEst : BitVec 16) : List Word :=
  [1, w32 tag, w32 deadline, w32 (deadline / 2 ^ 32), 0, 0, 0, w32 (runEst.toNat * 65536), 0, 0, 0, 0,
   w32 addr, w32 (addr / 2 ^ 32), 0, 0]

/-- eq.push, esave and erest (R139, R140, R145). -/
def cmdPushOp (s : State) (k : Nat) (rd rs rt : GReg) (imm : BitVec 11) (kind : CmdKind) (immOk : Bool) :
    Except OpFault MOut :=
  let c := s.core k
  blocking c <|
    if !immOk then .error (illegal 1)
    else
      let res (st : State) (v : Nat) : MOut :=
        { st := st.setCore k { st.core k with pushRes := none }, wr := [(4, .g (physG c rd) (w32 v))] }
      match c.pushRes with
      | some r => .ok (res s (r.2 + 65536 * r.1))
      | none =>
        match pushAddr s k rs (imm.getLsbD 0) with
        | .error e => .error e
        | .ok a =>
          if heldBy s k || decide (c.tagsOut.length ≥ 256) then .ok { st := s, after := .wait }
          else
            let s1 := settleCore s k
            let q := bitsOf (readG c rt).toNat 0 20
            let fn := coreOwner s k
            let cls := (s1.qcb q).cls
            if isSvc q ∨ !(decide (1 ≤ cls) && decide (cls ≤ 8)) then .ok (res s1 0x20000)
            else
              let own := match s.coreItem k with
                | some it => dDeadline it.words
                | none => 0
              let cb := match kind, s1.readWords (a + 8) 2 with
                | .block, some [lo, hi] => lo.toNat + 2 ^ 32 * hi.toNat
                | _, _ => 0
              let t := nextTag c.tagsOut 256 c.tag
              let fresh := s1.fresh 16
              let ws := cmdWords t (if cb = 0 then own else cb) a fresh.1
              match fresh.2.enqueue q fn ws (.core k c.taskid t) kind (.core k) true with
              | (s2, .accepted) => .ok (res (takeTag s2 k t) t)
              | (s2, .dropped) => .ok (res s2 0x10000)
              | (s2, .refused) => .ok (res s2 0x20000)
              | (s2, .held) => .ok { st := s2, after := .wait }

/-- wait.ev (R101, R293, R294): the list is read, the wait opens or goes on, and the bundle issues with its condition
met; a deadline already passed with the condition not met is the caller's concern (R284). -/
def waitEvOp (s : State) (k : Nat) (rd rs : GReg) (imm : BitVec 11) : Except OpFault MOut :=
  let c := s.core k
  blocking c <|
    let n := bitsOf imm.toNat 0 3
    if bitsOf imm.toNat 4 7 ≠ 0 ∨ n = 0 ∨ n > 4 then .error (illegal 1)
    else
      let a := (readG c rs).toNat
      loadOut s k (16 * n) a 0 (nearCheck s k a (16 * n) 16) (fun _ => []) >>= fun o =>
        match coreLoad s k ((nearAddr k a).getD 0) (16 * n), s.coreItem k with
        | (s1, some bs), some it =>
          let entries := (List.range n).map fun j =>
            (List.range 4).map fun w => w32 (ofLe ((bs.drop (16 * j + 4 * w)).take 4))
          let s2 := s1.openWait it.sn a entries (bitsOf imm.toNat 3 1 == 1)
          let s3 := s2.setCore k { s2.core k with rb := [] }
          (match (s3.item? it.sn).bind (·.wait) with
           | some w =>
             if w.met then
               .ok { st := leftWait (s3.updItem it.sn fun i => { i with wait := none, inWait := false }) it,
                     wr := [(4, .g (physG c rd) w.mask)] }
             else .ok { st := s2.updItem it.sn fun i => { i with inWait := true }, after := .wait }
           | none => .ok { st := s2, after := .wait })
        | _, _ => .ok { o with after := .wait }

end Sys2Proof.Machine
end

