-- ==== Sys2Proof/Machine/CoreIssue.lean ====
section
/-!
DEFINITION. Sys2Proof/Machine/CoreIssue.lean: a bundle from its presentation to its issue (R59 to R64, R79 to R83, R87), and what
interrupts it: exceptions (R85, R86, R88, R133), the return from one (R90, R135), PREEMPT (R84, R102), terminal causes
(R89), and the end of a task (R99, R103).
-/
namespace Sys2Proof.Machine

/-! ### What an operation is -/

/-- The slot of an operation; `none` for a command that is no operation of a core. -/
def opSlot : Instr → Option Slot
  | .add _ b .. | .sub _ b .. | .and _ b .. | .or _ b .. | .xor _ b .. | .shl _ b .. | .shr _ b .. | .sar _ b ..
  | .lt _ b .. | .ltu _ b .. | .min _ b .. | .max _ b .. | .minu _ b .. | .maxu _ b .. | .lz _ b .. | .pick _ b ..
  | .mul _ b .. | .mulhi _ b .. | .mulhiu _ b .. | .addK _ b .. | .andK _ b .. | .orK _ b .. | .xorK _ b ..
  | .ltK _ b .. | .ltuK _ b .. | .shlK _ b .. | .shrK _ b .. | .sarK _ b .. | .mulK _ b .. | .setu _ b ..
  | .bEq _ b .. | .bNe _ b .. | .bLt _ b .. | .bGe _ b .. | .bLtu _ b .. | .bGeu _ b .. | .jmpL _ b .. | .jmpLr _ b ..
  | .loopI _ b .. | .loopR _ b .. | .rdc _ b .. | .wrc _ b .. | .ieOff _ b _ | .ieOn _ b _ | .eret _ b _
  | .trap _ b .. => some (if b then .B else .A)
  | .vadd .. | .vsub .. | .vmul .. | .vmin .. | .vmax .. | .vand .. | .vor .. | .vxor .. | .vsra .. | .vsll ..
  | .vpow .. | .vcvt .. | .vbcst .. | .vmov .. | .vzero .. | .cmac .. | .cmul .. | .aclr .. | .ardC .. | .ardV ..
  | .vminIx .. | .vmaxIx .. | .vmin2Ix .. | .vlds .. | .vsts .. | .vgth .. | .vsct .. => some .V
  | .ldB .. | .ldBu .. | .ldH .. | .ldHu .. | .ldW .. | .stB .. | .stH .. | .stW .. | .ldWPm .. | .stWPm .. | .ldD ..
  | .stD .. | .ldfW .. | .stfW .. | .ldfD .. | .stfD .. | .csave .. | .crest .. | .settle .. | .done .. | .waitTask ..
  | .waitEv .. | .yieldPre .. | .qPush .. | .eqPush .. | .esave .. | .erest .. | .vldQ .. | .vldQPm .. | .vstQ ..
  | .vstQPm .. | .vldV .. | .vstV .. | .vldB .. | .vldBPm .. | .vstB .. | .vstBPm .. | .vldfQ .. | .vstfQ ..
  | .vldfB .. | .vstfB .. | .mfr .. | .asave .. | .arest .. => some .M
  | _ => none

/-- What an operation of slot A, B or V without memory access computes; the checks before issue of every other one. -/
def aluOut (c : Core) : Instr → Except OpFault OpOut
  | .add _ _ gd ga gb _ => .ok (tOp c gd ga gb 1 (· + ·))
  | .sub _ _ gd ga gb _ => .ok (tOp c gd ga gb 1 (· - ·))
  | .and _ _ gd ga gb _ => .ok (tOp c gd ga gb 1 (· &&& ·))
  | .or _ _ gd ga gb _ => .ok (tOp c gd ga gb 1 (· ||| ·))
  | .xor _ _ gd ga gb _ => .ok (tOp c gd ga gb 1 (· ^^^ ·))
  | .shl _ _ gd ga gb _ => .ok (tOp c gd ga gb 1 fun x y => x <<< (y.toNat % 32))
  | .shr _ _ gd ga gb _ => .ok (tOp c gd ga gb 1 fun x y => x >>> (y.toNat % 32))
  | .sar _ _ gd ga gb _ => .ok (tOp c gd ga gb 1 fun x y => x.sshiftRight (y.toNat % 32))
  | .lt _ _ gd ga gb _ => .ok (tOp c gd ga gb 1 fun x y => boolW (x.slt y))
  | .ltu _ _ gd ga gb _ => .ok (tOp c gd ga gb 1 fun x y => boolW (x.ult y))
  | .min _ _ gd ga gb _ => .ok (tOp c gd ga gb 1 minS)
  | .max _ _ gd ga gb _ => .ok (tOp c gd ga gb 1 maxS)
  | .minu _ _ gd ga gb _ => .ok (tOp c gd ga gb 1 minU)
  | .maxu _ _ gd ga gb _ => .ok (tOp c gd ga gb 1 maxU)
  | .lz _ _ gd ga _ => .ok (outG c gd 1 (lzW (readG c ga)))
  | .pick _ _ gd ga gb _ => .ok (outG c gd 1 (if readG c gb ≠ 0 then readG c ga else readG c gd))
  | .mul _ _ gd ga gb _ => .ok (tOp c gd ga gb 3 (· * ·))
  | .mulhi _ _ gd ga gb _ => .ok (tOp c gd ga gb 3 mulHiS)
  | .mulhiu _ _ gd ga gb _ => .ok (tOp c gd ga gb 3 mulHiU)
  | .addK _ _ gd ga k14 _ => .ok (kOp c gd ga 1 (k14s k14) (· + ·))
  | .andK _ _ gd ga k14 _ => .ok (kOp c gd ga 1 (k14z k14) (· &&& ·))
  | .orK _ _ gd ga k14 _ => .ok (kOp c gd ga 1 (k14z k14) (· ||| ·))
  | .xorK _ _ gd ga k14 _ => .ok (kOp c gd ga 1 (k14z k14) (· ^^^ ·))
  | .ltK _ _ gd ga k14 _ => .ok (kOp c gd ga 1 (k14s k14) fun x y => boolW (x.slt y))
  | .ltuK _ _ gd ga k14 _ => .ok (kOp c gd ga 1 (k14z k14) fun x y => boolW (x.ult y))
  | .shlK _ _ gd ga k14 _ => kShift c gd ga k14 fun x n => x <<< n
  | .shrK _ _ gd ga k14 _ => kShift c gd ga k14 fun x n => x >>> n
  | .sarK _ _ gd ga k14 _ => kShift c gd ga k14 fun x n => x.sshiftRight n
  | .mulK _ _ gd ga k14 _ => .ok (kOp c gd ga 3 (k14s k14) (· * ·))
  | .setu _ _ gd k18 _ => .ok (outG c gd 1 (w32 (k18.toNat * 2 ^ 14)))
  | .bEq _ b ga gb disp _ => branchOp c b ga gb disp (· == ·)
  | .bNe _ b ga gb disp _ => branchOp c b ga gb disp (· != ·)
  | .bLt _ b ga gb disp _ => branchOp c b ga gb disp fun x y => x.slt y
  | .bGe _ b ga gb disp _ => branchOp c b ga gb disp fun x y => !x.slt y
  | .bLtu _ b ga gb disp _ => branchOp c b ga gb disp fun x y => x.ult y
  | .bGeu _ b ga gb disp _ => branchOp c b ga gb disp fun x y => !x.ult y
  | .jmpL _ b gd disp _ => jmpLOp c b gd disp
  | .jmpLr _ b gd ga _ => jmpLrOp c b gd ga
  | .loopI _ b one rot count e _ => loopOp c b one rot (count.zeroExtend 32) e
  | .loopR _ b one rot ga e _ => loopOp c b one rot (readG c ga) e
  | .rdc _ _ gd csel _ => rdcOp c gd csel
  | .wrc _ b csel ga _ => wrcOp c b csel ga
  | .ieOff _ b _ => ieOp c b false
  | .ieOn _ b _ => ieOp c b true
  | .eret _ b _ => slotA b (placed c false (.ok {}))
  | .trap _ b _ _ => slotA b (placed c false (.ok {}))
  | .vadd _ long vd va vb sc _ => vAddSub c false long vd va vb sc
  | .vsub _ long vd va vb sc _ => vAddSub c true long vd va vb sc
  | .vmul _ long vd va vb sc cj _ => vMulOp c long vd va vb sc cj
  | .vmin _ long vd va vb sc _ => vMinMax c false long vd va vb sc
  | .vmax _ long vd va vb sc _ => vMinMax c true long vd va vb sc
  | .vand _ long vd va vb sc _ => vLogic c long vd va vb sc (· &&& ·)
  | .vor _ long vd va vb sc _ => vLogic c long vd va vb sc (· ||| ·)
  | .vxor _ long vd va vb sc _ => vLogic c long vd va vb sc (· ^^^ ·)
  | .vsra _ long vd va t _ => vShift c false long vd va t
  | .vsll _ long vd va t _ => vShift c true long vd va t
  | .vpow _ long vd va _ => vPowOp c long vd va
  | .vcvt _ long vd va tgt _ => vCvtOp c long vd va tgt
  | .vbcst _ long vd gb _ => vBcstOp c long vd gb
  | .vmov _ long vd va _ => vMovOp c long vd (some va)
  | .vzero _ long vd _ => vMovOp c long vd none
  | .cmac _ long ad tb cj va vb _ => cMacOp c true long ad tb cj va vb
  | .cmul _ long ad tb cj va vb _ => cMacOp c false long ad tb cj va vb
  | .aclr _ ad _ => aclrOp c ad
  | .ardC _ long vd a sh _ => ardCOp c long vd a sh
  | .ardV _ vd a sh _ => ardVOp c vd a sh
  | .vminIx _ long fd src abs _ => vSearchOp c false long fd src abs
  | .vmaxIx _ long fd src abs _ => vSearchOp c true long fd src abs
  | .vmin2Ix _ long fd src abs _ => vMin2Op c long fd src abs
  | .vlds _ long vd _ _ _ => vMemGuard c long [vd] false
  | .vsts _ long vs _ _ _ => vMemGuard c long [vs] false
  | .vgth _ long vd _ idx _ => vMemGuard c long [vd, idx] (vd == idx)
  | .vsct _ long vs _ idx _ => vMemGuard c long [vs, idx] false
  | _ => .ok {}

/-- What the M-slot operation of a bundle does when the bundle starts. -/
def mOut (s : State) (k : Nat) (op : Instr) : Except OpFault MOut :=
  let c := s.core k
  match op with
  | .ldB _ rd base off _ => nearLoad s k rd base off.toInt 1 (extS 8)
  | .ldBu _ rd base off _ => nearLoad s k rd base off.toInt 1 extZ
  | .ldH _ rd base off _ => nearLoad s k rd base off.toInt 2 (extS 16)
  | .ldHu _ rd base off _ => nearLoad s k rd base off.toInt 2 extZ
  | .ldW _ rd base off _ => nearLoad s k rd base off.toInt 4 extZ
  | .stB _ rs base off _ => nearStore s k rs base off.toInt 1
  | .stH _ rs base off _ => nearStore s k rs base off.toInt 2
  | .stW _ rs base off _ => nearStore s k rs base off.toInt 4
  | .ldWPm _ rd base off _ =>
    (nearLoad s k rd base 0 4 extZ).map fun o => { o with wr := o.wr ++ [pmWrite c base off.toInt] }
  | .stWPm _ rs base off _ => (nearStore s k rs base 0 4).map fun o => { o with wr := o.wr ++ [pmWrite c base off.toInt] }
  | .ldD _ fd base off _ =>
    let a := nearEa c base (8 * off.toInt)
    loadOut s k 8 a 0 (nearCheck s k a 8 8) fun bs => [fWrite c fd (ofLe bs)]
  | .stD _ fs base off _ =>
    let a := nearEa c base (8 * off.toInt)
    storeOut s k (nearCheck s k a 8 8) (leBytes 8 (readF c fs).toNat) []
  | .ldfW _ rd base off _ =>
    withFar c base off.toInt fun a =>
      loadOut s k 4 a (bitsOf a 32 16) (farCheck s a 4 4) fun bs => [(4, .g (physG c rd) (w32 (ofLe bs)))]
  | .stfW _ rs base off _ =>
    withFar c base off.toInt fun a => storeOut s k (farCheck s a 4 4) (leBytes 4 (readG c rs).toNat) []
  | .ldfD _ fd base off _ =>
    withFar c base (8 * off.toInt) fun a =>
      loadOut s k 8 a (bitsOf a 32 16) (farCheck s a 8 8) fun bs => [fWrite c fd (ofLe bs)]
  | .stfD _ fs base off _ =>
    withFar c base (8 * off.toInt) fun a => storeOut s k (farCheck s a 8 8) (leBytes 8 (readF c fs).toNat) []
  | .csave _ off5 base mask _ => csaveOp s k off5 base mask
  | .crest _ off5 base mask _ => crestOp s k off5 base mask
  | .settle _ _ => .ok { st := settleCore s k }
  | .done _ status _ =>
    if inDelay c then .error (illegal 2) else .ok { st := s, after := .done status.toNat }
  | .waitTask _ _ => blocking c (.ok { st := s, after := .idle })
  | .waitEv _ rd rs imm _ => waitEvOp s k rd rs imm
  | .yieldPre _ _ => if bitOf c.stat.toNat 1 then .ok { st := s, after := .suspend } else .error (illegal 1)
  | .qPush _ rd rs rt imm _ => qPushOp s k rd rs rt imm
  | .eqPush _ rd rs rt imm _ => cmdPushOp s k rd rs rt imm .block (bitsOf imm.toNat 1 10 == 0)
  | .esave _ rd rs rt imm _ => cmdPushOp s k rd rs rt imm (.esave (imm.getLsbD 1)) (bitsOf imm.toNat 2 9 == 0)
  | .erest _ rd rs rt imm _ => cmdPushOp s k rd rs rt imm .erest (bitsOf imm.toNat 1 10 == 0)
  | .vldQ _ G gb off _ => vLoadOp s k false false G gb off.toInt none
  | .vldQPm _ G gb off _ => vLoadOp s k false false G gb 0 (some off.toInt)
  | .vstQ _ G gb off _ => vStoreOp s k false false G gb off.toInt none
  | .vstQPm _ G gb off _ => vStoreOp s k false false G gb 0 (some off.toInt)
  | .vldV _ v gb off _ => vLoadOp s k false true (longG v) gb off.toInt none
  | .vstV _ v gb off _ => vStoreOp s k false true (longG v) gb off.toInt none
  | .vldB _ v gb off _ => vldBOp s k false v gb off.toInt false
  | .vldBPm _ v gb off _ => if off ≠ 0 then .error (illegal 1) else vldBOp s k false v gb 0 true
  | .vstB _ v gb off _ => vstBOp s k false v gb off.toInt false
  | .vstBPm _ v gb off _ => if off ≠ 0 then .error (illegal 1) else vstBOp s k false v gb 0 true
  | .vldfQ _ G gb off _ => vLoadOp s k true false G gb off.toInt none
  | .vstfQ _ G gb off _ => vStoreOp s k true false G gb off.toInt none
  | .vldfB _ v gb off _ => vldBOp s k true v gb off.toInt false
  | .vstfB _ v gb off _ => vstBOp s k true v gb off.toInt false
  | .mfr _ gd fs h _ => mfrOp s k gd fs h
  | .asave _ a gb off _ => asaveOp s k a gb off.toInt
  | .arest _ a gb off _ => arestOp s k a gb off.toInt
  | _ => .ok { st := s }

/-- The register a write lands in, as a name for the check of R60. -/
def writeDest : RegWrite → Option DestId
  | .g r _ => if r = 0 then none else some (.g r)
  | .f r _ _ => some (.f r)
  | .ctl sel _ => some (.ctl sel)
  | .accVis a _ => some (.acc a)
  | .accLoad a _ => some (.acc a)
  | _ => none

/-- The whole of a group or long register as destinations. -/
def opDests (c : Core) (long : Bool) (G : Grp) : List DestId := (grpRegs c long G).map DestId.f

/-- A scalar destination; g0 is never written (R56). -/
def gDest (c : Core) (r : GReg) : List DestId := if physG c r = 0 then [] else [.g (physG c r)]

/-- The destination registers that an operation names (R60). -/
def dests (c : Core) : Instr → List DestId
  | .vadd _ long vd .. | .vsub _ long vd .. | .vmul _ long vd .. | .vmin _ long vd .. | .vmax _ long vd ..
  | .vand _ long vd .. | .vor _ long vd .. | .vxor _ long vd .. | .vsra _ long vd .. | .vsll _ long vd ..
  | .vpow _ long vd .. | .vcvt _ long vd .. | .vbcst _ long vd .. | .vmov _ long vd .. | .vzero _ long vd _
  | .ardC _ long vd .. | .vlds _ long vd .. | .vgth _ long vd .. => opDests c long vd
  | .ardV _ vd .. => opDests c true vd
  | .cmac _ _ ad .. | .cmul _ _ ad .. | .aclr _ ad _ => [.acc ad]
  | .vminIx _ _ fd .. | .vmaxIx _ _ fd .. | .vmin2Ix _ _ fd .. => [.f (physF c fd.toNat)]
  | .ldB _ rd .. | .ldBu _ rd .. | .ldH _ rd .. | .ldHu _ rd .. | .ldW _ rd .. | .ldfW _ rd .. | .waitEv _ rd ..
  | .qPush _ rd .. | .eqPush _ rd .. | .esave _ rd .. | .erest _ rd .. | .mfr _ rd .. => gDest c rd
  | .ldWPm _ rd base .. => (gDest c rd ++ gDest c base).eraseDups
  | .stWPm _ _ base .. => gDest c base
  | .ldD _ fd .. | .ldfD _ fd .. => [.f (physF c fd.toNat)]
  | .crest _ _ _ mask _ => (blockWords mask).map fun n => .ctl (blockSel.getD n 0)
  | .vldQ _ G .. | .vldfQ _ G .. => opDests c false G
  | .vldQPm _ G gb .. => opDests c false G ++ gDest c gb
  | .vstQPm _ _ gb .. => gDest c gb
  | .vldV _ v .. | .vldB _ v .. | .vldfB _ v .. => opDests c true (longG v)
  | .vldBPm _ v gb .. => opDests c true (longG v) ++ gDest c gb
  | .vstBPm _ _ gb .. => gDest c gb
  | .arest _ a .. => [.acc a]
  | op =>
    match aluOut c op with
    | .ok o => (o.wr.filterMap fun w => writeDest w.2).eraseDups
    | .error _ => []

/-! ### Presented bundles -/

/-- The operation of a slot in the presented bundle. -/
def slotOp (ops : List Instr) (sl : Slot) : Option Instr := ops.find? fun i => opSlot i == some sl

/-- The slot of the first operation that names a destination which a later slot's operation names too (R60). -/
def dupSlot (c : Core) (ops : List Instr) : Option Slot :=
  let order := [Slot.A, .B, .V, .M].filterMap fun sl => (slotOp ops sl).map fun i => (sl, dests c i)
  let later (sl : Slot) := order.filter fun e => decide (sl.code < e.1.code)
  (order.find? fun e => (later e.1).any fun l => l.2.any fun d => e.2.contains d).map (·.1)

/-- A fault of an operation before issue, with its slot. -/
abbrev BFault := Slot × OpFault

/-- The pre-issue part of one slot. -/
def preSlot (c : Core) (ops : List Instr) (sl : Slot) : Except BFault OpOut :=
  match slotOp ops sl with
  | none => .ok {}
  | some i =>
    match aluOut c i with
    | .ok o => .ok o
    | .error e => .error (sl, e)

/-- The order in which the faults of a bundle are reported: A, B, V, M (R87, R112; V before M is a reading, log
entry 10), a duplicate destination at its earlier slot. -/
def firstFault (fs : List BFault) : Option BFault :=
  [Slot.A, .B, .V, .M].findSome? fun sl => fs.find? fun f => f.1 == sl

/-! ### Exceptions -/

/-- The task of core #k ends with a terminal cause (R89). -/
def coreFail (s : State) (k cause detail : Nat) : State :=
  match s.coreItem k with
  | none => coreTerminal s k cause detail
  | some it => (coreTerminal s k cause detail).endTask it.sn false cause

/-- A masked region begins or ends where IE changed while a task runs (R93, R94). -/
def maskTrack (s : State) (k : Nat) : State :=
  let c := s.core k
  if c.run == .running then
    if bitOf c.stat.toNat 0 then maskEnd s k
    else if c.maskSince.isNone then s.setCore k { c with maskSince := some s.airtime }
    else s
  else s

/-- Taking an exception (R85): every issued operation completes; EPC, ESTAT, ECAUSE and EADDR are written; IE ← 0,
EXL ← 1, LPEN ← 0; the next bundle is that at 0x0000. EADDR keeps its value where the cause has no address (DEDUCED,
log entry 11). -/
def takeException (s : State) (k cause : Nat) (sl : Slot) (detail : Nat) (addr : Option Nat) (epc : Nat)
    (vresume : Bool) : State :=
  let s := s.setCore k (landEvery (s.core k))
  let s := unwait s k
  let c := s.core k
  let stat := c.stat.toNat
  let ec := ecauseOf cause sl detail
  let ea := match addr with
    | some a => w32 a
    | none => c.eaddr
  let s := s.setCore k { c with
    epc := w32 epc, estat := w32 (stat % 32 + bit vresume * 256), ecause := ec, eaddr := ea,
    stat := w32 (setBits (setBits (setBits stat 0 1 0) 1 1 1) 2 1 0), pc := 0 }
  let s := (s.setReg (pgCore k) Reg.GVC_LAST_ECAUSE ec).setReg (pgCore k) Reg.GVC_LAST_EPC (w32 c.lastPc)
  maskTrack s k

/-- Which causes carry the address of an access (R86). -/
def causeAddr (e : OpFault) : Option Nat := if e.cause = 0x10 then none else some e.addr

/-- A load that met poison shows in MEM_LAST_UNCORR (R392): the first poisoned byte of the access. -/
def notePoison (s : State) (k : Nat) (e : OpFault) : State :=
  if e.cause = 0x12 ∨ e.cause = 0x13 then
    match (if e.addr < 2 ^ 32 then nearAddr k e.addr else some e.addr) with
    | some d => s.noteBad (((List.range 64).find? fun i => s.readsBad (d + i)).getD 0 + d) 0 true
    | none => s
  else s

/-- A synchronous fault or TRAP: with EXL = 1 it is a DOUBLE_FAULT (R88), otherwise it is taken. -/
def coreSync (s : State) (k : Nat) (sl : Slot) (e : OpFault) (epc : Nat) (vresume : Bool) : State :=
  let s := notePoison s k e
  if bitOf (s.core k).stat.toNat 1 then coreFail s k 0x23 e.cause
  else takeException s k e.cause sl e.detail (causeAddr e) epc vresume

/-- May an interrupt be taken at this boundary (R84, R88)? -/
def intrAllowed (c : Core) : Bool := c.run == .running && bitOf c.stat.toNat 0 && c.br.isNone && !c.halted

/-- PREEMPT is taken at a boundary that allows it (R84, R88, R102); EPC names the next bundle to issue. A self-test task stops at
a breakpoint (R585). -/
def boundary (s : State) (k : Nat) : State :=
  let c := s.core k
  if c.preempt && intrAllowed c then
    let s := s.setCore k { c with preempt := false }
    (takeException s k 0x01 .A 0 none c.pc c.vresume).count (pgCore k) Reg.GVC_TALLY_PREEMPT 1
  else if c.run == .running && !c.halted && s.fld ⟨.coreDbg, k⟩ Reg.GVI_DBG_BKPT 0 1 == 1 &&
      (s.part (pgCore k) == stDown || s.part (pgCore k) == stTending) &&
      c.pc / 16 == s.fld ⟨.coreDbg, k⟩ Reg.GVI_DBG_BKPT 4 12 then
    s.setCore k { c with halted := true }
  else s

/-! ### The end of a task on a core -/

/-- done (R99): issued operations complete, the core settles, the completion is reported, the core is idle. -/
def coreDone (s : State) (k status : Nat) : State :=
  let s := settleCore (s.setCore k (landEvery (s.core k))) k
  let s := if status = 0 then s else s.tally (pgCore k) Reg.GVC_TALLY_ABANDON 16 16 1
  match s.coreItem k with
  | some it => (coreIdle s k).endTask it.sn true status
  | none => coreIdle s k

/-- yield.pre (R103): issued operations complete, the core settles, the task is suspended, the core is idle. -/
def coreSuspend (s : State) (k : Nat) : State :=
  let s := settleCore (s.setCore k (landEvery (s.core k))) k
  match s.coreItem k with
  | some it =>
    let s := coreIdle s k
    let s := s.updItem it.sn fun i =>
      { i with phase := .suspended, runTc := i.runTc + (s.airtime - i.tStart), inWait := false }
    s.setCore k { s.core k with suspended := (s.core k).suspended ++ [it.taskid.toNat] }
  | none => coreIdle s k

/-! ### Issue -/

/-- A hardware loop at the bundle just issued (R81): the loops as that bundle read them; loop 1 first. The next
address, and the core with its counts and ROT. -/
def loopNext (c : Core) : Core × Nat :=
  let seq := (c.pc + 16) % 65536
  let adv (c : Core) : Core :=
    { c with rot := w32 (setBits c.rot.toNat 0 3 ((rotCnt c + 1) % rotSpan c)) }
  let zero (c : Core) : Core × Nat :=
    if c.pc = c.le0.toNat ∧ c.lc0 ≠ 0 then
      let c' := { c with lc0 := c.lc0 - 1 }
      if c.lc0 = 1 then (c', seq) else (if bitOf c.stat.toNat 3 then adv c' else c', c.lb0.toNat)
    else (c, seq)
  if !bitOf c.stat.toNat 2 then (c, seq)
  else if c.pc = c.le1.toNat ∧ c.lc1 ≠ 0 then
    let c' := { c with lc1 := c.lc1 - 1 }
    if c.lc1 = 1 then zero c' else (if bitOf c.stat.toNat 4 then adv c' else c', c.lb1.toNat)
  else zero c

/-- The successor of the bundle just issued (R79, R80, R81): the core with its loops, delay slots and pc moved on. -/
def advance (c : Core) (a : OpOut) : Core :=
  let n := loopNext c
  match c.br with
  | some (1, some t) => { c with br := none, pc := t }
  | some (1, none) => { n.1 with br := none, pc := n.2 }
  | some (m, t) => { n.1 with br := some (m - 1, t), pc := n.2 }
  | none =>
    match a.skip with
    | some t => { c with pc := t }
    | none =>
      if a.branch then { n.1 with br := some (2, a.target), pc := n.2 } else { n.1 with pc := n.2 }

/-- Writes with latencies become pending (R61). -/
def pendWrites (c : Core) (ws : List (Nat × RegWrite)) : Core :=
  { c with pend := c.pend ++ ws.map fun w => ⟨c.cnt + w.1, w.2⟩ }

/-- New lanes of a chain in progress (R64). -/
def chainLanes (c : Core) (ch : List (Bool × List (Nat × Lane))) : Core :=
  ch.foldl (fun c e => if e.1 then { c with ch1 := setLanes c.ch1 e.2 } else { c with ch0 := setLanes c.ch0 e.2 }) c

/-- The bundle has issued: its writes are pending, the count and the pc move on, and what is due lands. -/
def retire (c : Core) (a : OpOut) (wr : List (Nat × RegWrite)) (ch : List (Bool × List (Nat × Lane))) : Core :=
  let c1 := pendWrites (chainLanes c ch) wr
  let c2 := { advance c1 a with cnt := c.cnt + 1, lastPc := c.pc, bundle := [], waiting := false }
  landDue c2

/-- The bundle with its pre-issue results known (an operation that ends the task has taken effect when a V-slot
access of its bundle stops: log entry 12): the M access, then the V accesses (R129), then the issue. -/
def issueBody (s : State) (k : Nat) (ops : List Instr) (a b v : OpOut) : State :=
  let c := s.core k
  let mres : Except OpFault MOut := match slotOp ops .M with
    | some op => mOut s k op
    | none => .ok { st := s }
  match mres with
  | .error e => boundary (coreSync s k .M e c.pc false) k
  | .ok m =>
    match m.after with
    | .wait => boundary (m.st.setCore k { m.st.core k with bundle := ops, waiting := true }) k
    | aft =>
      let vr := (slotOp ops .V).bind (vMem m.st k 0)
      let st := match vr with
        | some r => r.st
        | none => m.st
      let sz := etBits (vET c)
      let vdest := match slotOp ops .V with
        | some i => vMemDest c i
        | none => []
      let vwr := match vr with
        | some r => (elemWrites vdest sz r.got).map fun w => (4, w)
        | none => []
      let c1 := st.core k
      let st := st.setCore k (retire c1 a (a.wr ++ b.wr ++ v.wr ++ m.wr ++ vwr) (a.chain ++ b.chain ++ v.chain))
      let st := maskTrack st k
      match aft, vr.bind (·.bad) with
      | .done n, _ => coreDone st k n
      | .suspend, _ => coreSuspend st k
      | .idle, _ => coreIdle st k
      | _, some (i, e) =>
        let st := st.setCore k { st.core k with vidx := w32 (i % 256) }
        boundary (coreSync st k .V e c.pc true) k
      | _, none =>
          match slotOp ops .A with
          | some (.eret ..) =>
            let c2 := landEvery (st.core k)
            let es := c2.estat.toNat
            let st := st.setCore k { c2 with stat := w32 (es % 32), pc := c2.epc.toNat, vresume := bitOf es 8 }
            boundary (maskTrack st k) k
          | some (.trap _ _ k13 _) =>
            let st := coreSync st k .A ⟨0x02, k13.toNat, 0⟩ (st.core k).pc false
            boundary st k
          | _ => boundary st k

/-- The resumed V-slot operation of the bundle at EPC (R90, R135): a bundle of its own, from VIDX; then EPC + 16. -/
def issueResume (s : State) (k : Nat) (ops : List Instr) : State :=
  let c := s.core k
  let vops := (slotOp ops .V).toList
  match preSlot c vops .V with
  | .error e => boundary (coreSync s k e.1 e.2 c.pc false) k
  | .ok o =>
    let vr := (slotOp ops .V).bind (vMem s k (bitsOf c.vidx.toNat 0 8))
    let st := match vr with
      | some r => r.st
      | none => s
    let vdest := match slotOp ops .V with
      | some i => vMemDest c i
      | none => []
    let vwr := match vr with
      | some r => (elemWrites vdest (etBits (vET c)) r.got).map fun w => (4, w)
      | none => []
    let c1 := pendWrites (chainLanes (st.core k) o.chain) (o.wr ++ vwr)
    let c2 := landDue { c1 with
      cnt := c1.cnt + 1, lastPc := c.pc, bundle := [], waiting := false, vresume := false, pc := (c.pc + 16) % 65536 }
    match vr.bind (·.bad) with
    | some (i, e) =>
      let st := st.setCore k { c2 with vidx := w32 (i % 256) }
      boundary (coreSync st k .V e c.pc true) k
    | none => boundary (maskTrack (st.setCore k { c2 with vidx := 0 }) k) k

/-- A bundle at its turn (R60, R87, R112): PREEMPT first where the boundary allows it; then the checks of its slots;
then the bundle issues, waits, or faults. -/
def issue (s : State) (k : Nat) (ops : List Instr) : State :=
  let c := s.core k
  if c.preempt && intrAllowed c then boundary s k
  else if c.vresume then issueResume s k ops
  else
    match preSlot c ops .A, preSlot c ops .B, preSlot c ops .V, dupSlot c ops with
    | .ok a, .ok b, .ok v, none => issueBody s k ops a b v
    | ra, rb, rv, d =>
      let errs := [ra, rb, rv].filterMap fun r => match r with
        | .error e => some e
        | .ok _ => none
      let dup := match d with
        | some sl => [(sl, illegal 3)]
        | none => []
      match firstFault (errs ++ dup) with
      | some e => boundary (coreSync s k e.1 e.2 c.pc false) k
      | none => s

/-- A wait.ev issued or still open at or after its task's deadline is aborted with reason DEADLINE_WAIT (R284). -/
def lateWait (s : State) (k : Nat) : State :=
  match s.coreItem k with
  | some it =>
    if it.inWait && dDeadline it.words != 0 && decide (s.airtime ≥ dDeadline it.words) then s.abortTask it 0x0031
    else s
  | none => s

/-- Does the core issue bundles: running a task, and not halted by its debug page? -/
def issues (c : Core) : Bool := c.run == .running && !c.halted

/-- An operation put into the presented bundle, in the place of an earlier one of its slot. -/
def stageOp (ops : List Instr) (op : Instr) : List Instr := ops.filter (fun i => opSlot i != opSlot op) ++ [op]

/-- An operation presented to core #k: it joins the bundle, and as the bundle's last one it starts the issue. A core
that runs no task issues no bundle, and one whose bundle waits takes no other (R63, R96). -/
def present (s : State) (k : Nat) (fin : Bool) (op : Instr) : State :=
  let c := s.core k
  if k < 272 ∧ issues c ∧ !c.waiting then
    let ops := stageOp c.bundle op
    if fin then lateWait (issue (s.setCore k { c with bundle := [] }) k ops) k
    else s.setCore k { c with bundle := ops }
  else s

/-- A waiting bundle is tried again (R63); a wait that goes on past its task's deadline is aborted (R284). -/
def retry (s : State) (k : Nat) : State :=
  let c := s.core k
  if issues c && c.waiting then lateWait (issue s k c.bundle) k else s

end Sys2Proof.Machine
end

