-- ==== Sys2Proof/Machine/Parts.lean ====
section
/-!
DEFINITION. Sys2Proof/Machine/Parts.lean: what kind of part stands behind a page: its stop and octant (R335, R515), its
capabilities (R506, R516, R621), its floor (R9, R10, R532), and the interrupt causes its page defines.
-/
namespace Sys2Proof.Machine

/-! ### Stops -/

/-- First stop of an octant (R335). -/
def octBase (o : Nat) : Nat := [0, 11, 22, 33, 44, 55, 65, 76].getD o 0

/-- Stops of clods, engine groups, HBM controllers and deep-buffer banks (R335). -/
def stopCL (c : Nat) : Nat := octBase (c / 2) + (if c % 2 = 0 then 0 else 9)
def stopEG (e : Nat) : Nat := octBase (e / 4) + [1, 2, 7, 8].getD (e % 4) 0
def stopHB (k : Nat) : Nat := octBase (k / 2) + (if k % 2 = 0 then 3 else 6)
def stopDB (o : Nat) : Nat := octBase o + 4
def stopPcie : Nat := 21
def stopFabric : Nat := 43

/-- Engine group of a physical engine instance (R335). -/
def engGroup (cls i : Nat) : Nat :=
  match cls with
  | 1 => if i < 32 then i else 30
  | 2 => if i < 16 then i else 30
  | 3 => if i < 14 then 16 + i else if i < 16 then 16 + i else i
  | 4 => if i < 16 then i else 31
  | 5 => if i < 16 then i else 31
  | 6 => 16 + i
  | _ => 25 + i

/-- Hops between two stops (R336). -/
def hops (a b : Nat) : Nat :=
  let d := if a ≤ b then b - a else a - b
  min d (86 - d)

/-- Stops of DMA units and lane groups (R335). -/
def stopDma (u : Nat) : Nat := [10, 32, 54, 75].getD u 10
def stopLG (o : Nat) : Nat := octBase o + 5

/-- The page kind of an engine class (R141, R504). -/
def engKind (cls : Nat) : PageKind :=
  [PageKind.bfe, .bfe, .dte, .tfe, .fdc, .lde, .lee, .pce, .tce].getD cls .bfe

/-- The executor class of a kind of page (R260). -/
def kindCls : PageKind → Option Nat
  | .coreCtl => some 0 | .bfe => some 1 | .dte => some 2 | .tfe => some 3 | .fdc => some 4
  | .lde => some 5 | .lee => some 6 | .pce => some 7 | .tce => some 8
  | _ => none

/-- Octant of a ring position; `none` for the five stops between octants (R335). -/
def stopOctant (p : Nat) : Option Nat := (List.range 8).find? fun o => decide (octBase o ≤ p) && decide (p < octBase o + 10)

/-- The octant whose rail feeds a part; `none` for parts of the other domains (R515). -/
def Page.octant (p : Page) : Option Nat :=
  match p.kind with
  | .coreCtl => some (p.ix / 17 / 2)
  | .coreDbg => some (p.ix / 17 / 2)
  | .clod => some (p.ix / 2)
  | .dbBank => some (p.ix / 4)
  | .hbmPc => some (p.ix / 16)
  | .lane => some (p.ix / 8)
  | .laneGroup => some p.ix
  | .port => some (p.ix / 8)
  | .framer => some (if p.ix = 16 then 7 else p.ix / 2)
  | .stop => stopOctant p.ix
  | k => (kindCls k).map fun c => engGroup c p.ix / 4

/-! ### Capabilities and floors -/

/-- PG_CAPS of a part: PACE, SPARE, RETAIN, TEND and RETIRE in bits 0 to 4. R621 fixes the control plane and R516 names
the parts that take RETAIN; the rest is a reading of R13, R37, R507 and R572 (log entry 18). -/
def Page.caps (p : Page) : Nat :=
  match p.kind with
  | .coreCtl | .bfe | .dte | .tfe | .fdc | .lde | .lee | .pce | .tce => 0x1F
  | .framer => 0x1B
  | .clod | .dbBank | .hbmPc => 0x1D
  | .lane | .laneGroup => 0x0C
  | .dmaCh | .port | .rvLink | .memSys | .hqd => 0x08
  | .dmaUnit => 0x09
  | .fabric | .sediment | .stop => 0x01
  | .tilth => 0x09
  | _ => 0

/-- A grade A floor at grade B: 23/26, rounded down to three significant figures (R10). -/
def gradeB (n : Nat) : Nat :=
  let x := n * 23 / 26
  let u := if x ≥ 1000 then 10 else 1
  x / u * u

/-- Grade floor of a kind of part in Mbeat/s; 0 for clocked parts (R9, R153, R195, R219, R224, R334, R369, R407, R621). -/
def kindFloor : PageKind → Nat
  | .coreCtl => if Config.gradeA then 1300 else 1150
  | k =>
    let a := match k with
      | .bfe | .dte | .lde | .pce | .tce | .clod | .dbBank => 1000
      | .tfe => 925
      | .fdc => 800
      | .lee => 782
      | .fabric | .tilth => 3000
      | .sediment | .stop => 2000
      | .dmaUnit => 3125
      | _ => 0
    if Config.gradeA then a else gradeB a

/-- State of an octant: 0 FULL, 1 DERATE_1, 2 DERATE_2, 3 OUT (R532, R543). -/
def State.octState (s : State) (o : Nat) : Nat := s.fld ⟨.octant, o⟩ Reg.PWR_OCT_STATE 8 2

/-- PG_PACE.FLOOR: the grade floor, or the derated floor of the part's octant, rounded down (R328, R532). -/
def State.floorOf (s : State) (p : Page) : Nat :=
  let f := kindFloor p.kind
  match p.octant with
  | none => f
  | some o => match s.octState o with
    | 0 => f
    | 1 => f * 80 / 100
    | 2 => f * 64 / 100
    | _ => 0

/-- The causes that a page's PG_IRQ_STAT defines beside FAULT and STATE (R436, R511, R541, R544, R584, R587). -/
def kindIrq : PageKind → Nat
  | .device | .ward | .hif | .thermal => 1
  | .kaolin => 3
  | .lane => 15
  | _ => 0

/-! ### What is measured -/

/-- A measured value of a register; nothing has been measured at AIRTIME 0 (log entry 13). -/
def State.measured (s : State) (p : Page) (off : Nat) : Nat :=
  if s.airtime = 0 then 0 else (Config.measured (p.addr + off) s.airtime).toNat

/-- PG_PACE.PACE (R13, R506): 0 for clocked parts. -/
def State.pace (s : State) (p : Page) : Nat := if bitOf p.caps 0 then s.measured p Reg.PG_PACE % 2 ^ 16 else 0

/-! ### Pages by address -/

/-- Every kind of page. -/
def allKinds : List PageKind :=
  [.device, .ward, .hif, .fnPage, .coreCtl, .coreDbg, .clod, .bfe, .dte, .tfe, .fdc, .lde, .lee, .pce, .tce, .hqd,
   .fabric, .tilth, .ringSys, .stop, .probe, .memSys, .dbBank, .hbmPc, .dmaCh, .dmaUnit, .lane, .laneGroup, .port,
   .rvLink, .framer, .timeBase, .power, .octant, .thermal, .kaolin, .sediment, .telemetry]

/-- The part of a kind that an instance of its class names (R504). -/
def kindIx (k : PageKind) (inst : Nat) : Option Nat :=
  match k with
  | .coreCtl => if inst < 544 ∧ inst % 2 = 0 then some (inst / 2) else none
  | .coreDbg => if inst < 544 ∧ inst % 2 = 1 then some (inst / 2) else none
  | _ => if k.base.2 ≤ inst ∧ inst < k.base.2 + k.count then some (inst - k.base.2) else none

/-- The page of a class and instance (R504). -/
def pageOf (cls inst : Nat) : Option Page :=
  ((allKinds.filter fun k => k.base.1 == cls).filterMap fun k => (kindIx k inst).map fun i => (⟨k, i⟩ : Page)).head?

/-- The page that a BAR0 offset lies in (R504). -/
def pageAt (a : Nat) : Option Page := if a < 0x10000000 then pageOf (a / 0x1000000) (a / 0x1000 % 4096) else none

/-- Every page of a kind. -/
def pagesOf (k : PageKind) : List Page := (List.range k.count).map fun i => ⟨k, i⟩

/-- The parts of the data and control planes (R39, R580). -/
def planeKinds : List PageKind :=
  [.coreCtl, .clod, .bfe, .dte, .tfe, .fdc, .lde, .lee, .pce, .tce, .hqd, .fabric, .tilth, .ringSys, .stop, .probe,
   .memSys, .dbBank, .hbmPc, .dmaCh, .dmaUnit, .lane, .laneGroup, .port, .rvLink, .framer, .sediment]

end Sys2Proof.Machine
end

