-- ==== Sys2Proof/Machine/TilthOps.lean ====
section
/-!
DEFINITION. Sys2Proof/Machine/TilthOps.lean: what Tilth decides with: stop positions and distances (R335, R336), logical identities
(R37), pools and shares (R307, R310, R311), eligibility (R309, R324), the choice among executors (R313, R314), handle
entries (R317) and the storage they are bound to (R321, R322).
-/
namespace Sys2Proof.Machine

/-- The window of a function. -/
def State.win (s : State) (f : Nat) : FnWin := lookupD FnWin.reset f s.wins

/-- The window of a function replaced. -/
def State.setWin (s : State) (f : Nat) (w : FnWin) : State := { s with wins := insertKey f w s.wins }

/-! ### Stops and executors -/

/-- Stop of an executor; a host function's is the PCIe stop (R321). -/
def execStop : Exec → Nat
  | .core k => stopCL (k / 17)
  | .engine cls i => stopEG (engGroup cls i)
  | .host _ _ => stopPcie

/-- The page of an executor. -/
def execPage : Exec → Option Page
  | .core k => some ⟨.coreCtl, k⟩
  | .engine cls i => some ⟨engKind cls, i⟩
  | .host _ _ => none

/-- Executor class of an executor (R260). -/
def execCls : Exec → Nat
  | .core _ => 0
  | .engine cls _ => cls
  | .host _ _ => 9

/-- Logical instances of a class (R2, R37). -/
def classSize (cls : Nat) : Nat := [256, 32, 16, 24, 16, 16, 8, 4, 4].getD cls 0

/-- Physical instances of a class: the active count and one spare, or a spare per clod (R37). -/
def classPhys (cls : Nat) : Nat := if cls = 0 then 272 else classSize cls + 1

/-- Width of the LOGICAL field of the class's identity register (R106, R182, R220, R256). -/
def logicalBits (cls : Nat) : Nat := if cls = 0 then 8 else if cls = 1 ∨ cls = 3 then 5 else 4

/-- Offset of the identity register, the first after the common header on every executor's page. -/
def identOff : Nat := Reg.GVC_IDENT

/-- The logical number a physical executor holds (R37, R38). -/
def State.logical (s : State) (x : Exec) : Option Nat :=
  match (execPage x) with
  | some p =>
    let w := logicalBits (execCls x)
    if s.fld p identOff w 1 = 1 then some (s.fld p identOff 0 w) else none
  | none => none

/-- The physical executors of a class. -/
def classExecs (cls : Nat) : List Exec :=
  if cls = 0 then (List.range 272).map Exec.core else (List.range (classPhys cls)).map (Exec.engine cls)

/-- Is the executor READY? A host function always is (R305). -/
def State.execReady (s : State) (x : Exec) : Bool :=
  match (execPage x) with
  | some p => s.ready p
  | none => true

/-! ### Pools -/

/-- The record of a pool (R307); one never written is all zero. -/
def State.pool (s : State) (p : Nat) : List Word := lookupD (List.replicate 24 0) p s.tilth.pools

def poolValid (r : List Word) : Bool := wfld r 0 0 1 == 1
def poolOwner (r : List Word) : Nat := wfld r 0 1 6
def poolShedEn (r : List Word) : Bool := wfld r 0 7 1 == 1
def poolLocalMargin (r : List Word) : Nat := wfld r 10 0 16
def poolShedMargin (r : List Word) : Nat := wfld r 10 16 16
def poolClodQuota (r : List Word) : Nat := wfld r 11 0 7
def poolDbBase (r : List Word) : Nat := (r.getD 12 0).toNat + 2 ^ 32 * wfld r 13 0 16
def poolDbSize (r : List Word) : Nat := (r.getD 14 0).toNat * 4096
def poolHbmBase (r : List Word) : Nat := (r.getD 15 0).toNat + 2 ^ 32 * wfld r 16 0 16
def poolHbmSize (r : List Word) : Nat := (r.getD 17 0).toNat * 65536
def poolHtab (r : List Word) : Nat := (r.getD 18 0).toNat + 2 ^ 32 * wfld r 19 0 16
def poolHlog (r : List Word) : Nat := wfld r 20 0 5

/-- Is logical instance `n` of a class in the pool's set (R307)? -/
def poolHas (r : List Word) (cls n : Nat) : Bool :=
  match cls with
  | 0 => wfld r 0 (16 + n / 16) 1 == 1
  | 1 => wfld r 1 n 1 == 1
  | 2 => wfld r 2 n 1 == 1
  | 3 => wfld r 3 n 1 == 1
  | 4 => wfld r 2 (16 + n) 1 == 1
  | 5 => wfld r 4 n 1 == 1
  | 6 => wfld r 4 (16 + n) 1 == 1
  | 7 => wfld r 4 (24 + n) 1 == 1
  | 8 => wfld r 4 (28 + n) 1 == 1
  | _ => false

/-- SHARE of a class, in 1/16 executor (R307). -/
def poolShare (r : List Word) (cls : Nat) : Nat := wfld r (5 + cls / 2) (16 * (cls % 2)) 13

/-- The logical instances of a class in the pool's set. -/
def poolSet (r : List Word) (cls : Nat) : List Nat := (List.range (classSize cls)).filter (poolHas r cls)

/-- Key of a pool and class among the credits. -/
def creditKey (p cls : Nat) : Nat := 16 * p + cls

/-- Share credit K in 1/16 Tc (R311). -/
def State.credit (s : State) (p cls : Nat) : Int := lookupD 0 (creditKey p cls) s.tilth.credits

/-- Executors of a class that run a pool's work: dispatched tasks, and engine commands started (R311). -/
def State.poolRunning (s : State) (p cls : Nat) : Nat :=
  (s.fab.items.filter fun i =>
    i.phase == .dispatched && (s.qcb i.q).pool == p && (s.qcb i.q).cls == cls && (cls == 0 || i.started)).length

/-- Has the pool a task of the class that is ready or running (R311)? -/
def State.poolActive (s : State) (p cls : Nat) : Bool :=
  s.fab.items.any fun i =>
    (i.phase == .ready || i.phase == .dispatched) && (s.qcb i.q).pool == p && (s.qcb i.q).cls == cls

/-- Credits over `d` Tc in which nothing else changed (R311). -/
def State.accrue (s : State) (d : Nat) : State :=
  s.tilth.pools.foldl
    (fun s e =>
      if poolValid e.2 then
        (List.range 9).foldl
          (fun s cls =>
            let share : Int := poolShare e.2 cls
            let k := s.credit e.1 cls + (if s.poolActive e.1 cls then share * d else 0) -
              16 * (s.poolRunning e.1 cls : Int) * d
            let k := max (-(share * 131072)) (min k (share * 131072))
            { s with tilth := { s.tilth with credits := insertKey (creditKey e.1 cls) k s.tilth.credits } })
          s
      else s)
    s

/-! ### Eligibility and choice -/

/-- Image and entry that a core task runs: the descriptor's, or the queue's for a note (R263, R291). -/
def State.itemImage (s : State) (it : Item) : Nat :=
  if dKind it.words = 2 then wfld (s.qcb it.q).words 3 16 12 else dImage it.words
def State.itemEntry (s : State) (it : Item) : Nat :=
  if dKind it.words = 2 then wfld (s.qcb it.q).words 3 0 16 else dEntry it.words

/-- The images that a core's instruction memory holds (R585). -/
def State.coreImages (s : State) (k : Nat) : List Nat :=
  let p : Page := ⟨.coreDbg, k⟩
  if s.fld p Reg.GVI_LOAD 20 1 = 1 then
    (List.range (min 8 (s.fld p Reg.GVI_LOAD 16 4))).map fun j =>
      s.fld p (Reg.GVI_IMAGES + 4 * (j / 2)) (16 * (j % 2)) 12
  else []

/-- Save areas in use on a core (R316). -/
def State.savesUsed (s : State) (k : Nat) : List Nat :=
  (s.fab.items.filter fun i => i.exec == some (.core k)).filterMap (·.save)

/-- The command block's CTX word of a COMMAND, or the CTX_ID of a context image; `none` if it names no context
(R141, R145). -/
def State.itemCtx (s : State) (it : Item) : Option Nat :=
  match it.kind with
  | .block =>
    match s.readWords (dCmdAddr it.words + 4) 1 with
    | some [w] => if bitOf w.toNat 16 then some (bitsOf w.toNat 0 16) else none
    | _ => none
  | .esave _ =>
    match s.readWords (dCmdAddr it.words) 1 with
    | some [w] => some (bitsOf w.toNat 0 16)
    | _ => none
  | .erest => none

/-- The context that any COMMAND names, an erest by its image (R145, R146). -/
def State.itemCtxId (s : State) (it : Item) : Option Nat :=
  match it.kind with
  | .erest =>
    match s.readWords (dCmdAddr it.words) 1 with
    | some [w] => some (bitsOf w.toNat 0 16)
    | _ => none
  | _ => s.itemCtx it

/-- The engine instance that holds a context of a function (R146). -/
def State.ctxHolder (s : State) (cls fn ctx : Nat) : Option Nat :=
  (s.ctxs.find? fun c => c.cls == cls && c.fn == fn && c.ctx == ctx).map (·.inst)

/-- Context slots of a class (R166, R173, R191, R208, R222). -/
def ctxSlots (cls : Nat) : Nat := if cls = 1 then 16 else if cls = 4 then 64 else 0

/-- Weight-memory pages that a BFE context of a state size holds: 2 × BANK_PAGES (R166, R167). -/
def bfePages (size : Nat) : Nat := (size / 64 - 1) / 1024

/-- The contexts of an instance. -/
def State.ctxOn (s : State) (cls i : Nat) : List Ctx := s.ctxs.filter fun c => c.cls == cls && c.inst == i

/-- Has an instance room for a context of `size` bytes of state (R145, R166)? -/
def State.ctxRoom (s : State) (cls i size : Nat) : Bool :=
  decide ((s.ctxOn cls i).length < ctxSlots cls) &&
    (cls != 1 || decide ((s.ctxOn cls i).foldl (fun a c => a + bfePages c.size) 0 + bfePages size ≤ 64))

/-- May an erest go to instance `i` (R145): it holds the context, or no instance does and it has room; an image that
cannot be read, and a class without contexts, may go anywhere. -/
def State.erestOk (s : State) (it : Item) (cls i : Nat) : Bool :=
  match s.readWords (dCmdAddr it.words) 2 with
  | some [w0, w1] =>
    ctxSlots cls == 0 || bitsOf w0.toNat 16 4 != cls ||
      (match s.ctxHolder cls it.fn (bitsOf w0.toNat 0 16) with
       | some j => j == i
       | none => s.ctxRoom cls i (w1.toNat * 64))
  | _ => true

/-- Items in the window of an engine instance, in order of assignment (R315). -/
def State.window (s : State) (cls i : Nat) : List Nat := lookupD [] (4096 * cls + i) s.tilth.windows

def State.setWindow (s : State) (cls i : Nat) (w : List Nat) : State :=
  { s with tilth := { s.tilth with windows := insertKey (4096 * cls + i) w s.tilth.windows } }

/-- Commands that one core pushed for one context run in the order they were pushed (R146): the earlier ones not yet
complete must be on this instance already. -/
def State.ctxOrder (s : State) (it : Item) (x : Exec) : Bool :=
  match it.issuer, s.itemCtxId it with
  | .core k _ _, some id =>
    s.fab.items.all fun j =>
      !(decide (j.sn < it.sn) && j.phase != .completed && j.fn == it.fn && (s.qcb j.q).cls == (s.qcb it.q).cls &&
        (match j.issuer with
         | .core k' _ _ => k' == k
         | .notify => false) && s.itemCtxId j == some id) || j.exec == some x
  | _, _ => true

/-- Level of an item's queue. -/
def State.itemLevel (s : State) (it : Item) : Nat := (s.qcb it.q).level

/-- Is a core, or an engine instance, idle or running only work of levels 0 to 3 (R310)? -/
def State.highOnly (s : State) (x : Exec) : Bool :=
  s.fab.items.all fun i => !(i.phase == .dispatched && i.exec == some x && decide (s.itemLevel i ≥ 4))

/-- The reserve of a class in TLT_RSV (R310, R333). -/
def State.reserve (s : State) (cls : Nat) : Nat :=
  let w := (s.reg pgTilth Reg.TLT_RSV).toNat
  if cls = 0 then bitsOf w 0 3
  else if cls ≤ 6 then bitsOf w (4 * cls) 4
  else if cls = 7 then bitsOf w 28 2 else bitsOf w 30 2

/-- The reserve rule (R310). -/
def State.reserveOk (s : State) (it : Item) (x : Exec) : Bool :=
  decide (s.itemLevel it ≤ 3) ||
    (match x with
     | .core k =>
       decide ((((List.range 17).map fun j => Exec.core (17 * (k / 17) + j)).filter fun y =>
         y != x && s.execReady y && s.highOnly y).length ≥ s.reserve 0)
     | .engine cls _ =>
       decide (((classExecs cls).filter fun y => y != x && s.execReady y && s.highOnly y).length ≥ s.reserve cls)
     | .host _ _ => true)

/-- Eligibility without the reserve and share rules (R309, R324, R327). -/
def State.fits (s : State) (it : Item) (x : Exec) : Bool :=
  let c := s.qcb it.q
  (execCls x) == c.cls && s.execReady x && it.avoid != some x &&
    (match x with
     | .host f r => f == c.owner && it.q % 2 ^ s.fld ⟨.fnPage, f⟩ Reg.HIF_FN_CTRL 3 2 == r
     | _ =>
       match s.logical x with
       | none => false
       | some n =>
         poolValid (s.pool c.pool) && poolHas (s.pool c.pool) c.cls n &&
           (!dPinExec it.words || dKind it.words == 2 || dPinInst it.words == n) &&
           (match x with
            | .core k =>
              (s.coreImages k).contains (s.itemImage it) &&
                (!(dKind it.words == 0 && dPreemptible it.words) || decide ((s.savesUsed k).length < 4))
            | .engine cls i =>
              s.ctxOrder it x &&
              (match it.kind, s.itemCtx it with
               | .erest, _ => s.erestOk it cls i
               | _, some ctx => (s.ctxHolder cls it.fn ctx == some i) || (s.ctxHolder cls it.fn ctx).isNone
               | _, none => true)
            | .host _ _ => true))

/-- Eligibility but for shares (R309, R310). -/
def State.eligible0 (s : State) (it : Item) (x : Exec) : Bool := s.fits it x && s.reserveOk it x

/-- Some owed pool has a ready task eligible on `x` (R311). -/
def State.owedPool (s : State) (x : Exec) : Option Nat :=
  ((s.fab.items.filter fun i => i.phase == .ready && !i.blocked).find? fun i =>
    decide (s.credit (s.qcb i.q).pool (execCls x) > 0) && s.eligible0 i x).map fun i => (s.qcb i.q).pool

/-- The share rule (R311). -/
def State.shareOk (s : State) (it : Item) (x : Exec) : Bool :=
  decide (s.itemLevel it ≤ 3) || (execCls x) == 9 || decide (s.credit (s.qcb it.q).pool (execCls x) > 0) || (s.owedPool x).isNone

/-- R309 whole. -/
def State.eligible (s : State) (it : Item) (x : Exec) : Bool := s.eligible0 it x && s.shareOk it x

/-- Is the executor free to take a task (R269, R315, R497)? -/
def State.execFree (s : State) (x : Exec) : Bool :=
  match x with
  | .core k => (s.core k).run == .idle && !(s.fab.items.any fun i => i.phase == .dispatched && i.exec == some x)
  | .engine cls i => decide ((s.window cls i).length < 4)
  | .host f r =>
    let p : Page := ⟨.fnPage, f⟩
    let d := lookupD FnDlv.reset r (s.win f).dlv
    let size := 2 ^ s.fld p (Reg.HIF_FN_DLV + 16 * r) 0 5
    s.fld p (Reg.HIF_FN_DLV + 16 * r) 16 1 == 1 && (d.tail + 1) % size != d.head % size

/-- The measured pace of an executor and its floor (R506). -/
def State.paceOf (s : State) (x : Exec) : Nat × Nat :=
  match (execPage x) with
  | some p => (s.pace p, s.floorOf p)
  | none => (1, 1)

/-- Run estimate E(x) in Tc (R313), rounded down; the present PG_PACE stands for its average (log entry 13). -/
def State.estRun (s : State) (it : Item) (x : Exec) : Nat :=
  let p := s.paceOf x
  if p.1 = 0 then 64 * dRunEst it.words else 64 * dRunEst it.words * p.2 / p.1

/-- Finish F(x) (R313). -/
def State.estFinish (s : State) (it : Item) (x : Exec) : Nat :=
  (match x with
   | .engine cls i => ((s.window cls i).filterMap s.item?).foldl (fun a j => a + s.estRun j x) 0
   | _ => 0) + s.estRun it x

/-! ### Handle entries -/

/-- Pool and index of a handle (R317). -/
def hPool (h : Word) : Nat := h.toNat / 2 ^ 22
def hIndex (h : Word) : Nat := h.toNat % 2 ^ 22

/-- Address of a handle's entry (R317). -/
def State.hAddr (s : State) (h : Word) : Nat := poolHtab (s.pool (hPool h)) + 32 * hIndex h

/-- The handle names an entry of a VALID pool's table. -/
def State.hNamed (s : State) (h : Word) : Bool :=
  poolValid (s.pool (hPool h)) && decide (hIndex h < 2 ^ poolHlog (s.pool (hPool h)))

/-- The entry's eight words; `none` if it cannot be read. -/
def State.hEntry (s : State) (h : Word) : Option (List Word) := s.readWords (s.hAddr h) 8

/-- Writes an entry. -/
def State.setEntry (s : State) (h : Word) (e : List Word) : State := (s.write (s.hAddr h) (wordBytes (e.take 8))).1

def eSize (e : List Word) : Nat := wfld e 0 0 16 * 64
def eHint (e : List Word) : Nat := wfld e 0 16 2
def eMask (e : List Word) (m : Nat) : Bool := wfld e 0 (18 + m) 1 == 1
def eUses (e : List Word) : Nat := wfld e 0 22 8
def eNoMove (e : List Word) : Bool := wfld e 0 30 1 == 1
def eDecl (e : List Word) : Bool := wfld e 0 31 1 == 1
def eConsumer (e : List Word) : Nat := wfld e 1 0 20
def eAddr (e : List Word) : Nat := (e.getD 2 0).toNat + 2 ^ 32 * wfld e 3 0 16
def eMcls (e : List Word) : Nat := wfld e 3 16 4
def eState (e : List Word) : Nat := wfld e 3 20 4
def eLeft (e : List Word) : Nat := wfld e 3 24 8
def eBinder (e : List Word) : Word := e.getD 4 0
def eRefs (e : List Word) : Nat := wfld e 5 0 16

/-- Words 2 and 3 of an entry (R317). -/
def eWords23 (addr mcls st left : Nat) : List Word :=
  [w32 addr, w32 (bitsOf addr 32 16 + mcls % 16 * 2 ^ 16 + st % 16 * 2 ^ 20 + left % 256 * 2 ^ 24)]

/-- The entry with its binding fields replaced. -/
def eBind (e : List Word) (addr mcls st left : Nat) (binder : Word) (refs : Nat) : List Word :=
  [e.getD 0 0, e.getD 1 0] ++ eWords23 addr mcls st left ++ [binder, w32 (refs % 65536), 0, 0]

/-- The entry with REFS replaced. -/
def eSetRefs (e : List Word) (r : Nat) : List Word := e.set 5 (w32 (setBits (e.getD 5 0).toNat 0 16 r))

/-! ### Storage -/

/-- A place where storage may be sought (R321). -/
inductive Loc where
  | coreData (k : Nat)
  | clodMem (c : Nat)
  | deepAt (stop : Nat)
  | hbm
deriving DecidableEq, Repr

/-- Memory class of a place (R97). -/
def Loc.mcls : Loc → Nat
  | .coreData _ => 0 | .clodMem _ => 1 | .deepAt _ => 2 | .hbm => 3

/-- Granule of a memory class in bytes (R321). -/
def granule (mcls : Nat) : Nat := if mcls ≤ 1 then 64 else 4096

/-- A size rounded up to its granule. -/
def roundUp (n g : Nat) : Nat := (n + g - 1) / g * g

/-- Storage that overlaps a range. -/
def State.overlaps (s : State) (a n : Nat) : List Alloc :=
  s.tilth.allocs.filter fun x => decide (x.addr < a + n) && decide (a < x.addr + x.size)

/-- May `n` bytes at `a` be taken within [lo, hi)? -/
def State.freeAt (s : State) (lo hi g a n : Nat) : Bool :=
  decide (lo ≤ a) && decide (a + n ≤ hi) && decide (a % g = 0) && (s.overlaps a n).isEmpty

/-- First addresses at which free space of [lo, hi) may begin: its start, and the end of every storage in it. -/
def State.gapStarts (s : State) (lo hi g : Nat) : List Nat :=
  roundUp lo g :: ((s.tilth.allocs.filter fun x => decide (lo < x.addr + x.size) && decide (x.addr < hi)).map fun x =>
    roundUp (x.addr + x.size) g)

/-- Is there room for `n` bytes in [lo, hi)? -/
def State.roomIn (s : State) (lo hi g n : Nat) : Bool := (s.gapStarts lo hi g).any fun a => s.freeAt lo hi g a n

/-- Bytes of [lo, hi) that are free. -/
def State.freeBytes (s : State) (lo hi : Nat) : Nat :=
  (hi - lo) - (s.tilth.allocs.foldl (fun a x => a + (min hi (x.addr + x.size) - max lo x.addr)) 0)

/-- Bounds of core data memory and of clod memory that Tilth allocates from (R316, R321, R322, R333). -/
def State.coreRange (s : State) (k : Nat) : Nat × Nat :=
  let b := coreMemBase + k * 0x40000
  (b + s.fld pgTilth Reg.TLT_CORE_MAP 0 6 * 4096, b + 0x3C000)
def State.clodRange (s : State) (c : Nat) : Nat × Nat :=
  let b := clodMemBase + c * 0x400000
  (b + s.fld pgTilth Reg.TLT_CORE_MAP 8 6 * 65536, b + 0x400000)

/-- Clod memory that a pool's handles hold in a clod. -/
def State.clodUsed (s : State) (p c : Nat) : Nat :=
  s.tilth.allocs.foldl
    (fun a x => a + (if x.mcls = 1 ∧ hPool x.handle = p ∧ s.region x.addr = .clodMem c then x.size else 0)) 0

/-- The part of a pool's deep-buffer region that lies in a bank. -/
def bankRange (r : List Word) (b : Nat) : Nat × Nat :=
  let lo := deepBase + b * 0x300000
  (max lo (poolDbBase r), min (lo + 0x300000) (poolDbBase r + poolDbSize r))

/-- Banks of a stop with room, of a pool. -/
def State.roomyBanks (s : State) (r : List Word) (o n : Nat) : List Nat :=
  ((List.range 4).map fun j => 4 * o + j).filter fun b =>
    let x := bankRange r b
    s.ready ⟨.dbBank, b⟩ && decide (x.1 < x.2) && s.roomIn x.1 x.2 4096 n

/-- Octants in the order of their deep-buffer stops from a stop: nearest first, ties to the lower position (R321). -/
def octOrder (stop : Nat) : List Nat :=
  (List.range 44).flatMap fun h => (List.range 8).filter fun o => hops (stopDB o) stop == h

/-- The banks from which deep-buffer storage nearest a stop is taken: at the first stop with room, those with the most
free space of the pool's region (R321). -/
def State.deepBanks (s : State) (r : List Word) (stop n : Nat) : List Nat :=
  match (octOrder stop).find? fun o => !(s.roomyBanks r o n).isEmpty with
  | none => []
  | some o =>
    let bs := s.roomyBanks r o n
    let free (b : Nat) : Nat := s.freeBytes (bankRange r b).1 (bankRange r b).2
    bs.filter fun b => bs.all fun b' => decide (free b' ≤ free b)

/-- Pseudo-channel of the first byte of an HBM address. -/
def Region.channel : Region → Option Nat
  | .hbmIntl p => some p
  | .hbmMir p _ => some p
  | .hbmLocal p => some p
  | _ => none

/-- May HBM storage of `n` bytes begin at `a`: free, within the pool's region, mapped, on a READY channel, and wholly in
one slice in the channel-local window (R321, R326)? -/
def State.hbmAt (s : State) (r : List Word) (a n : Nat) : Bool :=
  s.freeAt (poolHbmBase r) (poolHbmBase r + poolHbmSize r) 4096 a n &&
    (match s.region a, s.region (a + n - 1) with
     | .hbmLocal p, .hbmLocal q => p == q && s.ready ⟨.hbmPc, p⟩
     | .hbmLocal _, _ => false
     | x, y =>
       (match x.channel, y.channel with
        | some p, some _ => s.ready ⟨.hbmPc, p⟩
        | _, _ => false))

/-- Candidate first addresses in HBM: of each gap its first 128 blocks, and the starts of the slices (R365). -/
def State.hbmStarts (s : State) (r : List Word) : List Nat :=
  let lo := poolHbmBase r
  let hi := lo + poolHbmSize r
  let slice0 := hbmBase + 128 * s.intl + 64 * s.mir
  let L := pcCap - s.intl - s.mir
  ((s.gapStarts lo hi 4096).flatMap fun g => (List.range 128).map fun j => g + 4096 * j) ++
    (List.range 128).map fun p => slice0 + p * L

/-- Channels in which HBM storage of the pool may begin now. -/
def State.hbmChannels (s : State) (r : List Word) (n : Nat) : List Nat :=
  ((s.hbmStarts r).filter fun a => s.hbmAt r a n).filterMap fun a => (s.region a).channel

/-- The channel whose turn it is for BULK (R321): the next in rotation that has room. -/
def State.bulkChannel (s : State) (r : List Word) (n : Nat) : Option Nat :=
  let ok := s.hbmChannels r n
  ((List.range 128).map fun j => (s.tilth.bulkNext + j) % 128).find? fun p => ok.contains p

/-- Has a place room for a buffer (R321)? -/
def State.locRoom (s : State) (p : Nat) (l : Loc) (bytes : Nat) : Bool :=
  let r := s.pool p
  let n := roundUp bytes (granule l.mcls)
  match l with
  | .coreData k => s.roomIn (s.coreRange k).1 (s.coreRange k).2 64 n
  | .clodMem c =>
    s.ready ⟨.clod, c⟩ && decide (s.clodUsed p c + n ≤ poolClodQuota r * 65536) &&
      s.roomIn (s.clodRange c).1 (s.clodRange c).2 64 n
  | .deepAt st => !(s.deepBanks r st n).isEmpty
  | .hbm => !(s.hbmChannels r n).isEmpty

/-- Is `a` an address that Tilth may choose at a place with room? -/
def State.locAt (s : State) (p : Nat) (bulk : Bool) (l : Loc) (bytes a : Nat) : Bool :=
  let r := s.pool p
  let n := roundUp bytes (granule l.mcls)
  match l with
  | .coreData k => s.freeAt (s.coreRange k).1 (s.coreRange k).2 64 a n
  | .clodMem c => s.freeAt (s.clodRange c).1 (s.clodRange c).2 64 a n
  | .deepAt st =>
    (s.deepBanks r st n).any fun b => s.freeAt (bankRange r b).1 (bankRange r b).2 4096 a n
  | .hbm => s.hbmAt r a n && (!bulk || (s.region a).channel == s.bulkChannel r n)

/-- Could a place ever hold storage of the pool (R322)? -/
def State.locEver (s : State) (p : Nat) (l : Loc) : Bool :=
  let r := s.pool p
  match l with
  | .coreData _ => true
  | .clodMem c => decide (poolClodQuota r > 0) && wfld r 0 (16 + c) 1 == 1
  | .deepAt _ => decide (poolDbSize r > 0)
  | .hbm => decide (poolHbmSize r > 0)

/-- Target executors of NEAR_CONSUMER: those with the least run estimate among the READY executors of the consumer
queue's pool set (R321). -/
def State.consumers (s : State) (q : Nat) (it : Item) : List Exec :=
  let c := s.qcb q
  if isSvc q ∨ !c.enabled then []
  else
    let xs := (classExecs c.cls).filter fun x =>
      s.execReady x &&
        (match s.logical x with
         | some n => poolHas (s.pool c.pool) c.cls n
         | none => false)
    xs.filter fun x => xs.all fun y => decide (s.estFinish it x ≤ s.estFinish it y)

/-- The places of a handle in the order of its hint, one list per admissible target (R321). `x` is the binding
executor; `none` for a BIND command, which stands at the fabric stop (R320). -/
def State.placeOrders (s : State) (e : List Word) (x : Option Exec) (it : Item) : List (List Loc) :=
  let st := match x with
    | some y => (execStop y)
    | none => stopFabric
  match eHint e with
  | 0 =>
    let ts := s.consumers (eConsumer e) it
    if ts.isEmpty then [[.deepAt st, .hbm]]
    else ts.map fun t =>
      (match t with
       | .core k => [Loc.clodMem (k / 17)]
       | _ => []) ++ [.deepAt (execStop t), .hbm]
  | 1 =>
    [(match x with
      | some (.core k) => [Loc.coreData k, .clodMem (k / 17)]
      | _ => []) ++ [.deepAt st, .hbm]]
  | _ => [[.hbm, .deepAt st]]

/-- The places of an order that CLASS_MASK, PIN_MEM and R322 allow. -/
def allowedLocs (e : List Word) (pin : Option Nat) (ls : List Loc) : List Loc :=
  ls.filter fun l =>
    eMask e l.mcls && (l.mcls != 0 || eUses e == 1) &&
      (match pin with
       | some m => m == l.mcls
       | none => true)

/-- Stop of the storage at an address (R313). -/
def State.memStop (s : State) (a : Nat) : Nat :=
  match s.region a with
  | .coreMem k => stopCL (k / 17)
  | .clodMem c => stopCL c
  | .deep b => stopDB (b / 4)
  | .hbmIntl p => stopHB (p / 8)
  | .hbmMir p _ => stopHB (p / 8)
  | .hbmLocal p => stopHB (p / 8)
  | _ => stopPcie

/-- What a binding comes to. -/
inductive Bound where
  | at_ (a mcls : Nat)
  /-- No class could ever hold it (R322). -/
  | never
  | noRoom
  /-- The address offered is none that the rules allow. -/
  | notAllowed
deriving DecidableEq, Repr

/-- Judges the address offered for a handle (R321 to R323). -/
def State.judge (s : State) (h : Word) (e : List Word) (pin : Option Nat) (x : Option Exec) (it : Item) (place : Nat) :
    Bound :=
  let p := hPool h
  let orders := (s.placeOrders e x it).map (allowedLocs e pin)
  if orders.all fun ls => ls.all fun l => !s.locEver p l then .never
  else
    let firsts := orders.filterMap fun ls => ls.find? fun l => s.locEver p l && s.locRoom p l (eSize e)
    if firsts.isEmpty then .noRoom
    else
      match firsts.find? fun l => s.locAt p (eHint e == 2) l (eSize e) place with
      | some l => .at_ place l.mcls
      | none => .notAllowed

/-- Physical instance of the memory part of an address, as binding records show it (R331). -/
def State.memInst (s : State) (a : Nat) : Nat :=
  match s.region a with
  | .coreMem k => k
  | .clodMem c => c
  | .deep b => b
  | .hbmIntl p => p / 8
  | .hbmMir p _ => p / 8
  | .hbmLocal p => p / 8
  | _ => 0

/-- A record about a handle (R331). -/
def State.traceHandle (s : State) (reason : Nat) (it : Option Item) (h : Word) (a mcls : Nat) : State :=
  match it with
  | some i =>
    let c := s.qcb i.q
    s.trace ⟨reason, c.level, c.cls, i.q, c.owner, i.taskid, s.memInst a, mcls, (dTag i.words).toNat,
      dDeadline i.words, h⟩
  | none => s.trace ⟨reason, 0, 0, 0, 0, 0, s.memInst a, mcls, 0, 0, h⟩

/-- Storage taken for a handle; BULK rotation moves on. -/
def State.take (s : State) (h : Word) (a bytes mcls : Nat) (bulk : Bool) : State :=
  let al : Alloc := ⟨h, a, roundUp bytes (granule mcls), mcls⟩
  let nxt := if bulk ∧ mcls = 3 then (((s.region a).channel).map fun p => (p + 1) % 128).getD s.tilth.bulkNext
    else s.tilth.bulkNext
  { s with tilth := { s.tilth with allocs := s.tilth.allocs ++ [al], bulkNext := nxt } }

/-- Storage of a handle given back: tasks that waited for room are tried again (R323). -/
def State.give (s : State) (h : Word) (a : Nat) : State :=
  { s with
      tilth := { s.tilth with
        allocs := s.tilth.allocs.filter (fun x => !(x.handle == h && x.addr == a)),
        migr := s.tilth.migr.filter (fun m => m.handle != h) }
      fab := { s.fab with items := s.fab.items.map fun i => { i with blocked := false } } }

/-- A migration of a handle is abandoned (R325). -/
def State.migrAbandon (s : State) (it : Option Item) (h : Word) : State :=
  match s.tilth.migr.find? fun m => m.handle == h with
  | none => s
  | some m =>
    let s := s.give h m.dst.addr
    let s := (match s.hEntry h with
      | some e =>
        if eState e = 2 then
          s.setEntry h (eBind e (eAddr e) (eMcls e) 1 (eLeft e) (eBinder e) (eRefs e))
        else s
      | none => s)
    (s.count pgTilth Reg.TLT_TALLY_ABANDON 1).traceHandle 0x23 it h m.dst.addr m.dst.mcls

/-- The storage of a handle is freed: word 0 zero, STATE FREE; ADDR, MCLASS and BINDER keep their values (R320). -/
def State.freeHandle (s : State) (it : Option Item) (h : Word) (e : List Word) : State :=
  let s := s.migrAbandon it h
  let s := s.give h (eAddr e)
  let s := s.setEntry h (eBind (e.set 0 0) (eAddr e) (eMcls e) 0 0 (eBinder e) (eRefs e))
  (s.count pgTilth Reg.TLT_TALLY_FREE 1).traceHandle 0x21 it h (eAddr e) (eMcls e)

/-- One handle loses a reference and a use (R320). -/
def State.unref (s : State) (it : Item) (h : Word) : State :=
  match s.hEntry h with
  | none => s
  | some e =>
    let refs := eRefs e - 1
    if eUses e = 0 then s.setEntry h (eSetRefs e refs)
    else if eLeft e ≤ 1 then s.freeHandle (some it) h (eSetRefs e refs)
    else s.setEntry h (eBind e (eAddr e) (eMcls e) (eState e) (eLeft e - 1) (eBinder e) refs)

/-- The outcome of resolving handles. -/
inductive Res where
  | ok (s : State) (bufs : List (Nat × Nat)) (mcls : Nat)
  | fault (h : Word)
  | wait (h : Word)
  | notAllowed

/-- Resolves the handles of a dispatch in list order (R319); `places` offers an address for each binding in turn;
`mc` is the class of the first binding so far, 15 for none. -/
def resolve (it : Item) (x : Exec) (tid : Word) : List Word → List Nat → State → List (Nat × Nat) → Nat → Res
  | [], _, s, bufs, mc => .ok s bufs mc
  | h :: hs, places, s, bufs, mc =>
    if !s.hNamed h || poolOwner (s.pool (hPool h)) != it.fn then .fault h
    else
      match s.hEntry h with
      | none => .fault h
      | some e =>
        if eState e = 0 then
          if !eDecl e ∨ eSize e = 0 ∨ eHint e = 3 then .fault h
          else
            let pin := if dPinMem it.words then some (dPinCls it.words) else none
            match s.judge h e pin (some x) it (places.headD 0) with
            | .never => .fault h
            | .noRoom => .wait h
            | .notAllowed => .notAllowed
            | .at_ a m =>
              let s := s.take h a (eSize e) m (eHint e == 2)
              let e0 := e.set 0 (w32 (setBits (e.getD 0 0).toNat 31 1 0))
              let s := s.setEntry h (eBind e0 a m 1 (eUses e) tid 1)
              let s := (s.count pgTilth Reg.TLT_TALLY_BIND 1).traceHandle 0x20 (some { it with taskid := tid }) h a m
              resolve it x tid hs (places.drop 1) s (bufs ++ [(a, m)]) (if mc = 15 then m else mc)
        else
          let s := if eState e = 2 then s.migrAbandon (some it) h else s
          let e' := (s.hEntry h).getD e
          let s := s.setEntry h (eSetRefs e' (eRefs e' + 1))
          resolve it x tid hs places s (bufs ++ [(eAddr e', eMcls e')]) mc

/-- The handles a TASK names; `none` if its list cannot be read (R263, R319). -/
def State.taskHandles (s : State) (it : Item) : Option (List Word) :=
  let n := dNbuf it.words
  if dKind it.words ≠ 0 ∨ n = 0 then some []
  else if n ≤ 2 then some ((it.words.drop 14).take n)
  else
    let a := (it.words.getD 14 0).toNat + 2 ^ 32 * wfld it.words 15 0 16
    if a % 4 ≠ 0 then none else s.readWords a n

/-- Distance D(x) over the task's BOUND handles (R313). -/
def State.distance (s : State) (it : Item) (x : Exec) : Nat :=
  ((s.taskHandles it).getD []).foldl
    (fun a h =>
      if s.hNamed h then
        (match s.hEntry h with
         | some e => if eState e = 0 then a else a + eSize e * hops (s.memStop (eAddr e)) (execStop x)
         | none => a)
      else a) 0

/-- The executors that Tilth chooses among (R313, R314). -/
def State.candidates (s : State) (it : Item) : List Exec :=
  let cls := (s.qcb it.q).cls
  if cls = 9 then [] else (classExecs cls).filter fun x => s.eligible it x && s.execFree x

/-- Tilth's choice (R314): among the candidates `x` is best, ties in any order. -/
def State.chosen (s : State) (it : Item) (x : Exec) : Bool :=
  let xs := s.candidates it
  let lm := poolLocalMargin (s.pool (s.qcb it.q).pool)
  let dl := dDeadline it.words
  let F (y : Exec) : Nat := s.estFinish it y
  let D (y : Exec) : Nat := s.distance it y
  let slackOver (f : Nat) : Bool := decide (s.airtime + f + 64 * lm < dl)
  let tight := dl != 0 && (lm == 0xFFFF || !(xs.any fun y => slackOver (F y)))
  if (s.qcb it.q).cls = 9 then true
  else if tight then xs.all fun y => decide (F x < F y) || (F x == F y && decide (D x ≤ D y))
  else
    let ys := if dl = 0 then xs else xs.filter fun y => slackOver (F y)
    ys.contains x && ys.all fun y => decide (D x < D y) || (D x == D y && decide (F x ≤ F y))

end Sys2Proof.Machine
end

