-- ==== Sys2Proof/Machine/FabricRun.lean ====
section
/-!
DEFINITION. Sys2Proof/Machine/FabricRun.lean: what the fabric and Tilth do to tasks: delivering events (R288, R294), releasing
triggers (R267), dispatching (R96 to R98, R269, R319), releasing completions (R276, R277), ending holds (R283), and watching
wait groups (R297). The commands that call these are in Sys2Proof.Machine.FabricCmds.
-/
namespace Sys2Proof.Machine

/-- REST entry has begun: nothing new is dispatched, fetched, framed or requested (R520). -/
def State.quiet (s : State) : Bool := s.rest.isSome

/-- Does the task fabric act (R34, R515, R580)? -/
def State.fabOn (s : State) : Bool := s.ready pgFabric && !(s.rest.any fun r => r.done)

/-- Does Tilth decide (R622)? -/
def State.tilthOn (s : State) : Bool := s.ready pgTilth

/-! ### Events -/

/-- An event addressed to a task (R288): matched by its open wait, or held; consumed once the task has ended. -/
def State.deliverTask (s : State) (tid : Word) (w : DWord) : State :=
  match s.task? tid with
  | none => s.count pgFabric Reg.TFB_TALLY_NOTEDROP 1
  | some it =>
    if it.phase == .completed then s
    else
      let s := match it.wait with
        | some wt =>
          let r := wt.offer w
          s.updItem it.sn fun i =>
            { i with wait := some r.1, heldEv := if r.2 then i.heldEv else i.heldEv ++ [w] }
        | none => s.updItem it.sn fun i => { i with heldEv := i.heldEv ++ [w] }
      match it.exec with
      | some (.core k) => retry s k
      | _ => s

/-- An armed descriptor is released by an event (R267); a late one of a DROP_LATE queue is shed (R282). -/
def State.releaseTrigger (s : State) (it : Item) (w : DWord) : State :=
  if (s.qcb it.q).overflow = 2 ∧ s.late it.words then s.shed it shedLateQueued 0x08 0
  else (s.updItem it.sn fun i => i.released w).refresh it.q

/-- A published event that a filter of a link matches goes to its peer; one with a code of 0x70 to 0x7F does not (R478). -/
def State.rvForward (s : State) (w : DWord) : State :=
  if bitsOf w.toNat 28 4 = 7 then s
  else s.links.rv.foldl
    (fun s e =>
      if (List.range 16).any fun i => entryMatches (e.2.entry 3 i) w then s.rvTake e.1 (.event w) else s)
    s

/-- A published event (R267, R288, R294): every armed descriptor it matches is released in arm order, and every open wait
is offered it, among those of the owner of its source and of the PF. -/
def State.deliverPub (s : State) (owner : Nat) (w : DWord) : State :=
  let mine (i : Item) : Bool := i.fn == owner || i.fn == 0
  let armed := s.fab.items.filter fun i =>
    i.phase == .armed && mine i && evMatches (i.words.getD 4 0) (i.words.getD 5 0) (i.words.getD 6 0) w
  let waits := s.fab.items.filter fun i => i.wait.isSome && mine i
  let s := armed.foldl (fun s i => s.releaseTrigger i w) (s.rvForward w)
  waits.foldl
    (fun s i =>
      match i.wait with
      | some wt =>
        let s := s.updItem i.sn fun j => { j with wait := some (wt.offer w).1 }
        (match i.exec, i.phase with
         | some (.core k), .dispatched => retry s k
         | _, _ => s)
      | none => s)
    s

/-- An event reaches the fabric (R288). -/
def State.deliver (s : State) (e : Ev) : State :=
  match e.dest with
  | .task t => s.deliverTask t e.word
  | .queue q ws => s.note q ws
  | .published o => s.deliverPub o e.word

/-! ### Completion of commands -/

/-- A COMMAND that an engine instance ran, or did not run, completes with a STATUS (R142, R143, R276): its event is
posted, it leaves its window, and its core, if it waits for room among its outstanding commands, goes on. -/
def State.completeCmd (s : State) (it : Item) (inst status : Nat) : State :=
  let s := s.cmdEvent it inst status
  let cls := (s.qcb it.q).cls
  let s := s.setWindow cls inst ((s.window cls inst).filter (· != it.sn))
  let s := s.endTask it.sn true status
  match it.issuer with
  | .core k _ _ => retry s k
  | .notify => s

/-! ### Release -/

/-- Has the item completed with success (R276)? -/
def Item.succeeded (it : Item) : Bool :=
  match it.ended with
  | some e => e.byDone && e.cause == 0 && !it.cmdFail
  | none => false

/-- The failure cause that a TASK_NOTE and a FAIL record carry (R290, R291). -/
def Item.failCause (it : Item) : Nat :=
  match it.ended with
  | some e => if e.byDone && e.cause == 0 then 0x30 else e.cause
  | none => 0

/-- Every command that the task issued has completed (R144). -/
def State.cmdsDone (s : State) (tid : Word) : Bool :=
  s.fab.items.all fun i =>
    match i.issuer with
    | .core _ t _ => t != tid || i.phase == .completed
    | .notify => true

/-- May the completion be released (R276)? -/
def State.mayRelease (s : State) (it : Item) : Bool :=
  it.phase == .completed && s.cmdsDone it.taskid &&
    ((s.qcb it.q).order == 0 || s.fab.items.all fun j => !(j.q == it.q && decide (j.sn < it.sn)))

/-- Does the release enqueue a chained descriptor (R276 step 2)? -/
def Item.chains (it : Item) : Bool := dChain it.words && dKind it.words ≤ 1 && (it.succeeded || dChainAlways it.words)

/-- Step 1 of a release (R276, R320): resources freed, events still held or on their way consumed (R144). -/
def State.releaseRes (s : State) (it : Item) : State :=
  let s := it.handles.foldl (fun s h => s.unref it h) s
  let evs := s.fab.evs.filter fun e => e.dest != .task it.taskid
  let s := { s with fab := { s.fab with evs := evs } }
  s.updItem it.sn fun i => { i with freed := true, handles := [], save := none, heldEv := [] }

/-- Steps 3 to 5 of a release (R276, R290). -/
def State.releaseEnd (s : State) (it : Item) : State :=
  let ok := it.succeeded
  let tag := (dTag it.words).toNat % 65536
  let c := s.qcb it.q
  let code := if ok then 0x40 else 0x41
  let hi := match it.ended with
    | some e => if e.byDone then e.cause % 256 else 0
    | none => 0
  let post := dDonePost it.words && dKind it.words ≤ 1
  let s := if post then s.publish 0x06 c.owner (w32 (code * 2 ^ 24 + hi * 2 ^ 16 + tag)) c.owner else s
  let s := if ok then s else s.noteItem 0x47 0 it.q it.words it.taskid (w32 it.failCause)
  let s := s.traceItem (if ok then 0x05 else 0x06) it (if ok then 0 else w32 it.failCause)
  (s.delItem it.sn).refresh it.q

/-- A chained enqueue that enqueues nothing (R277): tallied, and reported by a DROPPED note. -/
def State.chainSkip (s : State) (it : Item) : State :=
  let s := s.count pgFabric Reg.TFB_TALLY_DROP 1
  s.noteItem 0x43 0 it.q it.words it.taskid 0

/-- May function `f` reach the address for a chained descriptor: device storage, or its own host window (R277, R490)? -/
def State.readFor (s : State) (f a n : Nat) : Option (List Word) :=
  match s.region a with
  | .host g =>
    if g = f ∧ s.bme f then
      let pa := f * 2 ^ 64 + s.reg64 ⟨.fnPage, f⟩ Reg.HIF_FN_WIN_LO + (a - hostBase) % 0x20000000000
      some ((List.range n).map fun i => w32 (ofLe (memGets s.hostMem (pa + 4 * i) 4)))
    else none
  | _ => s.readWords a n

/-- Step 2 of a release: the chained enqueue (R277). It may be held; the release then waits. -/
def State.chainStep (s : State) (it : Item) : State :=
  let fn := (s.qcb it.q).owner
  match s.readFor fn (dChainAddr it.words) 16 with
  | none => (s.chainSkip it).releaseEnd it
  | some ws =>
    match s.enqueue (dChainQ it.words) fn ws .notify .block (.chain it.sn) true with
    | (s', .refused) => (s'.chainSkip it).releaseEnd it
    | (s', .held) => s'
    | (s', _) => s'.releaseEnd it

/-! ### Holds -/

/-- A ring's descriptor was REFUSED (R283, R494). -/
def State.ringRefused (s : State) (fn : Nat) : State := s.count ⟨.fnPage, fn⟩ Reg.HIF_FN_TALLY_REFUSED 1

/-- The producer of a held enqueue learns how it ended (R283). -/
def State.holdEnds (s : State) (h : Held) (refused : Bool) : State :=
  match h.who with
  | .core k =>
    let c := s.core k
    let tag := match h.issuer with
      | .core _ _ t => if refused then 0 else t
      | .notify => 0
    let s := match h.issuer with
      | .core _ _ t => if refused then s else takeTag s k t
      | .notify => s
    let s := s.setCore k { s.core k with pushRes := some (if refused then 2 else 0, tag) }
    if c.waiting then retry s k else s
  | .chain sn =>
    (match s.item? sn with
     | some it => (if refused then s.chainSkip it else s).releaseEnd it
     | none => s)
  | .ring fn _ => if refused then s.ringRefused fn else s
  | .rv n => rvDeliver (s.rv n).stalled (s.setRv n { s.rv n with stalled := [] }) n
  | _ => s

/-- The oldest hold on a queue ends: space is free, or the queue no longer takes it (R283). -/
def State.stallEnd (s : State) (q : Nat) : State :=
  match s.fab.held.find? fun h => h.q == q with
  | none => s
  | some h =>
    let c := s.qcb q
    let s1 := { s with fab := { s.fab with held := s.fab.held.erase h } }.traceStall 0x0E q h.words
    if !c.enabled then s1.holdEnds h true
    else if s.fullFor q h.words then s
    else (s1.accept q h.fn h.words h.issuer h.kind).holdEnds h false

/-- Every hold on a queue ends with REFUSED (R261, R283), with fuel. -/
def dropHolds : Nat → State → Nat → State
  | 0, s, _ => s
  | n + 1, s, q =>
    match s.fab.held.find? fun h => h.q == q with
    | none => s
    | some h =>
      dropHolds n (({ s with fab := { s.fab with held := s.fab.held.erase h } }.traceStall 0x0E q h.words).holdEnds h true) q

/-! ### Dispatch -/

/-- A TASKID that no dispatched and unreleased task holds, not 0, and fewer than 131,072 outstanding (R272). -/
def State.freeTid (s : State) (t : Word) : Bool :=
  t != 0 && s.fab.items.all (fun i => i.counts || i.taskid != t) &&
    decide ((s.fab.items.filter fun i => !i.counts).length < 131072)

/-- Earlier in selection: a higher level, or the same level and an earlier arrival (R269). -/
def State.before (s : State) (j i : Item) : Bool :=
  decide (s.itemLevel j < s.itemLevel i) || (s.itemLevel j == s.itemLevel i && decide (j.readyAt < i.readyAt))

/-- Ready items of a class. -/
def State.readyItems (s : State) (cls : Nat) : List Item :=
  s.fab.items.filter fun i => i.phase == .ready && (s.qcb i.q).cls == cls && !i.blocked

/-- Suspended tasks of a core, earliest suspended first. -/
def State.suspendedOn (s : State) (k : Nat) : List Item :=
  (s.core k).suspended.filterMap fun t => s.fab.items.find? fun i => i.phase == .suspended && i.taskid.toNat == t

/-- Does a suspended task of the executor go before an item of a level (R279)? -/
def State.resumeFirst (s : State) (x : Exec) (level : Nat) : Bool :=
  match x with
  | .core k => (s.suspendedOn k).any fun i => decide (s.itemLevel i ≤ level)
  | _ => false

/-- Is the item the fabric's selection for a free executor (R269, R279)? -/
def State.selected (s : State) (it : Item) (x : Exec) : Bool :=
  it.phase == .ready && !it.blocked && s.execFree x && s.eligible it x &&
    !(s.resumeFirst x (s.itemLevel it)) &&
    (s.readyItems (execCls x)).all fun j => !(s.before j it && s.eligible j x)

/-- A pin that Tilth can never honour (R324), or more than 16 handles (R264, R265). -/
def State.badPin (s : State) (it : Item) : Bool :=
  let c := s.qcb it.q
  dKind it.words ≤ 1 &&
    (decide (dNbuf it.words > 16) ||
      (dPinExec it.words &&
        (c.cls == 9 || decide (dPinInst it.words ≥ classSize c.cls) ||
          !(poolHas (s.pool c.pool) c.cls (dPinInst it.words)))))

/-- One buffer entry of DR_BUF for a task on core #k (R97). -/
def bufEntry (core : Option Nat) (b : Nat × Nat) : List Word :=
  let near := match core with
    | some k =>
      if ownData k b.1 then some (b.1 - (coreMemBase + k * 0x40000))
      else if clodMemBase + k / 17 * 0x400000 ≤ b.1 ∧ b.1 < clodMemBase + (k / 17 + 1) * 0x400000 then
        some (b.1 - (clodMemBase + k / 17 * 0x400000) + 0x400000)
      else none
    | none => none
  match near with
  | some a => [w32 a, w32 (b.2 * 2 ^ 16 + 2 ^ 31)]
  | none => [w32 b.1, w32 (bitsOf b.1 32 16 + b.2 * 2 ^ 16)]

/-- Sixteen buffer entries; those not used are zero. -/
def bufWords (core : Option Nat) (bufs : List (Nat × Nat)) : List Word :=
  (bufs.flatMap (bufEntry core) ++ List.replicate 32 0).take 32

/-- The dispatch record (R97); reserved words are zero. -/
def recordWords (s : State) (it : Item) (k : Nat) (bufs : List (Nat × Nat)) (resumed : Bool) : List Word :=
  let c := s.qcb it.q
  let pre := dKind it.words == 0 && dPreemptible it.words
  let save := match it.save with
    | some n => 0x3C000 + 0x1000 * n
    | none => 0
  let dl := if dKind it.words = 2 then 0 else dDeadline it.words
  [it.taskid,
   w32 (it.q + c.level * 2 ^ 20 + bit resumed * 2 ^ 24 + bit (dPinExec it.words && dKind it.words == 0) * 2 ^ 25 +
     bit pre * 2 ^ 26),
   w32 dl, w32 (dl / 2 ^ 32),
   w32 (s.itemEntry it + (if dKind it.words = 0 then dResume it.words else 0) * 2 ^ 16), w32 save,
   w32 (c.owner + bufs.length * 2 ^ 8), 0] ++ it.words ++ bufWords (some k) bufs ++ List.replicate 8 0

/-- Registers cleared between tasks of different owners (R98). -/
def clearRegs (c : Core) : Core :=
  { c with
      g := List.replicate 32 0
      f := List.replicate 256 0
      a0 := List.replicate 64 Lane.zero
      a1 := List.replicate 64 Lane.zero
      ch0 := List.replicate 64 Lane.zero
      ch1 := List.replicate 64 Lane.zero
      escr0 := 0
      escr1 := 0 }

/-- A core starts a task (R96, R57, R58, R104): control registers at their task-entry values, the read buffer dropped. -/
def enterTask (c : Core) (tid : Word) (entry owner : Nat) (resumed : Bool) : Core :=
  let c := if c.lastOwner = some owner ∨ c.lastOwner = none then c else clearRegs c
  { c with
      stat := if resumed then 0x00000002#32 else 0x00000005#32
      ecause := 0
      eaddr := 0
      taskid := tid
      lc0 := 0
      lb0 := 0
      le0 := 0
      lc1 := 0
      lb1 := 0
      le1 := 0
      rot := 0x000000F8#32
      vl := 0x00000040#32
      vtype := 0x00000105#32
      vidx := 0
      rmode := 0
      pc := entry
      pend := []
      br := none
      vresume := false
      pushRes := none
      bundle := []
      waiting := false
      rb := []
      preempt := false
      run := .running
      lastOwner := some owner }

/-- The dispatch record is written and the core starts (R96 to R98). -/
def State.startCore (s : State) (it : Item) (k : Nat) (bufs : List (Nat × Nat)) (resumed : Bool) : State :=
  let s := (s.write (coreMemBase + k * 0x40000) (wordBytes (recordWords s it k bufs resumed))).1
  let entry := if resumed then dResume it.words else s.itemEntry it
  let s := s.setCore k (enterTask (s.core k) it.taskid (entry / 16 * 16) (s.qcb it.q).owner resumed)
  let s := maskTrack s k
  (s.setReg (pgCore k) Reg.GVC_TASKID it.taskid).count (pgCore k) Reg.GVC_TALLY_DISPATCH 1

/-- An entry of a delivery ring is written (R496, R497). -/
def State.deliverHost (s : State) (it : Item) (f r : Nat) (bufs : List (Nat × Nat)) : State :=
  let p : Page := ⟨.fnPage, f⟩
  let w := s.win f
  let d := lookupD FnDlv.reset r w.dlv
  let base := s.reg64 p (Reg.HIF_FN_DLV_LO + 16 * r)
  let size := 2 ^ s.fld p (Reg.HIF_FN_DLV + 16 * r) 0 5
  let note := dKind it.words == 2
  let ws := it.words ++
    [if note then 0 else it.taskid, w32 (bit d.phase + bufs.length * 2 ^ 8), w32 s.airtime,
     w32 (s.airtime / 2 ^ 32)] ++ List.replicate 12 0 ++ bufWords none bufs
  let s := (s.hostWrite (hostBase + f * 0x20000000000 + (base + 256 * d.tail) % 0x20000000000) f (wordBytes ws)).1
  let t := (d.tail + 1) % size
  let d' : FnDlv := { d with tail := t, phase := if d.tail + 1 = size then !d.phase else d.phase }
  let s := s.setWin f { w with dlv := insertKey r d' w.dlv }
  s.raiseVec f (s.fld p (Reg.HIF_FN_DLV + 16 * r) 5 11)

/-- The item fails before it runs, cause MALFORMED (R265, R319); a COMMAND completes with FORMAT (log entry 16). -/
def State.malformed (s : State) (it : Item) (tid : Word) : State :=
  let s := s.updItem it.sn fun i => { i with taskid := tid, phase := .dispatched }
  let it := { it with taskid := tid }
  (if dKind it.words = 1 then (s.cmdEvent it 0 0x03).endTask it.sn true 0x03
   else s.endTask it.sn false 0x35).refresh it.q

/-- A handle fails the task (R319, R331). -/
def State.handleFault (s : State) (it : Item) (tid h : Word) : State :=
  let s := s.count pgTilth Reg.TLT_TALLY_HFAULT 1
  (s.traceItem 0x2B { it with taskid := tid } h).malformed it tid

/-- The task stays in its ready list for want of room (R323). -/
def State.bindWaits (s : State) (it : Item) (h : Word) : State :=
  let s := if it.bindWait then s
    else (s.count pgTilth Reg.TLT_TALLY_BINDWAIT 1).traceItem 0x24 it h
  s.updItem it.sn fun i => { i with bindWait := true, blocked := true }

/-- The item is handed to its executor with its buffers resolved (R273, R96, R285, R302). -/
def State.handOver (s : State) (it : Item) (x : Exec) (tid : Word) (save : Nat) (hs : List Word)
    (bufs : List (Nat × Nat)) (mc : Nat) : State :=
  let c := s.qcb it.q
  let pre := dKind it.words == 0 && dPreemptible it.words
  let it' : Item :=
    { it with
        phase := .dispatched
        taskid := tid
        exec := some x
        tStart := s.airtime
        runTc := 0
        save := match x, pre with
          | .core _, true => some save
          | _, _ => none
        handles := if it.rerun then it.handles else hs
        avoid := none }
  let s := s.updItem it.sn fun _ => it'
  let s := s.count pgFabric Reg.TFB_TALLY_DISPATCH 1
  let s := s.trace ⟨if dPinExec it.words && dKind it.words ≤ 1 then 0x02 else 0x01, c.level, c.cls, it.q, c.owner, tid,
    Exec.num x, mc, (dTag it.words).toNat, dDeadline it.words, 0⟩
  let s := match x with
    | .core k => s.startCore it' k bufs false
    | .engine cls i => s.setWindow cls i (s.window cls i ++ [it.sn])
    | .host f r =>
      let s := s.deliverHost it' f r bufs
      if dKind it.words = 2 then s.endTask it.sn true 0 else s
  -- a dispatch after the deadline in an ABORT_LATE queue (R284)
  let lateRun := c.abortLate && dKind it.words == 0 && dDeadline it.words != 0 && decide (s.airtime ≥ dDeadline it.words)
  let s := if lateRun then s.abortTask it' 0x0032 else s
  s.refresh it.q

/-- BINDER of what was bound again for a rerun: the TASKID of its dispatch (R317, R327). -/
def State.rebinder (s : State) (it : Item) (tid : Word) : State :=
  it.handles.foldl
    (fun s h =>
      match s.hEntry h with
      | some e =>
        if eState e = 1 ∧ eBinder e = it.taskid then
          s.setEntry h (eBind e (eAddr e) (eMcls e) 1 (eLeft e) tid (eRefs e))
        else s
      | none => s)
    s

/-- The selected item is dispatched to an executor (R269, R272, R282, R319). -/
def State.dispatchTo (s : State) (it : Item) (x : Exec) (tid : Word) (save : Nat) (places : List Nat) : State :=
  if (s.qcb it.q).overflow = 2 ∧ dKind it.words ≤ 1 ∧ s.late it.words then s.shed it shedLateQueued 0x08 0
  else if !dReservedOk it.words then s.malformed it tid
  else
    match s.taskHandles it with
    | none => s.handleFault it tid (it.words.getD 14 0)
    | some hs =>
      if it.rerun then
        (s.rebinder it tid).handOver it x tid save hs
          (it.handles.map fun h =>
            match s.hEntry h with
            | some e => (eAddr e, eMcls e)
            | none => (0, 0)) 15
      else
        match resolve it x tid hs places s [] 15 with
        | .ok s' bufs mc => s'.handOver it x tid save hs bufs mc
        | .fault h => s.handleFault it tid h
        | .wait h => s.bindWaits it h
        | .notAllowed => s

/-- A ready item that can never be honoured fails at its turn, whatever executor is free (R265, R324). -/
def State.failsPinned (s : State) (it : Item) : Bool := it.phase == .ready && s.badPin it

/-- The holds of the share and reserve rules are recorded once per task (R331): at a decision for `x`, every ready item
ahead of the one taken that only a rule keeps off `x`. -/
def State.recordHolds (s : State) (it : Item) (x : Exec) : State :=
  ((s.readyItems (execCls x)).filter fun j => s.before j it && !j.heldRec && s.fits j x).foldl
    (fun s j =>
      if !s.reserveOk j x then
        (s.traceItem 0x27 j (w32 (match x with
          | .core k => k / 17
          | _ => execCls x))).updItem j.sn fun i => { i with heldRec := true }
      else if !s.shareOk j x then
        (s.traceItem 0x26 j (w32 ((s.owedPool x).getD 0))).updItem j.sn fun i => { i with heldRec := true }
      else s)
    s

/-! ### Wait groups -/

/-- Members of a group: outstanding descriptors and tasks that name it (R296). -/
def State.members (s : State) (g : WaitGroup) : List Item :=
  s.fab.items.filter fun i =>
    i.fn == g.fn && wgOf i.words == g.group && dKind i.words ≤ 1 && i.phase != .completed

/-- A part of a source class, by event instance (R287, R297). -/
def srcPages (cls : Nat) : List Page :=
  if cls = 0x02 then (List.range 17).map fun i => ⟨.framer, i⟩
  else if cls = 0x03 then (List.range 64).map fun i => ⟨.dmaCh, i⟩
  else if cls = 0x08 then (List.range 8).map fun i => ⟨.rvLink, i⟩
  else []

/-- Does a producer hold an obligation toward an entry of a member (R297)? -/
def State.obliged (s : State) (g : WaitGroup) (m : Item) (src : Word) : Bool :=
  let cls := bitsOf src.toNat 12 8
  let inst := bitsOf src.toNat 0 12
  let any := bitOf src.toNat 20
  if 0x11 ≤ cls ∧ cls ≤ 0x18 then
    s.fab.items.any fun i =>
      i.phase != .completed && (s.qcb i.q).cls + 0x10 == cls &&
        (match i.issuer with
         | .core _ t _ => t == m.taskid
         | .notify => false)
  else if cls = 0x01 then
    (List.range 64).any fun n => (any || n == inst) && s.fld pgTime (Reg.GEN_CFG + 32 * n) 4 1 == 1
  else if cls = 0x02 ∨ cls = 0x03 ∨ cls = 0x08 then
    (srcPages cls).any fun p => (any || p.ix == inst) && s.ready p
  else if cls = 0x06 then
    g.ext || (s.members g).any fun i => dDonePost i.words && !i.inWait && i.phase != .armed
  else if cls = 0x04 ∨ cls = 0x05 then g.ext
  else cls == 0x19 || cls == 0x20

/-- Sources of the entries of a member's open wait, marked or not, or of its trigger (R297; log entry 64). -/
def openSrcs (m : Item) : List Word :=
  if m.phase = .armed then [m.words.getD 6 0]
  else
    match m.wait with
    | some w => w.entries.map fun e => e.getD 2 0
    | none => []

/-- The condition of R297. -/
def State.deadlocked (s : State) (g : WaitGroup) : Bool :=
  let ms := s.members g
  ms.any (·.inWait) && ms.all (fun m => m.inWait || m.phase == .armed) &&
    ms.all fun m => (openSrcs m).all fun src => !s.obliged g m src

end Sys2Proof.Machine
end

