-- ==== Sys2Proof/Machine/DmaOps.lean ====
section
/-!
DEFINITION. Sys2Proof/Machine/DmaOps.lean: the request lines of the DMA (R396, R397) and a channel's own state.
-/
namespace Sys2Proof.Machine

def pgDma (ch : Nat) : Page := ⟨.dmaCh, ch⟩

def State.dmaChan (s : State) (ch : Nat) : DmaChan := lookupD DmaChan.reset ch s.dmaChans
def State.setDmaChan (s : State) (ch : Nat) (c : DmaChan) : State := { s with dmaChans := insertKey ch c s.dmaChans }

/-- The lines by number; 256 + n holds the KICKs of channel n (R408). -/
def kickLine (ch : Nat) : Nat := 256 + ch

/-- LINE_EN and LINE of a channel: the line it serves, its KICKs if none is bound (R394, R408). -/
def State.chanLine (s : State) (ch : Nat) : Nat :=
  if s.fld (pgDma ch) Reg.DMA_CH_CFG 6 1 = 1 then s.fld (pgDma ch) Reg.DMA_CH_CFG 7 8 else kickLine ch

/-- The channel that a line is bound to. -/
def State.lineChan (s : State) (line : Nat) : Option Nat :=
  (List.range 64).find? fun ch => s.part (pgDma ch) != stDown && s.chanLine ch == line

/-- Requests pending on a line, oldest first. -/
def State.lineReqs (s : State) (line : Nat) : List DmaReq := lookupD [] line s.dmaLines
def State.setLine (s : State) (line : Nat) (rs : List DmaReq) : State :=
  { s with dmaLines := insertKey line rs s.dmaLines }

/-- A request raised on a line: held pending, or not taken by a full line (R397). -/
def State.raiseLine (s : State) (line : Nat) (r : DmaReq) : State × Bool :=
  let rs := s.lineReqs line
  if rs.length ≥ 16 then
    (match s.lineChan line with
     | some ch => s.count (pgDma ch) Reg.DMA_CH_TALLY_LINEFULL 1
     | none => s, false)
  else (s.setLine line (rs ++ [r]), true)

/-- A plain request. -/
def DmaReq.plain : DmaReq := ⟨0, 0, [], none⟩

end Sys2Proof.Machine
end

