-- ==== Sys2Proof/Machine/LinkOps.lean ====
section
/-!
DEFINITION. Sys2Proof/Machine/LinkOps.lean: accessors of lanes, MACs, framers, CPRI buffers and Realvin links, the fields of flow and carrier
entries (R441, R443), and what a framer does when a request of it ends (R397, R446).
-/
namespace Sys2Proof.Machine

def State.laneSt (s : State) (l : Nat) : LaneSt := lookupD LaneSt.reset l s.links.lanes
def State.setLane (s : State) (l : Nat) (x : LaneSt) : State :=
  { s with links := { s.links with lanes := insertKey l x s.links.lanes } }
def State.mac (s : State) (p : Nat) : MacSt := lookupD MacSt.reset p s.links.macs
def State.setMac (s : State) (p : Nat) (x : MacSt) : State :=
  { s with links := { s.links with macs := insertKey p x s.links.macs } }
def State.framer (s : State) (f : Nat) : FramerSt := lookupD FramerSt.reset f s.links.framers
def State.setFramer (s : State) (f : Nat) (x : FramerSt) : State :=
  { s with links := { s.links with framers := insertKey f x s.links.framers } }
def State.cpriSt (s : State) (b : Nat) : CpriSt := lookupD CpriSt.reset b s.links.cpri
def State.setCpri (s : State) (b : Nat) (x : CpriSt) : State :=
  { s with links := { s.links with cpri := insertKey b x s.links.cpri } }
def State.time (s : State) : TimeSt := s.links.time
def State.setTime (s : State) (x : TimeSt) : State := { s with links := { s.links with time := x } }

def pgLane (l : Nat) : Page := ⟨.lane, l⟩
def pgLng (o : Nat) : Page := ⟨.laneGroup, o⟩
def pgPort (p : Nat) : Page := ⟨.port, p⟩
def pgFrm (f : Nat) : Page := ⟨.framer, f⟩

/-! ### Flow and carrier entries -/

/-- Entry `i` of the flow table, of the carrier table. -/
def FramerSt.flow (x : FramerSt) (i : Nat) : List Word := lookupD (List.replicate 8 0) i x.flows
def FramerSt.carrier (x : FramerSt) (i : Nat) : List Word := lookupD (List.replicate 16 0) i x.carriers

def flDown (w : List Word) : Bool := wfld w 0 0 1 == 1
def flCplane (w : List Word) : Bool := wfld w 0 1 1 == 1
def flPort (w : List Word) : Nat := wfld w 0 2 6
def flCarrier (w : List Word) : Nat := wfld w 0 8 6
def flAnt (w : List Word) : Nat := wfld w 0 14 6
def flComp (w : List Word) : Nat := wfld w 0 20 2
def flW (w : List Word) : Nat := wfld w 0 22 5
def flHdr (w : List Word) : Bool := wfld w 0 27 1 == 1
def flSymbolPolicy (w : List Word) : Bool := wfld w 0 28 1 == 1
def flEq (w : List Word) : Nat := wfld w 0 29 3
def flEaxc (w : List Word) : Nat := wfld w 1 0 16
def flVid (w : List Word) : Nat := wfld w 1 16 12
def flPcp (w : List Word) : Nat := wfld w 1 28 3
def flVlan (w : List Word) : Bool := wfld w 1 31 1 == 1
def flPeer (w : List Word) : Nat := (w.getD 2 0).toNat + 2 ^ 32 * wfld w 3 0 16

def caDown (w : List Word) : Bool := wfld w 0 0 1 == 1
def caGen (w : List Word) : Nat := wfld w 0 1 6
def caAnts (w : List Word) : Nat := wfld w 0 7 7
def caPrbs (w : List Word) : Nat := wfld w 0 14 9
def caFmt (w : List Word) : Nat := wfld w 0 23 1
def caBw (w : List Word) : Nat := wfld w 0 24 5
def caLine (w : List Word) : Nat := wfld w 0 29 3
def caNotices (w : List Word) : Nat := wfld w 1 0 4
def caByRing (w : List Word) : Bool := wfld w 1 4 1 == 1
def caStaging (w : List Word) : Nat := (w.getD 2 0).toNat + 2 ^ 32 * wfld w 3 0 16
def caAntStride (w : List Word) : Nat := (w.getD 4 0).toNat
def caHalfStride (w : List Word) : Nat := (w.getD 5 0).toNat
def caWinStart (w : List Word) : Int := (w.getD 6 0).toInt
def caWinEnd (w : List Word) : Int := (w.getD 7 0).toInt

/-- Bytes per PRB in a carrier's staging (R443). -/
def caPrbBytes (w : List Word) : Nat := if caFmt w = 0 then 48 else 1 + 3 * caBw w

/-- Address of a PRB of an antenna in a half (R443). -/
def caAddr (w : List Word) (half ant prb : Nat) : Nat :=
  caStaging w + half * caHalfStride w + ant * caAntStride w + prb * caPrbBytes w

/-- A tally word of a table entry; it saturates. -/
def bumpWord (ws : List Word) (i d : Nat) : List Word := ws.set i (w32 (satAdd 32 (ws.getD i 0).toNat d))

/-- Adds to a tally word of a flow (4 PACKETS, 5 EARLY, 6 LATE, 7 DROPPED). -/
def State.flowTally (s : State) (f fl w d : Nat) : State :=
  let x := s.framer f
  s.setFramer f { x with flows := insertKey fl (bumpWord (x.flow fl) w d) x.flows }

/-- Adds to a carrier's MISSING (8) or OVERRUN (9). -/
def State.carrierTally (s : State) (f c w d : Nat) : State :=
  let x := s.framer f
  s.setFramer f { x with carriers := insertKey c (bumpWord (x.carrier c) w d) x.carriers }

/-- A symbol of a framer changed. -/
def State.updSym (s : State) (f c start : Nat) (g : SymSt → SymSt) : State :=
  let x := s.framer f
  s.setFramer f { x with syms := x.syms.map fun y => if y.carrier = c ∧ y.start = start then g y else y }

/-! ### Requests that end -/

/-- PRB and antenna pairs of a section. -/
def ReqSrc.pairs (r : ReqSrc) : List (Nat × Nat) := (List.range r.nprb).map fun i => (r.ant, r.prb + i)

/-- A framer's request for a line (8f + j) is not taken, or acknowledged as failed: the section is dropped and tallied under
the flow's policy (R397, R406, R446). A symbol whose window is over gets zeros in its place (R445). -/
def State.sectionLost (s : State) (f : Nat) (r : ReqSrc) : State :=
  let x := s.framer f
  let fl := x.flow r.flow
  let s := s.flowTally f r.flow 7 1
  if flDown fl then s
  else
    let ca := x.carrier r.carrier
    match x.syms.find? fun y => y.carrier == r.carrier && y.start == r.start with
    | none => s
    | some y =>
      let gone := if flSymbolPolicy fl then y.got.filter fun p => p.1 == r.ant else r.pairs
      let s := s.updSym f r.carrier r.start fun y =>
        { y with
            got := y.got.filter fun p => !gone.contains p
            lostAnt := if flSymbolPolicy fl then insertNat r.ant y.lostAnt else y.lostAnt
            closed := y.closed.map (· + gone.length) }
      if y.closed.isNone then s
      else
        let s := gone.foldl
          (fun s p => (s.write (caAddr ca (y.sym % 2) p.1 p.2) (List.replicate (caPrbBytes ca) 0)).1) s
        s.carrierTally f r.carrier 8 gone.length

/-- A request is acknowledged to its requester as failed (R405, R406). -/
def State.reqFailed (s : State) (line : Nat) (r : DmaReq) : State :=
  match r.src with
  | some x => if line < 136 then s.sectionLost (line / 8) x else s
  | none => s

end Sys2Proof.Machine
end

