-- ==== Sys2Proof/Machine/EngineOps.lean ====
section
/-!
DEFINITION. Sys2Proof/Machine/EngineOps.lean: what every engine class shares: how an instance takes the command at the front
of its window (R141, R142, R284, R315), how it reads inputs and writes outputs (R142, R143, R378), and its contexts (R145 to
R147). A command runs in one step; its completion event follows its outputs (R143).
-/
namespace Sys2Proof.Machine

/-- The statuses of R142. -/
def csOk : Nat := 0x00
def csPoison : Nat := 0x01
def csAccess : Nat := 0x02
def csFormat : Nat := 0x03
def csCtxLost : Nat := 0x04
def csShed : Nat := 0x05

/-- The page of an engine instance (R504). -/
def engPage (cls i : Nat) : Page := ⟨engKind cls, i⟩

/-- Does the instance run the commands of its window: it is READY, or DRAINING and finishing them (R34, R147)? -/
def State.engOn (s : State) (cls i : Nat) : Bool := decide (i < classPhys cls) && s.serving (engPage cls i)

/-- The command at the front of an instance's window (R315). -/
def State.engHead (s : State) (cls i : Nat) : Option Item := (s.window cls i).head?.bind s.item?

/-- A command of the window that the instance may start now: the front one; an FDC serves its channels in turn, each
channel's commands in order (R146, R211, R315). -/
def State.engTurn (s : State) (cls i sn : Nat) : Option Item :=
  match s.item? sn with
  | none => none
  | some it =>
    let w := s.window cls i
    let ahead (m : Nat) : Bool := match s.item? m with
      | some j => cls != 4 || (j.fn == it.fn && s.itemCtxId j == s.itemCtxId it)
      | none => false
    if !s.engOn cls i || !(w.contains sn) || it.started || (w.takeWhile (· != sn)).any ahead then none else some it

/-- Registers that tally a class's commands and its commands in error (R182, R183, R220, R221, R256). -/
def engTallyRegs (cls : Nat) : Nat × Nat :=
  if cls = 1 then (Reg.BFE_TALLY_CMD, Reg.BFE_TALLY_ERR)
  else if cls = 2 then (Reg.DTE_TALLY_CMD, Reg.DTE_TALLY_ERR)
  else if cls = 3 then (Reg.TFE_TALLY_CMD, Reg.TFE_TALLY_ERR)
  else if cls = 4 then (Reg.FDC_TALLY_CMD, Reg.FDC_TALLY_ERR)
  else (Reg.LDE_TALLY_CMD, Reg.LDE_TALLY_ERR)

/-- Does an address lie in a staging half of a carrier (R443, R447)? -/
def caHolds (ca : List Word) (a : Nat) : Bool :=
  (List.range 2).any fun h =>
    let lo := caStaging ca + h * caHalfStride ca
    decide (lo ≤ a) && decide (a < lo + (caAnts ca - 1) * caAntStride ca + caPrbs ca * caPrbBytes ca)

/-- The staging notices of a BFE command that ends (R447): to every framer with an enabled carrier, not by ring, of whose
staging the command reads (COMBINE) or writes (PRECODE) a half. -/
def State.stagingNotices (s : State) (it : Item) : State :=
  match s.read (dCmdAddr it.words) 128 with
  | .ok b =>
    let op := ofLe (b.take 1)
    let a := ofLe ((b.drop (if op = 1 then 0x20 else 0x28)).take 6)
    if it.kind != .block ∨ (op ≠ 1 ∧ op ≠ 2) then s
    else
      let to_ := s.links.framers.flatMap fun e =>
        (e.2.carrierOn.filter fun c =>
          let ca := e.2.carrier c
          caDown ca == (op == 2) && !caByRing ca && caHolds ca a).map fun c =>
            Notice.mk e.1 c (ofLe ((b.drop 0x38).take 8)) (bitsOf (ofLe ((b.drop 0x40).take 4)) 16 4)
      { s with links := { s.links with notices := s.links.notices ++ to_ } }
  | _ => s

/-- A command of an instance ends with a STATUS: its staging notices are sent, it is tallied, and its completion event posted
(R142, R182, R447). -/
def State.engEnd (s : State) (it : Item) (cls i status : Nat) : State :=
  let s := if cls = 1 then s.stagingNotices it else s
  let p := engPage cls i
  let st := status % 256
  let s := if status ≥ 256 then s.noteBad (status / 256 - 1) 2 true else s
  let s := s.count p (engTallyRegs cls).1 1
  let s := if st = csOk then s else s.count p (engTallyRegs cls).2 1
  s.completeCmd it i st

/-! ### The command block -/

/-- Words and 64-bit fields of a block of bytes. -/
def bW (b : List Byte) (off : Nat) : Nat := ofLe ((b.drop off).take 4)
def bQ (b : List Byte) (off : Nat) : Nat := ofLe ((b.drop off).take 8)
/-- Bits [lo + w - 1 : lo] of the word at an offset. -/
def bF (b : List Byte) (off lo w : Nat) : Nat := bitsOf (bW b off) lo w
/-- Are `n` bytes at an offset all zero? -/
def bZero (b : List Byte) (off n : Nat) : Bool := ((b.drop off).take n).all (· == 0)
/-- Is the 64-bit field an address: bits [63:48] zero (R161)? -/
def bAddr (b : List Byte) (off : Nat) : Bool := bQ b off / 2 ^ 48 == 0
/-- An address, and 64-byte aligned. -/
def bAddr64 (b : List Byte) (off : Nat) : Bool := bAddr b off && bQ b off % 64 == 0

/-- Opcodes of a class and their SIZE (R160, R173, R191, R213, R232, R234, R246, R251, R253, R255). -/
def engOps (cls : Nat) : List (Nat × Nat) :=
  if cls = 1 then [(1, 2), (2, 2), (3, 1)]
  else if cls = 2 then [(1, 4), (2, 2), (3, 2), (4, 1)]
  else if cls = 3 then [(1, 2)]
  else if cls = 4 then [(1, 2), (2, 2)]
  else if cls = 5 then [(1, 2), (2, 1)]
  else if cls = 6 then [(1, 2)]
  else if cls = 7 then [(1, 1), (2, 1)]
  else if cls = 8 then [(1, 2), (2, 2)]
  else []

/-- Has a deadline passed at the present AIRTIME (R284)? -/
def State.passed (s : State) (dl : Nat) : Bool := dl != 0 && decide (s.airtime ≥ dl)

/-- The STATUS of a read that failed (R142, R378). Above the code stands the poisoned address, plus one, which `engEnd` takes
off for MEM_LAST_UNCORR (R392). -/
def rdStatus : Rd → Nat
  | .ok _ => csOk
  | .poison a => csPoison + 256 * (a + 1)
  | .access => csAccess

/-- What an instance finds when it takes up a command. -/
inductive Begin where
  /-- The block is another command's row. -/
  | other
  | ends (status : Nat)
  | go (block : List Byte) (ctx : Option Ctx)
deriving DecidableEq, Repr

/-- The reserved fields of the header, its class and its size (R141). -/
def headOk (cls : Nat) (h : List Byte) : Bool :=
  bF h 0 8 4 == cls && bF h 0 12 4 == 0 && bF h 0 24 8 == 0 && bF h 4 17 15 == 0 && bZero h 16 16 &&
    decide (1 ≤ bF h 0 16 8) && decide (bF h 0 16 8 ≤ 64)

/-- The context of an item's owner that instance `i` holds (R146). -/
def State.ctxHere (s : State) (cls i fn id : Nat) : Option Ctx :=
  (s.ctxOn cls i).find? fun c => c.fn == fn && c.ctx == id

/-- A command taken up (R141, R142, R145, R284): late ones are shed, the header is checked, the opcode and its SIZE are
known, the block reads, and the context it names is here. A class that has contexts needs one (R160, R213); a class that
has none allows none (R173, R191, R222). -/
def State.engBegin (s : State) (cls i : Nat) (it : Item) (op : Nat) : Begin :=
  if s.passed (dDeadline it.words) then .ends csShed
  else
    let a := dCmdAddr it.words
    match s.read a 32 with
    | .ok h =>
      if !headOk cls h then .ends csFormat
      else if s.passed (bQ h 8) then .ends csShed
      else
        match (engOps cls).find? fun o => o.1 == bF h 0 0 8 with
        | none => .ends csFormat
        | some o =>
          let size := bF h 0 16 8
          if o.2 ≠ size then .ends csFormat
          else if o.1 ≠ op then .other
          else
            match s.read a (64 * size) with
            | .ok b =>
              let use := bF h 4 16 1 == 1
              if use != (ctxSlots cls != 0) then .ends csFormat
              else if use then
                match s.ctxHere cls i it.fn (bF h 4 0 16) with
                | some c => .go b (some c)
                | none => .ends csCtxLost
              else .go b none
            | r => .ends (rdStatus r)
    | r => .ends (rdStatus r)

/-- One command of an instance: `body` is what a block of this opcode does, and its STATUS. -/
def State.engRow (s : State) (cls op i : Nat) (body : State → Item → List Byte → Option Ctx → State × Nat) : State :=
  if !s.engOn cls i then s
  else
    match s.engHead cls i with
    | none => s
    | some it =>
      if it.kind != .block then s
      else
        match s.engBegin cls i it op with
        | .other => s
        | .ends st => s.engEnd it cls i st
        | .go b c =>
          let r := body s it b c
          r.1.engEnd it cls i r.2

/-! ### Inputs and outputs -/

/-- Inputs read in order; the first that fails gives the STATUS (R142; log entry 22). -/
def State.gather (s : State) : List (Nat × Nat) → Except Nat (List (List Byte))
  | [] => .ok []
  | (a, n) :: rest =>
    match s.read a n with
    | .ok b =>
      match s.gather rest with
      | .ok bs => .ok (b :: bs)
      | .error e => .error e
    | r => .error (rdStatus r)

/-- Bytes of free value (log entry 1). -/
def State.freshBytes (s : State) (n : Nat) : List Byte × State :=
  let r := s.fresh (8 * n)
  (leBytes n r.1.toNat, r.2)

/-- Outputs left unspecified by a command that met poison or could not reach an address (R165; log entry 23). -/
def State.scribble (s : State) (outs : List (Nat × Nat)) : State :=
  outs.foldl
    (fun s o =>
      let r := s.freshBytes o.2
      (r.2.write o.1 r.1).1)
    s

/-- Outputs written in order; false if one could not be reached. A write acknowledged POISON lands (R374). -/
def State.emit (s : State) (ws : List (Nat × List Byte)) : State × Bool :=
  ws.foldl
    (fun r w =>
      let t := r.1.write w.1 w.2
      (t.1, r.2 && t.2 != .access))
    (s, true)

/-- What a command comes to once its inputs are read. -/
structure EngOut where
  status : Nat
  writes : List (Nat × List Byte)
  /-- Amounts added to tallies of the page: (offset, first bit, width, amount). -/
  tallies : List (Nat × Nat × Nat × Nat)
  /-- Free values that the computation used, from the counter on (log entry 1). -/
  used : Nat
deriving DecidableEq, Repr

/-- A command that ends with a STATUS and writes nothing. -/
def EngOut.only (status : Nat) : EngOut := ⟨status, [], [], 0⟩

/-- Tallies added on a page. -/
def State.addTallies (s : State) (p : Page) (ts : List (Nat × Nat × Nat × Nat)) : State :=
  ts.foldl (fun s t => s.tally p t.1 t.2.1 t.2.2.1 t.2.2.2) s

/-- Inputs are read, `f` computes, outputs are written (R143). Mirrored inputs are repaired as they are read (R386). -/
def State.engIo (s : State) (p : Page) (ins outs : List (Nat × Nat)) (f : List (List Byte) → EngOut) : State × Nat :=
  match s.gather ins with
  | .error e => (s.scribble outs, e)
  | .ok bs =>
    let s := ins.foldl (fun s r => s.mirrorFix r.1 r.2) s
    let o := f bs
    let w := { s with free := s.free + o.used }.emit o.writes
    if w.2 then (w.1.addTallies p o.tallies, o.status)
    else (w.1.scribble outs, csAccess)

/-- The write of a result record; none at address 0 (R161, R164). -/
def recordOut (addr : Nat) (ws : List Nat) : List (Nat × List Byte) :=
  if addr = 0 then [] else [(addr, wordBytes (((ws ++ List.replicate 16 0).take 16).map w32))]

/-- The range of a result record. -/
def recordRange (addr : Nat) : List (Nat × Nat) := if addr = 0 then [] else [(addr, 64)]

/-! ### Samples -/

/-- The cq16 sample at index `j` of a run of bytes: I and Q (R22). -/
def cqAt (b : List Byte) (j : Nat) : Int × Int :=
  let w := bW b (4 * j)
  (sx 16 w, sx 16 (w / 2 ^ 16))

/-- A cq16 sample as bytes. -/
def cqBytes (i q : Int) : List Byte := leBytes 4 (pat 16 i + 2 ^ 16 * pat 16 q)

/-- Bytes of a PRB of one plane: 48 in cq16, 1 + 3N in bfpN (R114, R161). -/
def prbBytes (fmt w : Nat) : Nat := if fmt = 0 then 48 else 1 + 3 * w

/-- The 24 components of one PRB of a plane as integers on the cq16 scale (R149). -/
def prbInts (fmt w : Nat) (b : List Byte) : List Int :=
  if fmt = 0 then (List.range 12).flatMap fun j =>
    let c := cqAt b j
    [c.1, c.2]
  else
    let r := bfpUnpack w b
    r.2.1.map fun m => m * 2 ^ r.1

/-- 24 exact components of one PRB converted to an output format (R151): the bytes, and how many saturated. -/
def prbOut (fmt w shift : Nat) (trunc : Bool) (xs : List Int) : List Byte × Nat :=
  if fmt = 0 then
    let r := xs.map fun x => narrow false (rnd trunc x shift) 16
    ((List.range 12).flatMap fun j => cqBytes (r.getD (2 * j) (0, false)).1 (r.getD (2 * j + 1) (0, false)).1,
     (r.filter (·.2)).length)
  else
    let r := bfpNorm trunc false w xs shift
    ((bfpPack false w r.1 r.2.1).1,
     if r.2.2 then ((bfpTry trunc xs shift 15).filter fun y => (narrow false y w).2).length else 0)

/-! ### Contexts -/

/-- A 32-bit word of a context's state; `q` two words. -/
def Ctx.w (c : Ctx) (off : Nat) : Nat := ofLe (memGets c.img off 4)
def Ctx.q (c : Ctx) (off : Nat) : Nat := ofLe (memGets c.img off 8)
/-- A context with bytes of its state replaced. -/
def Ctx.put (c : Ctx) (off : Nat) (bs : List Byte) : Ctx := { c with img := memPuts c.img off bs }
def Ctx.putW (c : Ctx) (off v : Nat) : Ctx := c.put off (leBytes 4 v)
def Ctx.putQ (c : Ctx) (off v : Nat) : Ctx := c.put off (leBytes 8 v)
/-- A bit of a word of the state. -/
def Ctx.bitAt (c : Ctx) (off i : Nat) : Bool := bitOf (c.w off) i
def Ctx.setBit (c : Ctx) (off i : Nat) (b : Bool) : Ctx := c.putW off (setBits (c.w off) i 1 (bit b))

/-- Two contexts with one name (R146)? -/
def Ctx.same (c d : Ctx) : Bool := c.cls == d.cls && c.fn == d.fn && c.ctx == d.ctx

/-- A context replaces the one of its name, in its place. -/
def State.setCtx (s : State) (c : Ctx) : State :=
  { s with ctxs := s.ctxs.map fun d => if d.same c then c else d }

/-- A context leaves its slot. -/
def State.dropCtx (s : State) (c : Ctx) : State := { s with ctxs := s.ctxs.filter fun d => !d.same c }

/-- The slot a context comes to: the one already holding its name there, or the lowest free one (R145; log entry 24). -/
def State.ctxSlot (s : State) (cls i fn id : Nat) : Nat :=
  match s.ctxHere cls i fn id with
  | some c => c.slot
  | none =>
    ((List.range (ctxSlots cls)).find? fun n => (s.ctxOn cls i).all fun c => c.slot != n).getD 0

/-- The control block of a BFE context image is in range and fits its size (R167). -/
def bfeImageOk (size : Nat) (b : List Byte) : Bool :=
  let w := bW b 0
  let a := bitsOf w 8 8
  let l := bitsOf w 16 8
  let bp := bitsOf w 24 6
  let bank (k : Nat) : Bool :=
    let x := bW b (40 + 4 * k)
    bitsOf x 8 8 == 0 && bitsOf x 25 7 == 0 &&
      (!bitOf (bW b 4) k ||
        (decide (1 ≤ bitsOf x 0 8) && decide (1 ≤ bitsOf x 16 9) && decide (bitsOf x 16 9 ≤ 275) &&
          decide (64 + 4 * bitsOf x 16 9 * a * l ≤ bp * 65536)))
  bitsOf w 1 7 == 0 && bitsOf w 30 2 == 0 && decide (1 ≤ a) && decide (a ≤ 64) && decide (1 ≤ l) && decide (l ≤ 16) &&
    decide (1 ≤ bp) && size == 64 + 2 * bp * 65536 && bitsOf (bW b 4) 4 28 == 0 && bank 0 && bank 1 && bZero b 48 16

end Sys2Proof.Machine
end

