-- ==== Sys2Proof/Machine/Bfe.lean ====
section
/-!
DEFINITION. Sys2Proof/Machine/Bfe.lean: the beamforming engine's commands (R148 to R165).
-/
namespace Sys2Proof.Machine

/-- Statuses of the BFE (R165). -/
def bfeNoWeights : Nat := 0x10
def bfeGeometry : Nat := 0x11
def bfeBankSize : Nat := 0x12
def bfeStale : Nat := 0x13

/-! ### The context's control block (R167) -/

/-- DIR: false COMBINE, true PRECODE. -/
def bcDir (c : Ctx) : Bool := c.bitAt 0 0
def bcAnt (c : Ctx) : Nat := bitsOf (c.w 0) 8 8
def bcLay (c : Ctx) : Nat := bitsOf (c.w 0) 16 8
/-- Bytes of a bank. -/
def bcBank (c : Ctx) : Nat := bitsOf (c.w 0) 24 6 * 65536
def bcValid (c : Ctx) (b : Nat) : Bool := c.bitAt 4 b
def bcActive (c : Ctx) : Nat := bit (c.bitAt 4 2)
def bcPending (c : Ctx) : Bool := c.bitAt 4 3
def bcCur (c : Ctx) : Nat := c.q 8
def bcTarget (c : Ctx) : Nat := c.q 16
def bcFirst (c : Ctx) (b : Nat) : Nat := c.q (24 + 8 * b)
def bcGroupPrb (c : Ctx) (b : Nat) : Nat := bitsOf (c.w (40 + 4 * b)) 0 8
def bcGroups (c : Ctx) (b : Nat) : Nat := bitsOf (c.w (40 + 4 * b)) 16 9
/-- Offset of a bank in the state. -/
def bcAt (c : Ctx) (b : Nat) : Nat := 64 + b * bcBank c

/-- Rows and columns of the context's matrices (R148). -/
def bcOut (c : Ctx) : Nat := if bcDir c then bcAnt c else bcLay c
def bcIn (c : Ctx) : Nat := if bcDir c then bcLay c else bcAnt c

/-- Steps 1 and 2 of R155 at a slot time: the context, and whether it switched banks. -/
def bfeSwitch (c : Ctx) (t : Nat) : Ctx × Bool :=
  if t > bcCur c then
    if bcPending c ∧ bcTarget c ≤ t then
      let b := 1 - bcActive c
      ((((c.setBit 4 2 (b == 1)).setBit 4 3 false).putQ (24 + 8 * b) t).putQ 8 t, true)
    else (c.putQ 8 t, false)
  else (c, false)

/-- Step 3 of R155: the bank a slot time uses, or the STATUS. With only a pending bank VALID, no weights are in use yet
(log entry 25). -/
def bfeSelect (c : Ctx) (t : Nat) : Except Nat Nat :=
  let a := bcActive c
  let o := 1 - a
  let cand := (if bcValid c a then [a] else []) ++ (if bcValid c o && !bcPending c then [o] else [])
  if cand.isEmpty then .error bfeNoWeights
  else
    match cand.filter fun b => decide (bcFirst c b ≤ t) with
    | [] => .error bfeStale
    | [b] => .ok b
    | b :: d :: _ => .ok (if bcFirst c d > bcFirst c b then d else b)

/-! ### COMBINE and PRECODE -/

/-- The body's fields within their ranges (R161, R162). -/
def bfeDataOk (b : List Byte) : Bool :=
  let w (fmt wd : Nat) : Bool := if fmt = 0 then wd == 0 else decide (1 ≤ wd) && decide (wd ≤ 16)
  bAddr b 0x20 && bAddr b 0x28 && bAddr64 b 0x30 &&
    decide (1 ≤ bF b 0x40 0 8) && decide (bF b 0x40 0 8 ≤ 64) &&
    decide (1 ≤ bF b 0x40 8 8) && decide (bF b 0x40 8 8 ≤ 16) && decide (bF b 0x40 16 4 ≤ 13) && bF b 0x40 22 10 == 0 &&
    w (bF b 0x40 20 1) (bF b 0x44 0 5) && w (bF b 0x40 21 1) (bF b 0x44 8 5) &&
    bF b 0x44 5 3 == 0 && bF b 0x44 13 3 == 0 && decide (bF b 0x44 16 6 ≤ 47) && bF b 0x44 22 2 == 0 && bF b 0x44 25 7 == 0 &&
    decide (bF b 0x48 0 9 ≤ 274) && bF b 0x48 9 7 == 0 && decide (1 ≤ bF b 0x48 16 9) && decide (bF b 0x48 16 9 ≤ 275) &&
    bF b 0x48 25 7 == 0 && bZero b 0x54 0x2C

/-- Row `o` of the matrix of group `g` of a bank: cq16 weights (R154). -/
def bfeRow (c : Ctx) (b g o : Nat) : List (Int × Int) :=
  let n := bcIn c
  let raw := memGets c.img (bcAt c b + 64 + 4 * ((g * bcOut c + o) * n)) (4 * n)
  (List.range n).map (cqAt raw)

/-- The 24 exact sums of one output and one PRB (R148 to R150): `ins` holds the PRB's components of every input plane. -/
def bfeSums (row : List (Int × Int)) (ins : List (List Int)) : List Int :=
  (List.range 12).flatMap fun j =>
    let terms := (row.zip ins).map fun t =>
      let x := t.2.getD (2 * j) 0
      let y := t.2.getD (2 * j + 1) 0
      (t.1.1 * x - t.1.2 * y, t.1.1 * y + t.1.2 * x)
    [terms.foldl (fun a t => a + t.1) 0, terms.foldl (fun a t => a + t.2) 0]

/-- What a data command writes once its inputs are read (R148 to R151, R164). -/
def bfeCompute (c : Ctx) (b : Nat) (switched : Bool) (blk : List Byte) (planes : List (List Byte)) : EngOut :=
  let inF := bF blk 0x40 20 1
  let outF := bF blk 0x40 21 1
  let inW := bF blk 0x44 0 5
  let outW := bF blk 0x44 8 5
  let start := bF blk 0x48 0 9
  let num := bF blk 0x48 16 9
  let ib := prbBytes inF inW
  let prbs := (List.range num).map fun k =>
    let ins := planes.map fun p => prbInts inF inW ((p.drop (k * ib)).take ib)
    (List.range (bcOut c)).map fun o =>
      prbOut outF outW (bF blk 0x44 16 6) (bF blk 0x44 24 1 == 1)
        (bfeSums (bfeRow c b ((start + k) / bcGroupPrb c b) o) ins)
  let outs := (List.range (bcOut c)).map fun o =>
    (bQ blk 0x28 + o * bW blk 0x50, prbs.flatMap fun p => (p.getD o ([], 0)).1)
  let sat := prbs.foldl (fun a p => p.foldl (fun a x => a + x.2) a) 0
  { status := csOk
    writes := outs ++ recordOut (bQ blk 0x30)
      [num * 12, sat, b + 2 * bit switched, bcFirst c b, bcFirst c b / 2 ^ 32]
    tallies := [(Reg.BFE_TALLY_SAT, 0, 32, sat)]
    used := 0 }

/-- A data command on a context (R155, R158, R162). -/
def bfeData (dir : Bool) (i : Nat) (s : State) (blk : List Byte) (c : Ctx) : State × Nat :=
  let start := bF blk 0x48 0 9
  let num := bF blk 0x48 16 9
  if !bfeDataOk blk then (s, csFormat)
  else if bF blk 0x40 0 8 ≠ bcAnt c ∨ bF blk 0x40 8 8 ≠ bcLay c ∨ bcDir c ≠ dir ∨ start + num > 275 then (s, bfeGeometry)
  else
    let t := bQ blk 0x38
    let sw := bfeSwitch c t
    let s := s.setCtx sw.1
    let c := sw.1
    match bfeSelect c t with
    | .error st => (if st = bfeStale then s.tally (engPage 1 i) Reg.BFE_TALLY_LATE 16 16 1 else s, st)
    | .ok b =>
      if (start + num - 1) / bcGroupPrb c b ≥ bcGroups c b then (s, bfeGeometry)
      else
        let nIn := num * prbBytes (bF blk 0x40 20 1) (bF blk 0x44 0 5)
        let nOut := num * prbBytes (bF blk 0x40 21 1) (bF blk 0x44 8 5)
        let ins := (List.range (bcIn c)).map fun k => (bQ blk 0x20 + k * bW blk 0x4C, nIn)
        let outs := ((List.range (bcOut c)).map fun o => (bQ blk 0x28 + o * bW blk 0x50, nOut)) ++ recordRange (bQ blk 0x30)
        s.engIo (engPage 1 i) ins outs (bfeCompute c b sw.2 blk)

/-- COMBINE: the instance runs the uplink command at the front of its window (R148, R155, R161). -/
def execCombine (inst : Nat) (s : State) : Host.Outcome State Fault Refusal :=
  .next (s.engRow 1 1 inst fun s _ b c => match c with
    | some c => bfeData false inst s b c
    | none => (s, csFormat))

/-- PRECODE: the downlink command (R148, R155, R161). -/
def execPrecode (inst : Nat) (s : State) : Host.Outcome State Fault Refusal :=
  .next (s.engRow 1 2 inst fun s _ b c => match c with
    | some c => bfeData true inst s b c
    | none => (s, csFormat))

/-! ### LOAD_WEIGHTS -/

/-- The reserved fields and ranges of a weight-set header (R154). -/
def setHeadOk (h : List Byte) : Bool :=
  decide (1 ≤ bF h 0 0 8) && decide (bF h 0 0 8 ≤ 64) && decide (1 ≤ bF h 0 8 8) && decide (bF h 0 8 8 ≤ 64) &&
    decide (1 ≤ bF h 0 16 9) && decide (bF h 0 16 9 ≤ 275) && bF h 0 25 7 == 0 && decide (1 ≤ bF h 4 0 8) &&
    bF h 4 8 24 == 0 && bF h 16 20 11 == 0 && bZero h 20 44

/-- The copy of a checked set into the inactive bank (R156, R157). -/
def bfeCopy (i : Nat) (s : State) (blk h : List Byte) (c : Ctx) : State × Nat :=
  let src := bQ blk 0x20
  let size := 64 + 4 * (bF h 0 16 9 * bF h 0 0 8 * bF h 0 8 8)
  let b := 1 - bcActive c
  let c := (c.setBit 4 b false).setBit 4 3 false
  match s.read src size with
  | .ok set =>
    let s := s.mirrorFix src size
    let target := bQ h 8
    let c := (c.put (bcAt c b) set).putW (40 + 4 * b) (bF h 4 0 8 + 2 ^ 16 * bF h 0 16 9)
    let c := ((c.setBit 4 b true).setBit 4 3 true).putQ 16 target
    let s := s.setCtx c
    let late := decide (target ≤ bcCur c)
    let note := late && bF h 16 31 1 == 1
    let s := if late then s.tally (engPage 1 i) Reg.BFE_TALLY_LATE 0 16 1 else s
    let s := if note then s.postTo 0x11 i (w32 (0x31 * 2 ^ 24 + c.ctx)) (bF h 16 0 20) else s
    let w := s.emit (recordOut (bQ blk 0x28) [size, 0, b + 4 * bit note, bcFirst c b, bcFirst c b / 2 ^ 32])
    if w.2 then (w.1, csOk) else (w.1.scribble (recordRange (bQ blk 0x28)), csAccess)
  | r =>
    -- the bytes of a bank that is not VALID are open (R157)
    let fb := s.freshBytes size
    ((fb.2.setCtx (c.put (bcAt c b) fb.1)).scribble (recordRange (bQ blk 0x28)), rdStatus r)

/-- LOAD_WEIGHTS on a context (R156, R157, R163). -/
def bfeLoad (i : Nat) (s : State) (blk : List Byte) (c : Ctx) : State × Nat :=
  if !(bAddr64 blk 0x20 && bAddr64 blk 0x28 && bZero blk 0x30 16) then (s, csFormat)
  else
    match s.read (bQ blk 0x20) 64 with
    | .ok h =>
      if bF h 0 0 8 ≠ bcOut c ∨ bF h 0 8 8 ≠ bcIn c then (s, bfeGeometry)
      else if !setHeadOk h then (s, csFormat)
      else if 64 + 4 * (bF h 0 16 9 * bF h 0 0 8 * bF h 0 8 8) > bcBank c then (s, bfeBankSize)
      else bfeCopy i s blk h c
    | r => (s, rdStatus r)

/-- LOAD_WEIGHTS: a weight set is copied into the inactive bank (R156, R157, R163). -/
def execLoadWeights (inst : Nat) (s : State) : Host.Outcome State Fault Refusal :=
  .next (s.engRow 1 3 inst fun s _ b c => match c with
    | some c => bfeLoad inst s b c
    | none => (s, csFormat))

end Sys2Proof.Machine
end

