-- ==== Sys2Proof/Machine/Pages.lean ====
section
/-!
DEFINITION. Sys2Proof/Machine/Pages.lean: register accesses: who may make them (R509, R521, R580), what is reported (R505), what a
register reads as (R27, R30, R31, R506), and how a write lands in its fields (R27, R28, R31, R618).
-/
namespace Sys2Proof.Machine

/-! ### Who accesses -/

/-- The device mode (R513, R541). -/
def State.mode (s : State) : Nat := s.fld pgDevice Reg.DEV_MODE 0 4
def modeBoot : Nat := 1
def modeRise : Nat := 2
def modeServe : Nat := 3
def modeTrim : Nat := 4
def modeRest : Nat := 5
def modeSafe : Nat := 6
def modeTest : Nat := 7

/-- A number for each requester, under which it latches and stages (R31): functions each for themselves, a PF's DMA channels
with the PF, and Ward. -/
def agNum : Agent → Nat
  | .fn f => f
  | .ward => 64
  | .dma _ => 0

/-- The function that an access counts as: a DMA channel's is the PF's (R355); Ward's is shown as 0 (log entry 20). -/
def agFn : Agent → Nat
  | .fn f => f
  | _ => 0

def agWard : Agent → Bool
  | .ward => true
  | _ => false

/-- The PF or Ward? -/
def agTrusted (a : Agent) : Bool := agWard a || agFn a == 0

/-- Is the access by the page's owner, or by Ward (R509)? -/
def State.ownsPage (s : State) (a : Agent) (p : Page) : Bool := agWard a || agFn a == s.owner p

/-- PG_OWNER.LOCK. -/
def State.locked (s : State) (p : Page) : Bool := s.fld p.home Reg.PG_OWNER 6 1 == 1

/-- An access is reported (R505): `kind` 0 SIZE, 1 UNMAPPED, 2 REJECTED, 3 LOCKED. -/
def State.accErr (s : State) (a : Agent) (off kind : Nat) : State :=
  let s := s.setReg pgHif Reg.HIF_LAST_ERR_LO (w32 (off % 2 ^ 28))
  let s := s.setReg pgHif Reg.HIF_LAST_ERR_HI (w32 (agFn a % 64 + kind * 64))
  (s.count pgHif Reg.HIF_TALLY_ACCERR 1).irq pgHif 1

/-- Do the host's memory requests reach the device (R486, R546)? -/
def State.hostUp (s : State) : Bool := s.ready pgHif

/-- The pages that stay reachable in REST and writable in SAFE (R521, R580). -/
def Page.always (p : Page) : Bool :=
  match p.kind with
  | .device | .hif => true
  | _ => false

/-- Does an access by this agent reach the page's registers at all? -/
def State.reaches (s : State) (a : Agent) : Bool :=
  match a with
  | .fn f => s.hostUp && s.fnUp f
  | _ => true

/-- Why a write to a page is turned away whoever's register it is: REJECTED in REST and SAFE (R521, R580), LOCKED by the
page's lock (R509). -/
def State.turnedAway (s : State) (a : Agent) (p : Page) : Option Nat :=
  if !agWard a ∧ !p.always ∧ (s.mode = modeRest ∨ s.mode = modeSafe) then some 2
  else if s.locked p ∧ !s.ownsPage a p then some 3
  else none

/-- A write to a register with an effect of its own: it takes place unless the access is turned away. -/
def State.onPage (s : State) (a : Agent) (p : Page) (off : Nat) (k : State → State) : State :=
  if !s.reaches a then s
  else match s.turnedAway a p with
    | some kind => s.accErr a (p.addr + off) kind
    | none => k s

/-! ### The common header -/

/-- The common header as a page shows it (R506). -/
def State.headView (s : State) (p : Page) (off : Nat) : Word :=
  let h := p.home
  if off = Reg.PG_ID then w32 (p.num + p.kind.base.1 * 2 ^ 12)
  else if off = Reg.PG_VER then w32 (0x100 + s.fld h off 16 16 * 2 ^ 16)
  else if off = Reg.PG_CAPS then w32 h.caps
  else if off = Reg.PG_PACE then w32 (s.pace h + s.floorOf h * 2 ^ 16)
  else if off = Reg.PG_OWNER then w32 (setBits (s.reg h off).toNat 0 6 (s.owner h))
  else if off = Reg.PG_IRQ_FORCE then s.reg p Reg.PG_IRQ_STAT
  else if off = Reg.PG_IRQ_STAT ∨ off = Reg.PG_IRQ_EN then s.reg p off
  else s.reg h off

/-- Bits of the fields that a test picks out. -/
def fieldMask (r : RegRow) (f : RegField → Bool) : Nat :=
  (r.fields.filter f).foldl (fun a x => a + (2 ^ x.w - 1) * 2 ^ x.lo) 0

/-- The row that holds a 64-bit value's half reads as part of a pair. -/
def latchKey (a : Agent) (addr : Nat) : Nat := agNum a * 2 ^ 28 + addr

/-! ### How writes land -/

/-- Is a value in a field's stated range (R618)? -/
def Chk.ok (c : Chk) (v : Nat) : Bool :=
  match c with
  | .any => true
  | .range lo hi => decide (lo ≤ v) && decide (v ≤ hi)
  | .aligned n => v % 2 ^ n == 0

/-- Is the field one that a write sets? -/
def Acc.settable : Acc → Bool
  | .rw | .rwl => true
  | _ => false

/-- Every written field of the row within its range (R618)? -/
def RegRow.inRange (r : RegRow) (v : Nat) : Bool :=
  r.fields.all fun f => !f.acc.settable || f.chk.ok (bitsOf v f.lo f.w)

/-- Is the page in a state in which its RWL fields are writable (R27)? -/
def State.rwlOpen (s : State) (p : Page) : Bool := s.part p == stDown || s.part p == stTending

/-- A value lands in the fields of a register by their access codes (R27): RWL fields only where they are open. -/
def RegRow.apply (r : RegRow) (rwl : Bool) (cur v : Nat) : Nat :=
  r.fields.foldl
    (fun x f =>
      let w := bitsOf v f.lo f.w
      match f.acc with
      | .rw => setBits x f.lo f.w w
      | .rwl => if rwl then setBits x f.lo f.w w else x
      | .w1c => setBits x f.lo f.w (bitsOf x f.lo f.w &&& (2 ^ f.w - 1 - w))
      | .w1s => setBits x f.lo f.w (bitsOf x f.lo f.w ||| w)
      | _ => x)
    cur

/-- A write lands in one 32-bit register. -/
def State.store32 (s : State) (p : Page) (off : Nat) (v : Nat) : State :=
  match rowAt p.kind off with
  | none => s
  | some r => s.setReg p off (w32 (r.apply (s.rwlOpen p) (s.reg p off).toNat v))

/-- Does a register hold RWL fields that are closed now? -/
def State.rwlShut (s : State) (p : Page) (off : Nat) : Bool :=
  match rowAt p.kind off with
  | none => false
  | some r => !s.rwlOpen p && r.fields.any fun f => f.acc == .rwl

/-- Is a write in range, both halves of a pair (R618)? -/
def State.writeInRange (p : Page) (off v : Nat) (pair : Bool) : Bool :=
  let one (o w : Nat) : Bool := match rowAt p.kind o with
    | some r => r.inRange w
    | none => true
  one off (v % 2 ^ 32) && (!pair || one (off + 4) (v / 2 ^ 32))

/-- The write as its access codes have it, with nothing special about the register: `v` is 64 bits for a pair. -/
def State.plainWrite (s : State) (a : Agent) (p : Page) (off v : Nat) (pair : Bool) : State :=
  if !State.writeInRange p off v pair then s.accErr a (p.addr + off) 2
  else
    let shut := s.rwlShut p off || (pair && s.rwlShut p (off + 4))
    let s' := s.store32 p off (v % 2 ^ 32)
    let s' := if pair then s'.store32 p (off + 4) (v / 2 ^ 32) else s'
    if shut then s'.accErr a (p.addr + off) 2 else s'

/-- PG_IRQ_STAT cleared or PG_IRQ_EN written: the page's vector follows (R28, R30, R499). -/
def State.irqWrite (s : State) (p : Page) (off v : Nat) : State :=
  let v := v % 2 ^ 32 &&& (kindIrq p.kind ||| 3 * 2 ^ 30)
  if off = Reg.PG_IRQ_STAT then s.irqEdge (s.setReg p off (w32 ((s.reg p off).toNat &&& (2 ^ 32 - 1 - v)))) p
  else s.irqEdge (s.setReg p off (w32 v)) p

/-- PG_IRQ_FORCE sets bits of PG_IRQ_STAT as hardware would (R506). -/
def State.irqForce (s : State) (p : Page) (v : Nat) : State := s.irq p (v % 2 ^ 32 &&& (kindIrq p.kind ||| 3 * 2 ^ 30))

/-- A write to PG_OWNER, judged whole (R509). -/
def State.ownerWrite (s : State) (a : Agent) (p : Page) (v : Nat) : State :=
  let h := p.home
  let cur := (s.headView h Reg.PG_OWNER).toNat
  let ch (lo w : Nat) : Bool := bitsOf cur lo w != bitsOf v lo w
  let locked := s.locked h
  let fixed : Bool := match h.kind with
    | .fnPage | .device | .ward | .kaolin => true
    | _ => false
  let owns := s.ownsPage a h
  let off := p.addr + Reg.PG_OWNER
  if ch 0 6 ∧ (fixed ∨ !agTrusted a) then s.accErr a off 2
  else if ch 0 6 ∧ locked then s.accErr a off (if agWard a then 2 else 3)
  else if (ch 6 1 ∨ ch 8 11 ∨ ch 19 1) ∧ !owns then s.accErr a off 2
  else s.setReg h Reg.PG_OWNER (w32 (bitsOf v 0 7 + bitsOf v 8 12 * 2 ^ 8))

end Sys2Proof.Machine
end

