-- ==== Sys2Proof/Machine/SysOps.lean ====
section
/-!
DEFINITION. Sys2Proof/Machine/SysOps.lean: the device mode (R513, R541), how part commands end and are refused (R506 to R508), what a
part loses when it becomes FAULTED (R147, R405, R575, R577), and SAFE (R580).
-/
namespace Sys2Proof.Machine

/-! ### Reasons of PG_FAULT_INFO (R506) -/

def rsConfig : Nat := 0x01
def rsWatchdog : Nat := 0x02
def rsUncorrectable : Nat := 0x03
def rsParity : Nat := 0x04
def rsLockstep : Nat := 0x05
def rsRing : Nat := 0x06
def rsTimeout : Nat := 0x07
def rsImage : Nat := 0x08
def rsPower : Nat := 0x09
def rsThermal : Nat := 0x0A

/-! ### The device mode -/

/-- A change of DEV_MODE.MODE raises the MODE interrupt (R541). -/
def State.setMode (s : State) (m : Nat) : State :=
  if s.mode = m then s else (s.setFld pgDevice Reg.DEV_MODE 0 4 m).irq pgDevice 1

/-- The parts that serve work (R513). -/
def servesWork : List PageKind :=
  [.coreCtl, .bfe, .dte, .tfe, .fdc, .lde, .lee, .pce, .tce, .framer, .dmaUnit, .lane, .laneGroup, .clod, .dbBank, .hbmPc]

/-- Is a part RETAINED by a RETAIN command (R513)? -/
def State.keptByCmd (s : State) (p : Page) : Bool := s.part p == stRetained && s.fld p Reg.PG_STATE 8 3 == 6

/-- SERVE and TRIM follow the parts RETAINED by command (R513). -/
def State.trimUpdate (s : State) : State :=
  if s.mode = modeServe ∨ s.mode = modeTrim then
    s.setMode (if servesWork.any fun k => (pagesOf k).any s.keptByCmd then modeTrim else modeServe)
  else s

/-! ### Part commands -/

/-- Codes of PG_CMD and of PG_STATE.CMD_RESULT (R506). -/
def pcRise : Nat := 1
def pcDrain : Nat := 2
def pcTend : Nat := 3
def pcResume : Nat := 4
def pcRetire : Nat := 5
def pcRetain : Nat := 6
def crOk : Nat := 0
def crIllegal : Nat := 1
def crBusy : Nat := 2
def crDenied : Nat := 3
def crRefused : Nat := 4
def crFaulted : Nat := 5

/-- A command ends with a result. -/
def State.cmdResult (s : State) (p : Page) (r : Nat) : State := (s.setFld p Reg.PG_STATE 11 1 0).setFld p Reg.PG_STATE 12 3 r

/-- A command is taken: LAST_CMD, and CMD_BUSY where its transition takes time. -/
def State.cmdTaken (s : State) (p : Page) (cmd : Nat) (busy : Bool) : State :=
  let s := { s with cmdAt := insertKey p.addr s.airtime s.cmdAt }
  ((s.setFld p Reg.PG_STATE 8 3 cmd).setFld p Reg.PG_STATE 11 1 (bit busy)).setFld p Reg.PG_STATE 12 3 crOk

/-- The last entry of PG_FAULT_INFO: SOURCE, REASON and DETAIL. -/
def State.faultInfo (s : State) (p : Page) (source reason detail : Nat) : State :=
  (s.setFld p Reg.PG_FAULT 0 2 source).setReg p Reg.PG_FAULT_INFO (w32 (reason + detail % 2 ^ 24 * 2 ^ 8))

/-- A command is refused (R506): CMD_RESULT REFUSED, the reason, and the FAULT interrupt. -/
def State.cmdRefused (s : State) (p : Page) (reason detail : Nat) : State :=
  ((s.cmdResult p crRefused).faultInfo p 2 reason detail).irq p (2 ^ 30)

/-! ### Faults of parts -/

/-- The header of a part that becomes FAULTED (R33, R506, R508, R575): ABSENT and RETIRED parts take no fault. The report
reaches Ward. -/
def State.faultHead (s : State) (p : Page) (reason detail : Nat) (contained : Bool) : State :=
  let st := s.part p
  if st = stAbsent ∨ st = stRetired then s
  else
    let busy := s.fld p Reg.PG_STATE 11 1 == 1
    let s := s.faultInfo p 1 reason detail
    let s := s.setFld p Reg.PG_FAULT 2 2 (bit contained + 2)
    let s := s.tally p Reg.PG_FAULT 16 16 1
    let s := if busy then s.cmdResult p crFaulted else s
    ((s.setPart p stFaulted).irq p (2 ^ 30)).hardpanAs p reason detail contained

/-- What a core loses (R575, R577): its outstanding operations end, the task it runs and those suspended on it are
abandoned. -/
def State.dropCore (s : State) (k : Nat) : State :=
  let its := s.fab.items.filter fun i => (i.phase == .dispatched || i.phase == .suspended) && i.exec == some (.core k)
  let s := coreIdle s k
  let s := s.setCore k { s.core k with suspended := [], pend := [], sg := [] }
  its.foldl (fun s i => s.abandonTask i false) s

/-- What an engine instance loses (R147, R577): its contexts; commands that name one complete with CTX_LOST; the others
wait to be placed once more, or complete with ACCESS if they have been. -/
def State.dropEngine (s : State) (cls i : Nat) : State :=
  let its := (s.window cls i).filterMap s.item?
  let named := its.map fun it => (it, (s.itemCtxId it).isSome || it.kind != .block)
  let s := { s with ctxs := s.ctxs.filter fun c => !(c.cls == cls && c.inst == i) }
  let s := if cls = 4 then { s with fdcJobs := s.fdcJobs.filter fun j => j.inst != i } else s
  named.foldl
    (fun s n =>
      let it := n.1
      if n.2 then s.engEnd it cls i csCtxLost
      else if it.rerun then s.engEnd it cls i csAccess
      else
        let s := s.setWindow cls i ((s.window cls i).filter (· != it.sn))
        s.updItem it.sn fun j =>
          { j with phase := .abandoned, avoid := j.exec, rerun := true, started := false, runTc := 0 })
    s

/-- What a DMA channel loses: its pending requests and those of its bursts are acknowledged as failed (R405, R406, R575). -/
def State.dropDma (s : State) (ch : Nat) : State :=
  let c := s.dmaChan ch
  let line := s.chanLine ch
  let rs := c.held.toList ++ c.flight.map (·.req) ++ s.lineReqs line
  let s := s.setDmaChan ch { c with flight := [], held := none }
  let s := { s with fab := { s.fab with held := s.fab.held.filter fun h => h.who != Producer.dma ch } }
  rs.foldl (fun s r => s.reqFailed line r) (s.setLine line [])

/-- A Realvin link goes down (R471, R477, R479): its packets are lost, each FORWARD descriptor among them is shed as by a flush,
and LINK_DOWN is published. -/
def State.rvDown (s : State) (n : Nat) : State :=
  let x := s.rv n
  let lost := x.replay.map (·.body) ++ x.wait
  let s := s.setReg (pgRv n) Reg.RV_STATE 0
  let s := s.setReg (pgRv n) Reg.RV_SWAP (s.reg (pgRv n) Reg.RV_SWAP &&& 0xC)
  let s := s.setRv n { RvSt.reset with tables := x.tables, staged := x.staged, stalled := x.stalled }
  let s := lost.foldl
    (fun s b =>
      match b with
      | .enqueue _ _ _ _ false sn => (match s.item? sn with
        | some it => s.shed it shedFlush 0 0
        | none => s)
      | _ => s)
    s
  s.publish 0x08 n (w32 (0x71 * 2 ^ 24 + min lost.length 65535)) (s.owner (pgRv n))

/-- What a part's fault ends (R575). -/
def State.dropWork (s : State) (p : Page) : State :=
  match p.kind with
  | .coreCtl => s.dropCore p.ix
  | .dmaCh => s.dropDma p.ix
  | .dmaUnit => (List.range 16).foldl (fun s j => s.dropDma (16 * p.ix + j)) s
  | .rvLink => if s.rvLink p.ix = 0 then s else s.rvDown p.ix
  | k => match kindCls k with
    | some c => if c = 0 then s else s.dropEngine c p.ix
    | none => s

/-! ### The PCIe link -/

/-- How a completion ends. -/
def cplOk : Nat := 0
def cplUr : Nat := 1
def cplRetry : Nat := 2
def cplPoison : Nat := 3

/-- PERST_N low, or no supply: nothing crosses the link (R486, R513). -/
def State.linkDown (s : State) : Bool := s.pins.perstLow || !s.pins.on

/-! ### SAFE -/

/-- ALERT_N follows WARN_STATE, and is asserted in SAFE (R536, R580). -/
def State.alertLow (s : State) : Bool := s.fld pgTherm Reg.THM_CTRL 8 1 == 1 || s.mode == modeSafe

/-- A part of the data or control plane halts with SAFE: FAULTED, CONTAINED 0 (R580). -/
def State.safePart (s : State) (reason detail : Nat) (p : Page) : State :=
  if s.part p = stFaulted then s else s.faultHead p reason detail false

/-- DEV_MODE.CMD_RESULT and REFUSE_WHY; the command no longer runs (R514, R519, R541). -/
def State.devResult (s : State) (r why : Nat) : State :=
  ((s.setFld pgDevice Reg.DEV_MODE 8 1 0).setFld pgDevice Reg.DEV_MODE 9 3 r).setFld pgDevice Reg.DEV_MODE 15 3 why

/-- REST entry is abandoned (R520): 2 WORK, 3 WAKE, 4 FAULT. -/
def State.restAbandon (s : State) (why : Nat) : State :=
  match s.rest with
  | some r => if r.done then s else { s with rest := none }.devResult 4 why
  | none => s

/-- The device enters SAFE with the REASON of the triggering fault (R579, R580). From OFF and REST there is no transition
(R513); a device in SAFE stays in it. -/
def State.enterSafe (s : State) (reason detail : Nat) : State :=
  if !s.pins.on ∨ s.mode = modeSafe ∨ s.mode = modeRest then s
  else
    let s := s.restAbandon 4
    let s := (planeKinds.flatMap pagesOf).foldl (fun s p => s.safePart reason detail p) s
    let halt (c : Core) : Core := { c with run := .idle, waiting := false, bundle := [], preempt := false }
    let s := { s with cores := s.cores.map fun (kc : Nat × Core) => (kc.1, halt kc.2) }
    s.setMode modeSafe

end Sys2Proof.Machine
end

