-- ==== Sys2Proof/Machine/Lanes.lean ====
section
/-!
DEFINITION. Sys2Proof/Machine/Lanes.lean: serial lanes and lane groups (R409 to R436): which settings a lane may rise with, PAM4 mapping
and precoding, word alignment, holds, sleep by hand and by schedule, recalibration, the eye monitor and the sweep.
-/
namespace Sys2Proof.Machine

/-! ### Rates and coding -/

/-- Is a rate code one of the CPRI rates, which lanes 0 to 31 run (R411)? -/
def cpriRate (r : Nat) : Bool := r == 0 || r == 1 || r == 2 || r == 4 || r == 5

/-- Does a rate use PAM4 (R411)? -/
def pam4Rate (r : Nat) : Bool := r == 7 || r == 8 || r == 9

/-- May a lane leave DOWN with the LN_CFG it has (R411, R412)? -/
def State.laneCfgOk (s : State) (l : Nat) : Bool :=
  let r := s.fld (pgLane l) Reg.LN_CFG 0 4
  let g := pgLng (l / 8)
  decide (r ≤ 9) && (!cpriRate r || decide (l < 32)) &&
    (s.fld g Reg.LNG_REF 8 4 == r || s.fld g Reg.LNG_REF 12 4 == r) &&
    (pam4Rate r || s.fld (pgLane l) Reg.LN_CFG 6 4 == 0)

/-- The level of a pair of bits, the first in transmission order the more significant (R412). -/
def pam4Level (gray : Bool) (pair : Nat) : Nat := if gray then [0, 1, 3, 2].getD pair 0 else pair % 4

/-- The precoder: P(n) = (T(n) − P(n − 1)) mod 4, from the state P(−1) (R412, R413). -/
def precode (p : Nat) : List Nat → List Nat
  | [] => []
  | t :: ts => let q := (t % 4 + 4 - p % 4) % 4; q :: precode q ts

/-- The decoder: T(n) = (P(n) + P(n − 1)) mod 4 (R412, R413). -/
def decodeLevels (p : Nat) : List Nat → List Nat
  | [] => []
  | q :: qs => (q + p) % 4 :: decodeLevels q qs

/-! ### Holds and sleep -/

/-- A hold ends: the lock, if it is set, awaits its confirmation (R425). -/
def State.rxResumes (s : State) (l : Nat) : State :=
  s.setLane l { s.laneSt l with confirm := s.fld (pgLane l) Reg.LN_ALIGN 2 1 == 1 }

/-- The schedule in force that a lane obeys now (R427, R435). -/
def State.laneSched (s : State) (l : Nat) : Option Sched :=
  let p := pgLane l
  let c := s.fld p Reg.LN_CFG 14 2
  if s.part p ≠ stReady ∨ s.fld p Reg.LN_ALIGN 3 1 = 1 ∨ c = 0 ∨ c = 3 then none
  else if s.fld (pgLng (l / 8)) Reg.LNG_SCHED_CTRL (c - 1) 1 = 0 then none
  else lookup? (2 * (l / 8) + (c - 1)) s.links.scheds

/-- The END, as an AIRTIME, of the window of a schedule that is open at `t` (R428). -/
def Sched.openAt (c : Sched) (t : Nat) : Option Nat :=
  if t < c.base ∨ c.period = 0 then none
  else
    let x := (t - c.base) % c.period
    let b := t - x
    (c.wins.find? fun w => decide (w.1 ≤ x) && decide (x < w.2)).map fun w => b + w.2

/-- RX_ASLEEP follows RX_SLEEP and the window that holds the receiver (R427); entering is tallied, and waking ends a hold. -/
def State.rxSettle (s : State) (l : Nat) : State :=
  let p := pgLane l
  let x := s.laneSt l
  let held : Bool := match x.window with
    | some e => (s.laneSched l).isSome && decide (s.airtime < e)
    | none => false
  let s := if held then s else s.setLane l { x with window := none }
  let want := s.fld p Reg.LN_SLEEP 1 1 == 1 || held
  let is := s.fld p Reg.LN_SLEEP 3 1 == 1
  if want == is then (if want then s else s.setFld p Reg.LN_SLEEP 4 1 0)
  else if want then (s.setFld p Reg.LN_SLEEP 3 1 1).count p Reg.LN_TALLY_RXSLEEP 1
  else (s.setFld p Reg.LN_SLEEP 3 2 0).rxResumes l

/-- Every receiver that a window holds, at a new AIRTIME (R430, R431). -/
def State.rxClock (s : State) : State :=
  (s.links.lanes.filter fun e => e.2.window.isSome || e.2.skip.isSome).foldl
    (fun s e =>
      let s := match (s.laneSt e.1).skip with
        | some t => if t ≤ s.airtime then s.setLane e.1 { s.laneSt e.1 with skip := none } else s
        | none => s
      s.rxSettle e.1)
    s

/-- A step of AIRTIME from `t0` passed STARTs of windows: they do not open (R431). -/
def State.skipWindows (s : State) (t0 : Nat) : State :=
  (List.range 64).foldl
    (fun s l =>
      match s.laneSched l with
      | some c =>
        match c.openAt s.airtime with
        | some e => if (c.openAt t0) = some e then s else s.setLane l { s.laneSt l with skip := some e }
        | none => s
      | none => s)
    s

/-- A write of LN_SLEEP (R426, R427): the transmitter goes idle or sends again, the receiver settles. -/
def State.sleepWrite (s : State) (l v : Nat) : State :=
  let p := pgLane l
  let s := s.setFld p Reg.LN_SLEEP 0 2 (v % 4)
  (s.setFld p Reg.LN_SLEEP 2 1 (v % 2)).rxSettle l

/-- TX_SLEEP (R426). -/
def execTxSleep (by_ : Agent) (l : Nat) (on : Bool) (s : State) : Host.Outcome State Fault Refusal :=
  if l ≥ 64 then .next s
  else .next (s.onPage by_ (pgLane l) Reg.LN_SLEEP fun s =>
    s.sleepWrite l (bit on + s.fld (pgLane l) Reg.LN_SLEEP 1 1 * 2))

/-- RX_SLEEP (R427, R430). -/
def execRxSleep (by_ : Agent) (l : Nat) (on : Bool) (s : State) : Host.Outcome State Fault Refusal :=
  if l ≥ 64 then .next s
  else .next (s.onPage by_ (pgLane l) Reg.LN_SLEEP fun s =>
    s.sleepWrite l (s.fld (pgLane l) Reg.LN_SLEEP 0 1 + bit on * 2))

/-- WINDOW_OPEN (R428, R429): a window of the lane's schedule is open and its START was not stepped over. -/
def execWindowOpen (l : Nat) (s : State) : Host.Outcome State Fault Refusal :=
  match (if l < 64 then s.laneSched l else none) with
  | none => .next s
  | some c =>
    match c.openAt s.airtime with
    | none => .next s
    | some e =>
      if (s.laneSt l).skip = some e ∨ (s.laneSt l).window.isSome then .next s
      else .next ((s.setLane l { s.laneSt l with window := some e }).rxSettle l)

/-- WINDOW_WAKE (R430): from END − 4,096 Tc the receiver wakes; it samples from END. RX_SLEEP still holds it (R427). -/
def execWindowWake (l : Nat) (s : State) : Host.Outcome State Fault Refusal :=
  match (s.laneSt l).window with
  | none => .next s
  | some e =>
    if s.airtime + 4096 < e ∨ s.fld (pgLane l) Reg.LN_SLEEP 1 1 = 1 then .next s
    else .next ((s.setFld (pgLane l) Reg.LN_SLEEP 4 1 1).rxSettle l)

/-! ### Schedules -/

/-- START and END of the enabled windows in a schedule's staging registers (R435; log entry 40). -/
def State.stagedWins (s : State) (g : Page) (k : Nat) : List (Nat × Nat) :=
  let b := Reg.LNG_SCHED0_BASE_LO + 32 * k
  ((List.range (if k = 0 then 2 else 4)).map fun w =>
    ((s.reg g (b + 12 + 8 * w)).toNat, (s.reg g (b + 16 + 8 * w)).toNat)).filter fun w => w.2 != 0

/-- No two windows meet. -/
def winsApart : List (Nat × Nat) → Bool
  | [] => true
  | w :: ws => (ws.all fun v => decide (w.2 ≤ v.1) || decide (v.2 ≤ w.1)) && winsApart ws

/-- COMMIT of a schedule (R428): its staging is checked, and waits for the first of its period boundaries after the write. -/
def State.schedCommit (s : State) (o k : Nat) : State :=
  let g := pgLng o
  let base := s.reg64 g (Reg.LNG_SCHED0_BASE_LO + 32 * k)
  let period := (s.reg g (Reg.LNG_SCHED0_PERIOD + 32 * k)).toNat
  let ws := s.stagedWins g k
  if 8192 ≤ period ∧ period ≤ 19660800 ∧ (ws.all fun w => decide (w.1 < w.2) && decide (w.2 ≤ period)) ∧ winsApart ws then
    let due := if s.airtime < base then base else base + ((s.airtime - base) / period + 1) * period
    let c : Sched := ⟨base, period, ws.filter fun w => decide (w.1 + 8192 ≤ w.2), due⟩
    let s := { s with links := { s.links with pendScheds := insertKey (2 * o + k) c s.links.pendScheds } }
    (s.setFld g Reg.LNG_SCHED_CTRL (4 + k) 1 1).setFld g Reg.LNG_SCHED_CTRL 6 2 0
  else s.setFld g Reg.LNG_SCHED_CTRL 6 2 1

/-- The lanes of a group settle: a schedule that is no longer in force holds none of them (R427). -/
def State.settleGroup (s : State) (o : Nat) : State := (List.range 8).foldl (fun s j => s.rxSettle (8 * o + j)) s

/-- A write of LNG_SCHED_CTRL (R435). -/
def State.schedWrite (s : State) (o v : Nat) : State :=
  let s := (s.setFld (pgLng o) Reg.LNG_SCHED_CTRL 0 2 v).settleGroup o
  let s := if bitOf v 2 then s.schedCommit o 0 else s
  if bitOf v 3 then s.schedCommit o 1 else s

/-- SCHED_COMMIT (R428). -/
def execSchedCommit (by_ : Agent) (o k : Nat) (s : State) : Host.Outcome State Fault Refusal :=
  if o ≥ 8 ∨ k ≥ 2 then .next s
  else .next (s.onPage by_ (pgLng o) Reg.LNG_SCHED_CTRL fun s => s.schedCommit o k)

/-- SCHED_APPLY (R428): at its period boundary a committed schedule is copied in. -/
def execSchedApply (o k : Nat) (s : State) : Host.Outcome State Fault Refusal :=
  match lookup? (2 * o + k) s.links.pendScheds with
  | none => .next s
  | some c =>
    if s.airtime < c.due ∨ o ≥ 8 ∨ k ≥ 2 then .next s
    else
      let s := { s with links := { s.links with
        scheds := insertKey (2 * o + k) c s.links.scheds
        pendScheds := eraseKey (2 * o + k) s.links.pendScheds } }
      .next (s.setFld (pgLng o) Reg.LNG_SCHED_CTRL (4 + k) 1 0)

/-! ### Word alignment -/

/-- Distinct word positions of an ALIGN_MODE (R424); the reserved mode has none. -/
def alignPositions (mode : Nat) : Option Nat := if mode = 1 then some 66 else if mode = 3 then none else some 10

/-- A slip (R424): OFFSET goes on by one modulo P, and LOCK clears. In the reserved mode OFFSET is a free value. -/
def State.slip (s : State) (l : Nat) : State :=
  let p := pgLane l
  let s := s.setFld p Reg.LN_ALIGN 2 1 0
  match alignPositions (s.fld p Reg.LN_CFG 12 2) with
  | some n => s.setFld p Reg.LN_ALIGN 4 7 ((s.fld p Reg.LN_ALIGN 4 7 + 1) % n)
  | none => let r := s.fresh 7; r.2.setFld p Reg.LN_ALIGN 4 7 r.1.toNat

/-- A write of LN_ALIGN: SLIP, and ALIGN_LOST cleared by 1 (R424, R425, R436). -/
def State.alignWrite (s : State) (l v : Nat) : State :=
  let p := pgLane l
  let s := if bitOf v 3 then (s.setFld p Reg.LN_ALIGN 3 1 0).rxSettle l else s
  if bitOf v 0 then s.slip l else s

/-- SLIP (R424). -/
def execSlip (by_ : Agent) (l : Nat) (s : State) : Host.Outcome State Fault Refusal :=
  if l ≥ 64 then .next s else .next (s.onPage by_ (pgLane l) Reg.LN_ALIGN fun s => s.slip l)

/-- Does the receiver sample? -/
def State.rxSampling (s : State) (l : Nat) : Bool := s.fld (pgLane l) Reg.LN_SLEEP 3 1 == 0

/-- ALIGN_LOCK (R416, R424): the lock indicator sets at the word boundary as it stands, and the latencies are known. -/
def execAlignLock (l tx rx : Nat) (s : State) : Host.Outcome State Fault Refusal :=
  let p := pgLane l
  if !(decide (l < 64) && (s.ready p || s.part p == stTending) && (s.laneSt l).cdr && s.rxSampling l) then .next s
  else
    let s := s.setFld p Reg.LN_ALIGN 2 1 1
    .next ((s.setFld p Reg.LN_LAT_TX 0 20 tx).setFld p Reg.LN_LAT_RX 0 20 rx)

/-- LOCK_CONFIRM (R425): after a hold the lock is confirmed or lost; a lane that lost it leaves its schedule (R427). -/
def execLockConfirm (l : Nat) (ok : Bool) (s : State) : Host.Outcome State Fault Refusal :=
  let p := pgLane l
  if !((s.laneSt l).confirm && s.rxSampling l) then .next s
  else
    let s := s.setLane l { s.laneSt l with confirm := false }
    if ok then .next s
    else
      let s := (s.setFld p Reg.LN_ALIGN 2 2 2).count p Reg.LN_TALLY_ALIGNLOST 1
      .next ((s.irq p 1).rxSettle l)

/-- CDR_LOSS (R436). -/
def execCdrLoss (l : Nat) (s : State) : Host.Outcome State Fault Refusal :=
  let p := pgLane l
  if !(decide (l < 64) && s.ready p && (s.laneSt l).cdr) then .next s
  else
    let s := s.setLane l { s.laneSt l with cdr := false }
    .next ((s.count p Reg.LN_TALLY_CDRLOSS 1).irq p 8)

/-! ### Recalibration -/

/-- A write of LN_RECAL (R432): bits 0 and 1 start the parts, bit 3 clears DONE. -/
def State.recalWrite (s : State) (l v : Nat) : State :=
  let p := pgLane l
  let s := if bitOf v 3 then s.setFld p Reg.LN_RECAL 3 1 0 else s
  if v % 4 = 0 ∨ s.fld p Reg.LN_RECAL 2 1 = 1 then s
  else if s.part p ≠ stTending then
    ((s.setFld p Reg.LN_RECAL 3 1 1).setFld p Reg.LN_RECAL 4 2 3).irq p 2
  else (s.setFld p Reg.LN_RECAL 2 1 1).setLane l { s.laneSt l with recal := v % 4 }

/-- RECAL_RX (R432), alone or together with the TX part. -/
def execRecalRx (by_ : Agent) (l : Nat) (both : Bool) (s : State) : Host.Outcome State Fault Refusal :=
  if l ≥ 64 then .next s
  else .next (s.onPage by_ (pgLane l) Reg.LN_RECAL fun s => s.recalWrite l (1 + bit both * 2))

/-- RECAL_TX (R432). -/
def execRecalTx (by_ : Agent) (l : Nat) (s : State) : Host.Outcome State Fault Refusal :=
  if l ≥ 64 then .next s else .next (s.onPage by_ (pgLane l) Reg.LN_RECAL fun s => s.recalWrite l 2)

/-- RECAL_DONE (R425, R432): the middle eye that the RX part measured, and whether the CDR locked. -/
def execRecalDone (l eye : Nat) (cdr : Bool) (s : State) : Host.Outcome State Fault Refusal :=
  let p := pgLane l
  let x := s.laneSt l
  if s.fld p Reg.LN_RECAL 2 1 = 0 ∨ l ≥ 64 then .next s
  else
    let rx := bitOf x.recal 0
    let res := if !rx then 0 else if !cdr then 2 else if eye % 2 ^ 16 < x.eyeMin then 1 else 0
    let s := s.setLane l { x with recal := 0, cdr := if rx then cdr else x.cdr }
    let s := if rx then (if cdr then s.setFld p Reg.LN_RECAL 16 16 eye else s).rxResumes l else s
    let s := (s.setFld p Reg.LN_RECAL 2 2 2).setFld p Reg.LN_RECAL 4 2 res
    .next (s.irq p 2)

/-! ### The eye monitor and the sweep -/

/-- A write of LN_EYE_CTRL: the settings, and with START one measurement, which counted `n` mismatches (R421, R436). -/
def State.eyeWrite (s : State) (a : Agent) (l v n : Nat) : State :=
  let p := pgLane l
  let s' := s.plainWrite a p Reg.LN_EYE_CTRL v false
  let lg := s'.fld p Reg.LN_EYE_CTRL 20 5
  if bitOf v 0 ∧ State.writeInRange p Reg.LN_EYE_CTRL v false ∧ s.fld p Reg.LN_SWEEP_CTRL 1 1 = 0 then
    s'.setReg p Reg.LN_EYE_COUNT (w32 (min n (min (2 ^ lg) (2 ^ 32 - 1))))
  else s'

/-- EYE_MEASURE (R421). -/
def execEyeMeasure (by_ : Agent) (l : Nat) (v : Word) (n : Nat) (s : State) : Host.Outcome State Fault Refusal :=
  if l ≥ 64 then .next s
  else .next (s.onPage by_ (pgLane l) Reg.LN_EYE_CTRL fun s => s.eyeWrite by_ l (v.toNat ||| 1) n)

def laneRxRegs : List Nat := [Reg.LN_RXEQ, Reg.LN_RXFFE0, Reg.LN_RXFFE1, Reg.LN_RXFFE2]

/-- A write of LN_SWEEP_CTRL (R422): START is rejected unless the lane is TENDING. -/
def State.sweepWrite (s : State) (a : Agent) (l v : Nat) : State :=
  let p := pgLane l
  if bitOf v 0 ∧ s.part p ≠ stTending then s.accErr a (p.addr + Reg.LN_SWEEP_CTRL) 2
  else
    let ok := State.writeInRange p Reg.LN_SWEEP_CTRL v false
    let s := s.plainWrite a p Reg.LN_SWEEP_CTRL v false
    if bitOf v 0 ∧ ok ∧ s.fld p Reg.LN_SWEEP_CTRL 1 1 = 0 then
      (s.setFld p Reg.LN_SWEEP_CTRL 1 1 1).setLane l { s.laneSt l with saved := laneRxRegs.map (s.reg p) }
    else s

/-- SWEEP (R422). -/
def execSweep (by_ : Agent) (l count : Nat) (s : State) : Host.Outcome State Fault Refusal :=
  if l ≥ 64 then .next s
  else .next (s.onPage by_ (pgLane l) Reg.LN_SWEEP_CTRL fun s => s.sweepWrite by_ l (1 + count % 1024 * 4))

/-- The receiver settings of a lane. -/
def State.loadRx (s : State) (l : Nat) (ws : List Word) : State :=
  (List.range 4).foldl (fun s i => s.setReg (pgLane l) (laneRxRegs.getD i 0) (ws.getD i 0)) s

/-- One candidate (R422): its settings are loaded, and the result record of what was measured is written. -/
def State.sweepOne (s : State) (l i : Nat) (m : List Nat) : State :=
  let p := pgLane l
  let addr (lo hi : Nat) : Nat := (s.reg p lo).toNat + 2 ^ 32 * s.fld p hi 0 16
  let s := match s.readWords (addr Reg.LN_SWEEP_LIST_LO Reg.LN_SWEEP_LIST_HI + 16 * i) 4 with
    | some ws => s.loadRx l (ws.set 0 (w32 ((ws.getD 0 0).toNat % 2 ^ 13)))
    | none => s
  let nrz := !pam4Rate (s.fld p Reg.LN_CFG 0 4)
  let h (j : Nat) : Nat := m.getD j 0 % 2 ^ 16
  let side (j : Nat) : Nat := if nrz then 0 else h j
  let r : List Word := [w32 (h 0 + side 1 * 2 ^ 16), w32 (side 2 + h 3 * 2 ^ 16), w32 (m.getD 4 0), w32 (m.getD 5 0 % 2)]
  (s.writeFor (s.owner p) (addr Reg.LN_SWEEP_RES_LO Reg.LN_SWEEP_RES_HI + 16 * i) (wordBytes r)).1

/-- SWEEP_DONE (R422): per candidate the heights of the middle, upper and lower eye, the middle width, the mismatches and
CDR_LOCKED; then the lane's own settings are restored. -/
def execSweepDone (l : Nat) (found : List (List Nat)) (s : State) : Host.Outcome State Fault Refusal :=
  let p := pgLane l
  if s.fld p Reg.LN_SWEEP_CTRL 1 1 = 0 ∨ l ≥ 64 ∨ found.length ≠ s.fld p Reg.LN_SWEEP_CTRL 2 10 then .next s
  else
    let s := (List.range found.length).foldl (fun s i => s.sweepOne l i (found.getD i [])) s
    let s := s.loadRx l (s.laneSt l).saved
    .next (((s.setLane l { s.laneSt l with saved := [] }).setFld p Reg.LN_SWEEP_CTRL 1 1 0).irq p 4)

/-! ### Coming up -/

/-- An octant's rail comes back from retention to a target of its loop, which is open within the loop's range (R523, R528,
R530). -/
def State.railOn (s : State) (o : Nat) : State :=
  let p : Page := ⟨.octant, o⟩
  if s.fld p Reg.PWR_OCT_STATE 11 1 = 0 then s
  else (s.setFld p Reg.PWR_OCT_STATE 11 1 0).setFld p Reg.PWR_OCT_VOLT 0 10 (680 + 5 * (s.measured p Reg.PWR_OCT_VOLT % 35))

/-- A command's transition ends well: the part is READY, on a rail at its loop target (R530). -/
def State.partReady (s : State) (p : Page) : State :=
  let s := match p.octant with
    | some o => s.railOn o
    | none => s
  ((s.setPart p stReady).cmdResult p crOk).trimUpdate

/-- CDR_LOCK (R420): a RISING lane whose group is READY becomes READY; so does a RETAINED one that RESUME was written to, whose
lock, if it held one, is confirmed as after a hold (R513). -/
def execCdrLock (l : Nat) (s : State) : Host.Outcome State Fault Refusal :=
  let p := pgLane l
  let st := s.part p
  let kept := st == stRetained && s.fld p Reg.PG_STATE 11 1 == 1
  if !(decide (l < 64) && (st == stRising || kept || st == stReady || st == stTending) && s.ready (pgLng (l / 8)) &&
      s.rxSampling l) then .next s
  else
    let s := s.setLane l { s.laneSt l with cdr := true }
    .next (if st = stRising then s.partReady p else if kept then (s.rxResumes l).partReady p else s)

/-- REF_OK (R410, R420): the reference of a group comes into range or leaves it, and its PLLs lock or lose lock. A RISING
group with both PLLs locked becomes READY. -/
def execRefOk (o : Nat) (ok pllA pllB : Bool) (s : State) : Host.Outcome State Fault Refusal :=
  let g := pgLng o
  if o ≥ 8 ∨ s.part g = stAbsent ∨ s.part g = stRetired then .next s
  else
    let up := s.part g != stDown
    let s := s.setFld g Reg.LNG_REF 16 3 (bit ok + bit (ok && pllA && up) * 2 + bit (ok && pllB && up) * 4)
    let coming := s.part g == stRising || (s.part g == stRetained && s.fld g Reg.PG_STATE 11 1 == 1)
    .next (if coming ∧ s.fld g Reg.LNG_REF 16 3 = 7 then s.partReady g else s)

end Sys2Proof.Machine
end

