-- ==== Sys2Proof/Machine/Dma.lean ====
section
/-!
DEFINITION. Sys2Proof/Machine/Dma.lean: a DMA channel's burst (R398 to R402), its end (R397, R403 to R405) and its commands (R406, R408). Register
accesses of a burst (R355) and the requester's side of an OUT burst are arguments, which Machine/DmaCmds.lean supplies.
-/
namespace Sys2Proof.Machine

/-! ### Configuration -/

def State.dmaKind (s : State) (ch : Nat) : Nat := s.fld (pgDma ch) Reg.DMA_CH_CFG 0 2
def State.dmaMode (s : State) (ch : Nat) : Nat := s.fld (pgDma ch) Reg.DMA_CH_CFG 2 3
def State.dmaLineEn (s : State) (ch : Nat) : Bool := s.fld (pgDma ch) Reg.DMA_CH_CFG 6 1 == 1
def State.dmaLine (s : State) (ch : Nat) : Nat := s.fld (pgDma ch) Reg.DMA_CH_CFG 7 8
def State.dmaBurst (s : State) (ch : Nat) : Nat := s.fld (pgDma ch) Reg.DMA_CH_CFG 16 13
def State.dmaEsize (s : State) (ch : Nat) : Nat := 2 ^ s.fld (pgDma ch) Reg.DMA_CH_SHAPE 0 2
def State.dmaPlanes (s : State) (ch : Nat) : Nat := s.fld (pgDma ch) Reg.DMA_CH_SHAPE 4 7
def State.dmaRun (s : State) (ch : Nat) : Nat := s.fld (pgDma ch) Reg.DMA_CH_SHAPE 12 12
def State.dmaBitw (s : State) (ch : Nat) : Nat := s.fld (pgDma ch) Reg.DMA_CH_SHAPE 24 5
def State.dmaAddr (s : State) (ch lo : Nat) : Nat :=
  (s.reg (pgDma ch) lo).toNat + 2 ^ 32 * s.fld (pgDma ch) (lo + 4) 0 16

/-- Is a line an addressed one, of a framer (R396)? -/
def addressed (line : Nat) : Bool := decide (line < 136)

/-- The checks of R395 when RISE is written. -/
def State.dmaCfgOk (s : State) (ch : Nat) : Bool :=
  let k := s.dmaKind ch
  let m := s.dmaMode ch
  let line := s.dmaLine ch
  let b := s.dmaBurst ch
  let shuffle := m == 1 || m == 2
  let pack := m == 3 || m == 4
  let unit := s.dmaPlanes ch * s.dmaRun ch * s.dmaEsize ch
  let lineKind := if !s.dmaLineEn ch then k == 2
    else if line < 136 ∨ line ≥ 224 then k == 0 || k == 1 else k == 2
  decide (k ≤ 2) && decide (m ≤ 4) && lineKind && s.fld (pgDma ch) Reg.DMA_CH_CFG 15 1 == 0 &&
    !(s.dmaLineEn ch && addressed line && m != 0) &&
    (if pack then decide (1 ≤ b) && decide (b ≤ 64) && decide (1 ≤ s.dmaBitw ch) && decide (s.dmaBitw ch ≤ 16)
     else decide (64 ≤ b) && decide (b ≤ 4096)) &&
    (!shuffle || (s.fld (pgDma ch) Reg.DMA_CH_SHAPE 0 2 != 3 && decide (unit ≠ 0) && decide (s.dmaPlanes ch ≤ 64) &&
      b % 64 == 0 && b % unit == 0 && (s.reg (pgDma ch) Reg.DMA_CH_PSTRIDE).toNat % s.dmaEsize ch == 0)) &&
    s.dmaAddr ch Reg.DMA_CH_SRC_LO % 16 == 0 && s.dmaAddr ch Reg.DMA_CH_DST_LO % 16 == 0

/-- Bytes that a burst moves on its source and on its destination side (R400). -/
def State.dmaSrcLen (s : State) (ch : Nat) : Nat :=
  let b := s.dmaBurst ch
  match s.dmaMode ch with
  | 2 => b / s.dmaPlanes ch
  | 3 => b * (1 + 3 * s.dmaBitw ch)
  | 4 => b * 64
  | _ => b
def State.dmaDstLen (s : State) (ch : Nat) : Nat :=
  let b := s.dmaBurst ch
  match s.dmaMode ch with
  | 1 => b / s.dmaPlanes ch
  | 3 => b * 64
  | 4 => b * (1 + 3 * s.dmaBitw ch)
  | _ => b

/-! ### Reads and writes of a channel -/

/-- How a channel reads and writes a register (R355). -/
abbrev RegRd := State → Nat → State × Word
abbrev RegWr := State → Nat → Word → State

/-- `n` bytes read for owner `own`; `host` supplies what host memory holds, in the order of the channel's reads there. -/
def dmaGet (rd : RegRd) (s : State) (own : Nat) (host : List Byte) (a n : Nat) : State × List Byte × Rd :=
  match s.region a with
  | .host f =>
    if f = own ∧ s.bme own then (s, host.drop n, .ok (host.take n ++ List.replicate (n - host.length) 0)) else (s, host, .access)
  | .regs =>
    if own ≠ 0 ∨ a % 4 ≠ 0 ∨ n % 4 ≠ 0 ∨ a + n > regsBase + 0x10000000 then (s, host, .access)
    else
      let r := (List.range (n / 4)).foldl
        (fun (x : State × List Byte) i =>
          let y := rd x.1 (a - regsBase + 4 * i)
          (y.1, x.2 ++ leBytes 4 y.2.toNat))
        (s, [])
      (r.1, host, .ok r.2)
  | _ =>
    match s.fetch a n with
    | (s, .poison b) => (s.noteBad b 3 true, host, .poison b)
    | (s, r) => (s, host, r)

/-- Bytes written for owner `own`. -/
def dmaPut (wr : RegWr) (s : State) (own a : Nat) (bs : List Byte) : State × Wr :=
  match s.region a with
  | .host _ => s.hostWrite a own bs
  | .regs =>
    if own ≠ 0 ∨ a % 4 ≠ 0 ∨ bs.length % 4 ≠ 0 ∨ a + bs.length > regsBase + 0x10000000 then (s, .access)
    else
      ((List.range (bs.length / 4)).foldl
        (fun s i => wr s (a - regsBase + 4 * i) (w32 (ofLe ((bs.drop (4 * i)).take 4)))) s, .ok)
  | _ => s.write a bs

/-! ### List sides -/

/-- Why a burst does not move its bytes: the list has ended, or a halt with its CAUSE and address. -/
inductive DmaStop where
  | ended (side entry : Nat)
  | fail (cause addr : Nat)
deriving DecidableEq, Repr

/-- One list entry (R399). -/
structure DmaEnt where
  addr : Nat
  len : Nat
  wrap : Bool
  ev : Bool
  nq : Bool
deriving DecidableEq, Repr

/-- The entry that a side stands at, checked (R399, R400): `n` is the side's length per burst, `sz` its element size. -/
def dmaEntry (rd : RegRd) (s : State) (own : Nat) (host : List Byte) (side base e n sz : Nat) :
    State × List Byte × Except DmaStop DmaEnt :=
  match dmaGet rd s own host (base + 16 * e) 16 with
  | (s, host, .poison a) => (s, host, .error (.fail 1 a))
  | (s, host, .access) => (s, host, .error (.fail 2 (base + 16 * e)))
  | (s, host, .ok bs) =>
    let x := ofLe bs
    let t : DmaEnt := ⟨bitsOf x 0 48, bitsOf x 48 24, bitOf x 72, bitOf x 73, bitOf x 74⟩
    if t.len = 0 then (s, host, .error (.ended side e))
    else if t.len % n ≠ 0 ∨ t.addr % sz ≠ 0 then (s, host, .error (.fail 4 (base + 16 * e)))
    else (s, host, .ok t)

/-- A side after one burst: its entry and offset, and the entry it completed (R400, R403). -/
def DmaEnt.advance (t : DmaEnt) (side e o n : Nat) : Nat × Nat × List (Nat × Nat × Bool × Bool) :=
  if o + n ≥ t.len then ((if t.wrap then 0 else e + 1), 0, [(side, e, t.ev, t.nq)]) else (e, o + n, [])

/-! ### Reshaping -/

/-- Bytes of plane `p` out of interleaved data (R401). -/
def planeOf (bs : List Byte) (P run sz p : Nat) : List Byte :=
  (List.range (bs.length / P / sz)).flatMap fun j => (bs.drop ((((j / run) * P + p) * run + j % run) * sz)).take sz

/-- Interleaved data out of planes (R401). -/
def interleave (planes : List (List Byte)) (P run sz n : Nat) : List Byte :=
  (List.range (n / sz)).flatMap fun i =>
    ((planes.getD (i / run % P) []).drop ((i / (P * run) * run + i % run) * sz)).take sz

/-- UNPACK of one block (R402). -/
def unpackBlock (n : Nat) (bs : List Byte) : List Byte :=
  let b := bfpUnpack n bs
  b.2.1.flatMap (fun m => leBytes 2 (pat 16 m)) ++ [BitVec.ofNat 8 b.1] ++ List.replicate 15 0

/-- PACK of one block: its bytes, and how many mantissas saturated (R402). -/
def packBlock (n : Nat) (bs : List Byte) : List Byte × Nat :=
  let ms := (List.range 24).map fun j => sx 16 (ofLe ((bs.drop (2 * j)).take 2))
  ((bfpPack false n (bs.getD 48 0).toNat ms).1, (ms.filter fun m => (narrow false m n).2).length)

def blocksOf (n size : Nat) (bs : List Byte) : List (List Byte) := (List.range n).map fun i => (bs.drop (size * i)).take size

/-! ### A burst -/

/-- A burst as it comes out: positions and completed entries if it moved its bytes, or why it did not. -/
structure DmaTry where
  st : State
  stop : Option DmaStop
  pos : DmaPos
  done : List (Nat × Nat × Bool × Bool)
  poisonWr : Bool
  sat : Nat
  out : List Byte

/-- The source side: the bytes of the burst, and the side after it. -/
def dmaSource (rd : RegRd) (s : State) (ch : Nat) (r : DmaReq) (host : List Byte) :
    State × List Byte × Except DmaStop (List Byte × Nat × Nat × List (Nat × Nat × Bool × Bool)) :=
  let own := s.owner (pgDma ch)
  let pos := (s.dmaChan ch).pos
  let P := s.dmaPlanes ch
  if s.dmaKind ch = 0 then (s, host, .ok (r.data, pos.srcE, pos.srcO, []))
  else if s.dmaKind ch = 1 ∧ addressed (s.dmaLine ch) then
    match dmaGet rd s own host r.addr r.len with
    | (s, host, .ok bs) => (s, host, .ok (bs, pos.srcE, pos.srcO, []))
    | (s, host, .poison a) => (s, host, .error (.fail 1 a))
    | (s, host, .access) => (s, host, .error (.fail 2 r.addr))
  else
    let n := s.dmaSrcLen ch
    let sz := if s.dmaMode ch = 1 ∨ s.dmaMode ch = 2 then s.dmaEsize ch else 1
    match dmaEntry rd s own host 0 (s.dmaAddr ch Reg.DMA_CH_SRC_LO) pos.srcE n sz with
    | (s, host, .error e) => (s, host, .error e)
    | (s, host, .ok t) =>
      let base := t.addr + pos.srcO
      let stride := (s.reg (pgDma ch) Reg.DMA_CH_PSTRIDE).toNat
      let adv := t.advance 0 pos.srcE pos.srcO n
      let parts := if s.dmaMode ch = 2 then (List.range P).map fun p => base + p * stride else [base]
      let got := parts.foldl
        (fun (x : State × List Byte × Except DmaStop (List (List Byte))) a =>
          match x.2.2 with
          | .error _ => x
          | .ok bss =>
            match dmaGet rd x.1 own x.2.1 a n with
            | (s, host, .ok bs) => (s, host, .ok (bss ++ [bs]))
            | (s, host, .poison b) => (s, host, .error (.fail 1 b))
            | (s, host, .access) => (s, host, .error (.fail 2 a)))
        (s, host, .ok [])
      match got with
      | (s, host, .error e) => (s, host, .error e)
      | (s, host, .ok bss) =>
        let bs := if s.dmaMode ch = 2 then interleave bss P (s.dmaRun ch) (s.dmaEsize ch) (s.dmaBurst ch) else bss.flatten
        (s, host, .ok (bs, adv.1, adv.2.1, adv.2.2))

/-- The bytes as the destination takes them, in pieces of one ring burst each, and the saturations of PACK. -/
def State.dmaReshape (s : State) (ch : Nat) (bs : List Byte) : List (List Byte) × Nat :=
  let n := s.dmaBitw ch
  match s.dmaMode ch with
  | 1 => ((List.range (s.dmaPlanes ch)).map fun p => planeOf bs (s.dmaPlanes ch) (s.dmaRun ch) (s.dmaEsize ch) p, 0)
  | 3 => ([(blocksOf (s.dmaBurst ch) (1 + 3 * n) bs).flatMap (unpackBlock n)], 0)
  | 4 =>
    let ps := (blocksOf (s.dmaBurst ch) 64 bs).map (packBlock n)
    ([ps.flatMap (·.1)], ps.foldl (fun a p => a + p.2) 0)
  | _ => ([bs], 0)

/-- The pieces are written one after the other, at most `room` bytes of them; an ACCESS ends the burst. -/
def dmaStore (wr : RegWr) (own : Nat) : List (Nat × List Byte) → Nat → State → Bool → State × Bool × Option Nat
  | [], _, s, p => (s, p, none)
  | (a, bs) :: t, room, s, p =>
    match dmaPut wr s own a (bs.take room) with
    | (s, .access) => (s, p, some a)
    | (s, w) => dmaStore wr own t (room - bs.length) s (p || w == .poison)

/-- One burst (R398 to R402, R405). `rf` operations of it completed with RING_FAULT: it is retried once from its start; a
second failure ends it at `rfAt` with the first `landed` bytes written. -/
def dmaMove (rd : RegRd) (wr : RegWr) (s : State) (ch : Nat) (r : DmaReq) (rf rfAt landed : Nat) (host : List Byte) : DmaTry :=
  let own := s.owner (pgDma ch)
  let pos := (s.dmaChan ch).pos
  let no (s : State) (e : DmaStop) : DmaTry := ⟨s, some e, pos, [], false, 0, []⟩
  match dmaSource rd s ch r host with
  | (s, _, .error e) => no s e
  | (s, host, .ok (bs, srcE, srcO, sdone)) =>
    if s.dmaKind ch = 1 then
      if rf ≥ 2 then no s (.fail 3 rfAt)
      else ⟨s, none, { pos with srcE := srcE, srcO := srcO }, sdone, false, 0, bs⟩
    else
      let sh := s.dmaReshape ch bs
      let store (s : State) (at_ : Nat) (pos : DmaPos) (ddone : List (Nat × Nat × Bool × Bool)) : DmaTry :=
        let stride := (s.reg (pgDma ch) Reg.DMA_CH_PSTRIDE).toNat
        let puts := (List.range sh.1.length).map fun p => (at_ + p * stride, sh.1.getD p [])
        let total := sh.1.foldl (fun a b => a + b.length) 0
        match dmaStore wr own puts (if rf ≥ 2 then min landed total else total) s false with
        | (s, p, some a) => { no s (.fail 2 a) with poisonWr := p }
        | (s, p, none) =>
          if rf ≥ 2 then { no s (.fail 3 rfAt) with poisonWr := p }
          else ⟨s, none, pos, sdone ++ ddone, p, sh.2, []⟩
      if s.dmaKind ch = 0 ∧ addressed (s.dmaLine ch) then store s r.addr pos []
      else
        let n := s.dmaDstLen ch
        let sz := if s.dmaMode ch = 1 ∨ s.dmaMode ch = 2 then s.dmaEsize ch else 1
        match dmaEntry rd s own host 1 (s.dmaAddr ch Reg.DMA_CH_DST_LO) pos.dstE n sz with
        | (s, _, .error e) => no s e
        | (s, _, .ok t) =>
          let adv := t.advance 1 pos.dstE pos.dstO n
          store s (t.addr + pos.dstO) ⟨srcE, srcO, adv.1, adv.2.1⟩ adv.2.2

/-! ### Turns -/

/-- Is the channel held by an enqueue to a full STALL queue (R404)? -/
def State.dmaPaused (s : State) (ch : Nat) : Bool := s.fab.held.any fun h => h.who == .dma ch

/-- May the channel start a burst: it is READY, runs, has a request, and no burst of it in flight has failed (log entry 44)? -/
def State.dmaCanStart (s : State) (ch : Nat) : Bool :=
  let c := s.dmaChan ch
  s.ready (pgDma ch) && s.ready ⟨.dmaUnit, ch / 16⟩ && !s.quiet && c.run == 0 && !s.dmaPaused ch &&
    decide (c.flight.length < 2) && c.flight.all (fun b => b.fail.isNone) && !(s.lineReqs (s.chanLine ch)).isEmpty

/-- Is it the channel's turn in its unit's rotation (R398)? -/
def State.dmaTurn (s : State) (ch : Nat) : Bool :=
  let u := ch / 16
  let last := lookupD 15 u s.dmaLast
  let order := (List.range 16).map fun i => 16 * u + (last + 1 + i) % 16
  (order.find? s.dmaCanStart) == some ch

/-- An event to the channel's NOTIFY queue (R403). -/
def State.dmaNotify (s : State) (ch low : Nat) : State :=
  if s.fld (pgDma ch) Reg.DMA_CH_NOTIFY 20 1 = 1 then
    s.postTo 0x03 ch (w32 low) (s.fld (pgDma ch) Reg.DMA_CH_NOTIFY 0 20)
  else s

/-- A burst begins (R398). -/
def State.dmaStart (rd : RegRd) (wr : RegWr) (s : State) (ch rf rfAt landed : Nat) (host : List Byte) : State :=
  if !(s.dmaCanStart ch && s.dmaTurn ch) then s
  else
    let line := s.chanLine ch
    match s.lineReqs line with
    | [] => s
    | r :: rs =>
      let t := dmaMove rd wr s ch r rf rfAt landed host
      let c := s.dmaChan ch
      match t.stop with
      | some (.ended side e) =>
        if !c.flight.isEmpty then s
        else (t.st.setDmaChan ch { c with run := 4 }).dmaNotify ch (0x61 * 2 ^ 24 + side * 2 ^ 16 + e % 65536)
      | some (.fail cause addr) =>
        let s := (t.st.setLine line rs).setDmaChan ch
          { c with flight := c.flight ++ [⟨r, c.pos, t.poisonWr, some (cause, addr), [], t.sat, []⟩] }
        { s with dmaLast := insertKey (ch / 16) (ch % 16) s.dmaLast }
      | none =>
        let s := (t.st.setLine line rs).setDmaChan ch
          { c with pos := t.pos, flight := c.flight ++ [⟨r, c.pos, t.poisonWr, none, t.done, t.sat, t.out⟩] }
        { s with dmaLast := insertKey (ch / 16) (ch % 16) s.dmaLast }

/-! ### The end of a burst -/

/-- The channel halts (R405). -/
def State.dmaHalt (s : State) (ch cause addr : Nat) (held : Option DmaReq) : State :=
  let p := pgDma ch
  let s := (s.setReg p Reg.DMA_CH_FAIL_LO (w32 addr)).setReg p Reg.DMA_CH_FAIL_HI (w32 (addr / 2 ^ 32 % 2 ^ 16))
  let s := s.setDmaChan ch { s.dmaChan ch with run := 3, cause := cause, held := held }
  (s.count p Reg.DMA_CH_TALLY_HALT 1).dmaNotify ch (0x62 * 2 ^ 24 + cause * 2 ^ 16 + (s.dmaChan ch).count % 65536)

/-- The enqueue of a completed entry with NQ (R404). -/
def State.dmaEnqueue (s : State) (ch e : Nat) : State :=
  let p := pgDma ch
  let a := s.dmaAddr ch Reg.DMA_CH_ENQ_DESC_LO
  match s.fetch a 64 with
  | (s, .ok bs) =>
    let ws := (List.range 16).map fun i => w32 (ofLe ((bs.drop (4 * i)).take 4))
    (s.enqueue (s.fld p Reg.DMA_CH_ENQ 0 20) (s.owner p) (ws.set 1 (w32 (ch * 65536 + e % 65536))) .notify .block (.dma ch) true).1
  | (s, .poison b) => s.dmaHalt ch 1 b none
  | (s, .access) => s.dmaHalt ch 2 a none

/-- What a completed entry fires (R403, R404). -/
def State.dmaEntryDone (s : State) (ch : Nat) (d : Nat × Nat × Bool × Bool) : State :=
  let s := if d.2.2.1 then
      s.publish 0x03 ch (w32 (0x60 * 2 ^ 24 + d.1 * 2 ^ 16 + d.2.1 % 65536)) (s.owner (pgDma ch))
    else s
  if d.2.2.2 then s.dmaEnqueue ch d.2.1 else s

/-- The oldest burst in flight is complete (R397, R403, R405). `deliver` gives an OUT burst to its requester. -/
def State.dmaFinish (deliver : State → Nat → DmaReq → List Byte → State) (s : State) (ch : Nat) : State :=
  let c := s.dmaChan ch
  let p := pgDma ch
  match c.flight with
  | [] => s
  | b :: rest =>
    if !s.ready p ∧ s.part p ≠ stDraining then s
    else match b.fail with
      | some (cause, addr) => (s.setDmaChan ch { c with flight := rest }).dmaHalt ch cause addr (some b.req)
      | none =>
        let s := s.setDmaChan ch { c with flight := rest, count := c.count + 1 }
        let s := (s.count p Reg.DMA_CH_TALLY_BURST 1).count p Reg.DMA_CH_TALLY_SAT b.sat
        let s := if b.poisonWr then
            (s.count p Reg.DMA_CH_TALLY_POISONWR 1).dmaNotify ch (0x63 * 2 ^ 24 + (c.count + 1) % 65536)
          else s
        let s := deliver s (s.chanLine ch) b.req b.out
        b.done.foldl (fun s d => s.dmaEntryDone ch d) s

/-! ### Commands -/

/-- RESUME (R406): the failing request comes first again. -/
def State.dmaResume (s : State) (ch : Nat) : State :=
  let c := s.dmaChan ch
  if c.run ≠ 3 then s
  else
    let line := s.chanLine ch
    let s := s.setLine line (c.held.toList ++ s.lineReqs line)
    s.setDmaChan ch { c with run := 0, cause := 0, held := none }

/-- One list side advanced by a burst, where its entry can be read (R406). -/
def State.dmaSkipSide (rd : RegRd) (s : State) (ch side : Nat) : State :=
  let c := s.dmaChan ch
  let lo := if side = 0 then Reg.DMA_CH_SRC_LO else Reg.DMA_CH_DST_LO
  let e := if side = 0 then c.pos.srcE else c.pos.dstE
  let o := if side = 0 then c.pos.srcO else c.pos.dstO
  let n := if side = 0 then s.dmaSrcLen ch else s.dmaDstLen ch
  match dmaEntry rd s (s.owner (pgDma ch)) [] side (s.dmaAddr ch lo) e n 1 with
  | (s, _, .ok t) =>
    let a := t.advance side e o n
    let pos := if side = 0 then { c.pos with srcE := a.1, srcO := a.2.1 } else { c.pos with dstE := a.1, dstO := a.2.1 }
    s.setDmaChan ch { s.dmaChan ch with pos := pos }
  | (s, _, .error _) => s

/-- SKIP (R406). -/
def State.dmaSkip (rd : RegRd) (s : State) (ch : Nat) : State :=
  let c := s.dmaChan ch
  if c.run ≠ 3 then s
  else
    let line := s.chanLine ch
    let ad := s.dmaLineEn ch && addressed line
    let s := c.held.toList.foldl (fun s r => s.reqFailed line r) s
    let s := if s.dmaKind ch = 0 ∨ (s.dmaKind ch = 1 ∧ ad) then s else s.dmaSkipSide rd ch 0
    let s := if s.dmaKind ch = 1 ∨ (s.dmaKind ch = 0 ∧ ad) then s else s.dmaSkipSide rd ch 1
    s.setDmaChan ch { s.dmaChan ch with run := 0, cause := 0, held := none }

/-- RESET (R406). -/
def State.dmaReset (s : State) (ch : Nat) : State := (s.dropDma ch).setDmaChan ch DmaChan.reset

/-- KICK (R397, R408): one request for a MEM channel with no line bound. -/
def State.dmaKick (s : State) (ch : Nat) : State :=
  if s.dmaKind ch = 2 ∧ !s.dmaLineEn ch ∧ s.ready (pgDma ch) then (s.raiseLine (kickLine ch) DmaReq.plain).1 else s

/-- A write of DMA_CH_CMD (R408). -/
def State.dmaCmd (rd : RegRd) (s : State) (ch v : Nat) : State :=
  match v % 8 with
  | 1 => s.dmaResume ch
  | 2 => s.dmaSkip rd ch
  | 3 => s.dmaReset ch
  | 4 => s.dmaKick ch
  | _ => s

/-- DMA_CH_STATUS and DMA_CH_POS as the channel's page shows them (R408). -/
def State.dmaStatusWord (s : State) (ch : Nat) : Word :=
  let c := s.dmaChan ch
  let n := (s.lineReqs (s.chanLine ch)).length + c.held.toList.length
  let run := if c.run ≠ 0 then c.run else if s.dmaPaused ch then 2 else bit (!c.flight.isEmpty)
  w32 (run + c.cause % 16 * 2 ^ 8 + min n 16 * 2 ^ 12)
def State.dmaPosWord (s : State) (ch : Nat) : Word :=
  let p := (s.dmaChan ch).pos
  w32 (p.srcE % 65536 + p.dstE % 65536 * 2 ^ 16)

/-- DMA_RESET (R406). -/
def execDmaReset (by_ : Agent) (ch : Nat) (s : State) : Host.Outcome State Fault Refusal :=
  if ch ≥ 64 then .next s else .next (s.onPage by_ (pgDma ch) Reg.DMA_CH_CMD fun s => s.dmaReset ch)
/-- DMA_RESUME (R406). -/
def execDmaResume (by_ : Agent) (ch : Nat) (s : State) : Host.Outcome State Fault Refusal :=
  if ch ≥ 64 then .next s else .next (s.onPage by_ (pgDma ch) Reg.DMA_CH_CMD fun s => s.dmaResume ch)
/-- KICK (R408). -/
def execKick (by_ : Agent) (ch : Nat) (s : State) : Host.Outcome State Fault Refusal :=
  if ch ≥ 64 then .next s else .next (s.onPage by_ (pgDma ch) Reg.DMA_CH_CMD fun s => s.dmaKick ch)

end Sys2Proof.Machine
end

