-- ==== Sys2Proof/Machine/Flash.lean ====
section
/-!
DEFINITION. Sys2Proof/Machine/Flash.lean: what Ward holds and reads: OTP fields (R548), the boot record, slots and images of the flash
(R549 to R552), root keys (R555, R556), and lane tables (R417 to R419).
-/
namespace Sys2Proof.Machine

def State.setWard (s : State) (w : Ward) : State := { s with ward := w }

/-! ### OTP -/

/-- Bytes of the OTP; bits not written read zero (R548). -/
def State.otpBytes (s : State) (a n : Nat) : List Byte := memGets s.ward.otp a n
def State.otpNum (s : State) (a n : Nat) : Nat := ofLe (s.otpBytes a n)

/-- OTP bits can only be set (R583). -/
def State.otpSet (s : State) (a : Nat) (bs : List Byte) : State :=
  let new := List.zipWith (fun (x y : Byte) => x ||| y) (s.otpBytes a bs.length) bs
  s.setWard { s.ward with otp := memPuts s.ward.otp a new }

/-- The fields of the OTP (R548). -/
def otpRoot : Nat := 0x000
def otpDevId : Nat := 0x020
def otpBoardId : Nat := 0x028
def otpSubsys : Nat := 0x02C
def otpKeySlot (n : Nat) : Nat := 0x030 + 48 * n
def otpRevoked : Nat := 0x0F0
def otpClosed : Nat := 0x0F1
def otpRollback (ty : Nat) : Nat := 0x100 + 16 * ty
def otpOwner (slot : Nat) : Nat := 0x180 + 32 * slot

/-- A rollback counter, thermometer-coded (R548). -/
def State.rollback (s : State) (ty : Nat) : Nat :=
  (List.range 128).foldl (fun a i => a + bit (bitOf (s.otpNum (otpRollback ty) 16) i)) 0

/-! ### Root keys -/

/-- The device root, which only Kaolin reads (R555). -/
def State.deviceRoot (s : State) : List Nat := natBytes (s.otpBytes otpRoot 32)

def labelOwner : List Nat := [0x4F, 0x57, 0x4E, 0x45, 0x52]
def labelImg : List Nat := [0x49, 0x4D, 0x47]
def labelCfg : List Nat := [0x43, 0x46, 0x47]

/-- The root of an owner slot, if its VALID byte is not 0 (R555). -/
def State.ownerRoot (s : State) (slot : Nat) : Option (List Nat) :=
  if s.otpNum (otpOwner slot + 16) 1 = 0 then none
  else some (kdf s.deviceRoot (labelOwner ++ natBytes (s.otpBytes (otpOwner slot) 16)) 3 256)

/-! ### Flash -/

/-- A byte of flash; one never written is erased (log entry 38). -/
def State.flashByte (s : State) (a : Nat) : Byte := (lookup? a s.ward.flash).getD 0xFF
def State.flashBytes (s : State) (a n : Nat) : List Byte := (List.range n).map fun i => s.flashByte (a + i)
def State.flashW (s : State) (a : Nat) : Nat := ofLe (s.flashBytes a 4)

def flashPut (m : List Host.Cell) (a : Nat) (b : Byte) : List Host.Cell := if b = 0xFF then eraseKey a m else insertKey a b m

/-- Bytes written to flash. -/
def State.flashWrite (s : State) (a : Nat) (bs : List Byte) : State :=
  s.setWard { s.ward with
    flash := (List.range bs.length).foldl (fun m i => flashPut m (a + i) (bs.getD i 0)) s.ward.flash }

/-- A range of flash erased. -/
def State.flashErase (s : State) (a n : Nat) : State :=
  s.setWard { s.ward with flash := s.ward.flash.filter fun c => !(decide (a ≤ c.1) && decide (c.1 < a + n)) }

/-- The words 0 to 5 of a copy of the boot record, if it is valid (R549). -/
def State.bootCopy (s : State) (a : Nat) : Option (List Nat) :=
  let bs := s.flashBytes a 24
  if s.flashW a = 0x4E4B4252 ∧ s.flashW (a + 24) = crc32 bs then
    some ((List.range 6).map fun i => ofLe ((bs.drop (4 * i)).take 4))
  else none

/-- The boot record in force and the offset of its copy: the valid one with the higher SEQ (R549). -/
def State.bootRec (s : State) : Option (Nat × List Nat) :=
  match s.bootCopy 0, s.bootCopy 0x1000 with
  | some a, some b => if b.getD 1 0 > a.getD 1 0 then some (0x1000, b) else some (0, a)
  | some a, none => some (0, a)
  | none, some b => some (0x1000, b)
  | none, none => none

/-- The boot record is rewritten: always the other copy, with SEQ + 1 (R549). -/
def State.setBootFlags (s : State) (flags : Nat) : State :=
  match s.bootRec with
  | none => s
  | some (at_, r) =>
    let ws := (r.set 1 ((r.getD 1 0 + 1) % 2 ^ 32)).set 2 flags
    let bs := ws.flatMap (leBytes 4)
    let dst := 0x1000 - at_
    (s.flashErase dst 0x1000).flashWrite dst (bs ++ leBytes 4 (crc32 bs))

/-- Fields of word 2 of a boot record. -/
def brPreferred (r : List Nat) : Nat := bitsOf (r.getD 2 0) 0 1
def brCommitted (r : List Nat) (slot : Nat) : Bool := bitOf (r.getD 2 0) (1 + slot)
def brTries (r : List Nat) : Nat := bitsOf (r.getD 2 0) 4 4
def brBase (r : List Nat) (slot : Nat) : Nat := r.getD (3 + slot) 0
def brSize (r : List Nat) : Nat := r.getD 5 0

/-- Images of a slot: flash offset and length of each entry of its directory (R549). -/
def State.slotImages (s : State) (slot : Nat) : List (Nat × Nat) :=
  match s.bootRec with
  | none => []
  | some (_, r) =>
    let b := brBase r slot
    let n := s.flashW (b + 4)
    if s.flashW b ≠ 0x4E4B5344 ∨ 8 + 8 * n > brSize r then []
    else (List.range n).map fun i => (b + s.flashW (b + 8 + 8 * i), s.flashW (b + 12 + 8 * i))

/-! ### Images -/

/-- Header fields of an image (R550). -/
def State.imgType (s : State) (a : Nat) : Nat := s.flashW (a + 0x08)
def State.imgTarget (s : State) (a : Nat) : Nat := s.flashW (a + 0x0C)
def State.imgVersion (s : State) (a : Nat) : Nat := s.flashW (a + 0x10) % 2 ^ 16
def State.imgRollback (s : State) (a : Nat) : Nat := s.flashW (a + 0x14)
def State.imgLen (s : State) (a : Nat) : Nat := s.flashW (a + 0x18)
def State.imgKey (s : State) (a : Nat) : Nat := s.flashW (a + 0x20)

/-- The body, decrypted if the image is ENCRYPTED (R551). -/
def State.imgBody (s : State) (a : Nat) : List Byte :=
  let bs := s.flashBytes (a + 512) (s.imgLen a)
  let fl := s.flashW (a + 0x1C)
  if fl % 2 = 0 then bs
  else
    let label := labelImg ++ natBytes (s.flashBytes (a + 0x08) 1 ++ s.flashBytes (a + 0x0C) 2)
    byteNats (xts false (kdf s.deviceRoot label 1 512) (if bitOf fl 1 then 4096 else 512) 0 (natBytes bs))

/-- The words of a lane table, if it passes the checks of R417: its BOARD_ID and entries. -/
def laneTable (bs : List Byte) : Option (Nat × List (List Word)) :=
  let w (i : Nat) : Nat := ofLe ((bs.drop (4 * i)).take 4)
  let n := w 3
  let body := (bs.drop 64).take (32 * n)
  if w 0 = 0x4C4E5442 ∧ w 1 = 1 ∧ 1 ≤ n ∧ n ≤ 1280 ∧ bs.length ≥ 64 + 32 * n ∧ w 4 = crc32 body ∧
      ((bs.drop 20).take 44).all (· == 0) then
    some (w 2, (List.range n).map fun e => (List.range 8).map fun i => w32 (ofLe ((body.drop (32 * e + 4 * i)).take 4)))
  else none

/-- The tests of R551 on the image of `len` bytes at `a`; one that is encrypted in no whole number of data units is not
accepted (log entry 42). -/
def State.imageOk (s : State) (a len : Nat) : Bool :=
  let fl := s.flashW (a + 0x1C)
  let n := s.imgLen a
  let key := s.flashBytes (a + 0x70) 96
  let unit := if bitOf fl 1 then 4096 else 512
  let slot := s.imgKey a
  let num (o : Nat) : Nat := msbNum (s.flashBytes (a + o) 48)
  decide (512 + n ≤ len) && s.flashW a == 0x4E4B4947 && s.flashW (a + 4) == 1 && decide (s.imgType a ≤ 6) &&
    decide (slot < 4) && !bitOf s.ward.revoked slot && sha384 key == s.ward.keys.getD slot [] &&
    ecdsaOk (num 0x70) (num 0xA0) (num 0xD0) (num 0x100) (s.flashBytes a 0xD0) &&
    s.flashBytes (a + 0x40) 48 == sha384 (s.flashBytes (a + 512) n) &&
    decide (s.rollback (s.imgType a) ≤ s.imgRollback a) && decide (s.imgRollback a ≤ 128) &&
    (fl % 2 == 0 || n % unit == 0) &&
    (s.imgType a != 5 || (laneTable (s.imgBody a)).isSome)

/-- Does an image suit a part (R565): a core load, or one of the part's TYPE, or of TYPE ENGINE with the part's class? -/
def State.imgSuits (s : State) (a : Nat) (p : Page) : Bool :=
  match p.kind with
  | .coreCtl => s.imgType a == 1
  | .framer => s.imgType a == 3
  | .dmaUnit => s.imgType a == 4
  | k => match kindCls k with
    | some c => s.imgType a == 2 && s.imgTarget a % 16 == c
    | none => false

/-- The image of a slot that a part is loaded with: for a core, the load that it holds where the slot has it (log entry 43). -/
def State.imageFor (s : State) (slot : Nat) (p : Page) : Option (Nat × Nat) :=
  let is := (s.slotImages slot).filter fun i => s.imgSuits i.1 p
  let held := s.fld ⟨.coreDbg, p.ix⟩ Reg.GVI_LOAD 0 16
  let same := if p.kind = .coreCtl then is.find? fun i => s.imgTarget i.1 % 2 ^ 16 == held else none
  same.orElse fun _ => is.head?

/-- Does the part hold an image window or page? -/
def Page.takesImage (p : Page) : Bool :=
  match p.kind with
  | .framer | .dmaUnit => true
  | k => (kindCls k).isSome

/-- The image numbers that a core load lists: the linked set's layout is not in the manual (R565; log entry 43). -/
def loadImages (body : List Byte) : List Nat := (Config.loadImages body).take 8

/-- GVI_LOAD and GVI_IMAGES take a load (R585). -/
def State.setLoad (s : State) (k load : Nat) (images : List Nat) : State :=
  let p : Page := ⟨.coreDbg, k⟩
  let s := s.setReg p Reg.GVI_LOAD (w32 (load % 2 ^ 16 + images.length % 16 * 2 ^ 16 + 2 ^ 20))
  (List.range 4).foldl
    (fun s j => s.setReg p (Reg.GVI_IMAGES + 4 * j)
      (w32 (images.getD (2 * j) 0 % 4096 + images.getD (2 * j + 1) 0 % 4096 * 2 ^ 16))) s

/-- A verified body is written into a part and committed: VALID, and PG_VER.IMAGE (R566). -/
def State.loadPart (s : State) (p : Page) (a : Nat) : State :=
  let body := s.imgBody a
  let s := s.setFld p.home Reg.PG_VER 16 16 (s.imgVersion a)
  match p.kind with
  | .coreCtl =>
    let s := s.setCore p.ix { s.core p.ix with imem := memPuts [] 0 (body.take 0x10000) }
    s.setLoad p.ix (s.imgTarget a) (loadImages body)
  | _ =>
    let s := { s with imgs := insertKey p.addr (memPuts [] 0 body) s.imgs }
    s.setReg p Reg.IMG_CMD (w32 0x10)

/-- Has a part a valid image? -/
def State.imageValid (s : State) (p : Page) : Bool :=
  match p.kind with
  | .coreCtl => s.fld ⟨.coreDbg, p.ix⟩ Reg.GVI_LOAD 20 1 == 1
  | _ => s.fld p Reg.IMG_CMD 4 1 == 1

/-- Ward loads a part from a slot under R551 and R566; false where the slot has no accepted image for it. -/
def State.wardLoad (s : State) (slot : Nat) (p : Page) : State × Bool :=
  match s.imageFor slot p with
  | none => (s, false)
  | some (a, n) => if s.imageOk a n then (s.loadPart p a, true) else (s, false)

/-! ### Lane tables -/

/-- The lane table of the device's board among the booted slot's images (R419, R554). -/
def State.boardTable (s : State) : Option (List (List Word)) :=
  let slot := s.fld pgWard Reg.WRD_BOOT 0 1
  let ts := (s.slotImages slot).filterMap fun i =>
    if s.imgType i.1 = 5 ∧ s.imageOk i.1 i.2 then laneTable (s.imgBody i.1) else none
  (ts.find? fun t => t.1 == (s.reg pgWard Reg.WRD_BOARD_ID).toNat).map (·.2)

/-- The entry of a lane table for a lane at the rate and setting its LN_CFG names (R418, R419). -/
def State.laneEntry (s : State) (t : List (List Word)) (l : Nat) : Option (List Word) :=
  let p := pgLane l
  t.find? fun e => wfld e 0 0 6 == l && wfld e 0 8 4 == s.fld p Reg.LN_CFG 0 4 && wfld e 0 12 1 == s.fld p Reg.LN_CFG 5 1

/-- An entry is written into the lane's RWL registers (R418, R419, R436). -/
def State.loadLane (s : State) (l : Nat) (e : List Word) : State :=
  let p := pgLane l
  let s := s.setFld p Reg.LN_CFG 6 6 (wfld e 2 16 6)
  let s := s.setReg p Reg.LN_TXEQ (e.getD 1 0)
  let s := s.setReg p Reg.LN_RXEQ (w32 (wfld e 2 0 16))
  let s := ((s.setReg p Reg.LN_RXFFE0 (e.getD 3 0)).setReg p Reg.LN_RXFFE1 (e.getD 4 0)).setReg p Reg.LN_RXFFE2 (e.getD 5 0)
  s.setLane l { s.laneSt l with eyeMin := wfld e 6 0 16 }

/-- A failure that Ward reports (R419, R433): an entry of its fault log. -/
def State.wardReport (s : State) (p : Page) (reason detail : Nat) : State :=
  { s with faultLog := s.faultLog ++ [⟨s.airtime, p.addr, reason, detail, true⟩] }

/-- Ward loads the entries of a lane group's lanes during its RISE (R419); with no table of the board it reports the failure. -/
def State.loadLaneGroup (s : State) (o : Nat) : State :=
  match s.boardTable with
  | none => s.wardReport (pgLng o) rsImage 0
  | some t =>
    let s := s.setReg (pgLng o) Reg.LNG_TABLE_ID (s.reg pgWard Reg.WRD_BOARD_ID)
    (List.range 8).foldl
      (fun s j =>
        let l := 8 * o + j
        match s.laneEntry t l with
        | some e => if s.part (pgLane l) = stDown ∨ s.part (pgLane l) = stTending then s.loadLane l e else s
        | none => s)
      s

/-- Has the lane an entry in the table of the board (R419)? -/
def State.laneHasEntry (s : State) (l : Nat) : Bool :=
  match s.boardTable with
  | some t => (s.laneEntry t l).isSome
  | none => false

end Sys2Proof.Machine
end

