-- ==== Sys2Proof/Machine/Mem.lean ====
section
/-!
DEFINITION. Sys2Proof/Machine/Mem.lean: what the memories do for themselves (R372, R376 to R381), the loss and retirement of
pseudo-channels and deep-buffer banks (R388 to R391), and the host's accesses through BAR2 (R488, R489).
-/
namespace Sys2Proof.Machine

/-! ### Memory parts -/

/-- KIND of MEM_BK_IDENT (R393). -/
def memKind : PageKind → Option Nat
  | .dbBank => some 0
  | .hbmPc => some 1
  | .clod => some 2
  | _ => none

def pgPc (p : Nat) : Page := ⟨.hbmPc, p⟩

/-- The memory part at a page offset. -/
def memPart (pg : Nat) : Option (Page × Nat) :=
  match pageAt pg with
  | some p => (memKind p.kind).map fun k => (p, k)
  | none => none

/-- Spare rows of a part: 2 % of its rows (R368). -/
def spareRows (kind : Nat) : Nat := Config.memRows kind * 2 / 100

/-- Locations that the scrub reads in a part (R381): 64-byte lines, or bytes of the clod memory and of its cores' data and
instruction memories. -/
def scrubSize (kind : Nat) : Nat :=
  match kind with
  | 0 => 0x300000 / 64
  | 1 => pcCap / 64
  | _ => 0x400000 + 17 * 0x40000 + 17 * 0x10000

/-- Device address of a location of a part; the reserves, the unmapped top and instruction memories have none. -/
def State.scrubAddr (s : State) (p : Page) (kind i : Nat) : Option Nat :=
  match kind with
  | 0 => some (deepBase + p.ix * 0x300000 + 64 * i)
  | 1 =>
    let x := 64 * i
    if x < s.intl then some (hbmBase + 4096 * (128 * (x / 4096) + p.ix) + x % 4096)
    else if x < s.intl + s.mir then
      let y := x - s.intl
      some (hbmBase + 128 * s.intl + 4096 * (64 * (y / 4096) + p.ix % 64) + y % 4096)
    else
      let L := pcCap - s.intl - s.mir
      let y := x - s.intl - s.mir
      if y < L - s.reloc then some (hbmBase + 128 * s.intl + 64 * s.mir + p.ix * L + y) else none
  | _ =>
    if i < 0x400000 then some (clodMemBase + p.ix * 0x400000 + i)
    else if i < 0x400000 + 17 * 0x40000 then some (coreMemBase + 17 * p.ix * 0x40000 + (i - 0x400000))
    else none

/-- A list kept per key. -/
def pushAt {α : Type} (k : Nat) (v : α) (l : List (Nat × List α)) : List (Nat × List α) :=
  insertKey k (lookupD [] k l ++ [v]) l

/-- A read corrects an error of a part in one symbol or byte (R376, R377, R379): the tallies, the row and the pin. -/
def State.corrected (s : State) (p : Page) (kind a sym : Nat) : State :=
  let s := (s.count pgMem Reg.MEM_TALLY_CORR 1).count p Reg.MEM_BK_TALLY_CORR 1
  let m := { s.mem with rowHits := pushAt p.addr (Config.memRow kind a, s.airtime) s.mem.rowHits }
  { s with mem := if kind = 1 then { m with pinHits := pushAt p.addr (sym, s.airtime) m.pinHits } else m }

/-! ### Reserves of the pseudo-channels -/

/-- Pseudo-channels in service (R390, R391). -/
def State.pcInService (s : State) (p : Nat) : Bool :=
  let st := s.part (pgPc p)
  st != stFaulted && st != stRetired && st != stAbsent

/-- Free blocks in the reserve of a pseudo-channel (R391). -/
def State.reserveFree (s : State) (p : Nat) : Nat := s.reloc / 4096 - lookupD 0 p s.mem.resUsed

/-- MEM_RELOC (R392): blocks free over the reserves of channels in service, and channels retired or lost. -/
def State.relocWord (s : State) : Word :=
  let up := (List.range 128).filter s.pcInService
  w32 ((up.foldl (fun a p => a + s.reserveFree p) 0) % 2 ^ 18 + (128 - up.length) * 2 ^ 18)

/-- Blocks of a pseudo-channel that are relocated when it goes: its interleaved and its mirrored ones (R390). -/
def State.pcBlocks (s : State) : Nat := (s.intl + s.mir) / 4096

/-- The channel whose reserve holds block `j` of a moved pseudo-channel (R391). -/
def State.blockHost (s : State) (q j : Nat) : Option Nat :=
  if s.mem.lostBlks.contains (q * 2 ^ 20 + j) then none
  else match lookup? (q * 2 ^ 20 + j) s.mem.rehost with
    | some h => some h
    | none =>
      let cs := lookupD [] q s.mem.movedTo
      if cs.isEmpty then none else cs[j % cs.length]?

/-- Blocks of other channels that have been relocated into `p`. -/
def State.guests (s : State) (p : Nat) : List Nat :=
  s.mem.movedTo.flatMap fun qc =>
    ((List.range s.pcBlocks).filter fun j => s.blockHost qc.1 j == some p).map fun j => qc.1 * 2 ^ 20 + j

/-- The channels that take the blocks of `p`, if their reserves have room for an even share each (R391). -/
def State.roomFor (s : State) (p : Nat) : Option (List Nat) :=
  let cs := (List.range 128).filter fun c => c != p && s.pcInService c
  let need := s.pcBlocks + (s.guests p).length
  let share := if cs.isEmpty then 0 else (need + cs.length - 1) / cs.length
  if cs.isEmpty || cs.any fun c => decide (s.reserveFree c < share) then none else some cs

/-- The blocks of `p`, and those relocated into it, take their places in the reserves of other channels. -/
def State.relocate (s : State) (p : Nat) (cs : List Nat) : State :=
  let guests := s.guests p
  let n := s.pcBlocks
  let host (i : Nat) : Nat := cs.getD (i % cs.length) 0
  let need := n + guests.length
  let used := cs.foldl
    (fun u c =>
      let i := (cs.takeWhile (· != c)).length
      insertKey c (lookupD 0 c u + need / cs.length + bit (decide (i < need % cs.length))) u)
    s.mem.resUsed
  let re := (List.range guests.length).foldl (fun r i => insertKey (guests.getD i 0) (host (n + i)) r) s.mem.rehost
  { s with mem := { s.mem with
      movedTo := insertKey p cs s.mem.movedTo
      rehost := re
      resUsed := eraseKey p used
      moved := insertNat p s.mem.moved } }

/-- Is a block one of the interleaved ones of its channel? -/
def State.interleavedBlk (s : State) (k : Nat) : Bool := decide (k % 2 ^ 20 < s.intl / 4096)

/-- The mirrored lines with a copy in `p` take the marks of their other copy (R388 step 7). -/
def State.mirrorCopy (s : State) (p : Nat) : State :=
  let mine (a : Nat) : Bool := match s.region a with
    | .hbmMir x y => x == p || y == p
    | _ => false
  let m := s.mem
  if p < 64 then
    { s with mem := { m with poison := (m.poison2.filter mine).foldl (fun l a => insertNat a l) (m.poison.filter fun a => !mine a) } }
  else
    { s with mem := { m with poison2 := (m.poison.filter mine).foldl (fun l a => insertNat a l) (m.poison2.filter fun a => !mine a) } }

/-- Do the QCBs or the HARQ directory lie in a mirrored line at `a` (R579)? QCBs lie in the mirrored window (R366). -/
def State.keyLine (s : State) (a : Nat) : Bool :=
  let h := s.reg64 pgHqd Reg.HQD_BASE_LO
  decide (h ≤ a + 63) && decide (a < h + 64 * 65536)

/-- The loss of a pseudo-channel beside its page (R388 steps 3 and 7, R391): its interleaved blocks move to the reserves
filled with POISON, or stay lost; blocks that had moved into it are lost or move again. Both copies of mirrored blocks gone
where the HARQ directory lies: SAFE (R579). -/
def State.pcLoss (s : State) (p : Nat) : State :=
  let guests := s.guests p
  let gi := guests.filter s.interleavedBlk
  let s := match s.roomFor p with
    | some cs =>
      let s := s.relocate p cs
      { s with mem := { s.mem with
          wiped := insertNat p s.mem.wiped
          mended := s.mem.mended.filter fun a => s.region a != .hbmIntl p
          wipedBlks := gi.foldl (fun l b => insertNat b l) s.mem.wipedBlks } }
    | none =>
      { s with mem := { s.mem with
          lost := insertNat p s.mem.lost
          lostBlks := guests.foldl (fun l b => insertNat b l) s.mem.lostBlks } }
  let twin := if p < 64 then p + 64 else p - 64
  let gone := !(s.serving (pgPc twin)) && !(s.mem.rebuilt.contains twin)
  let h := s.reg64 pgHqd Reg.HQD_BASE_LO
  let inMir : Bool := match s.region h with
    | .hbmMir _ _ => true
    | _ => false
  if gone ∧ inMir then s.enterSafe rsUncorrectable p else s

/-- The mirror copies held in a lost channel are rebuilt in the reserves (R388 step 7). -/
def State.pcRebuild (s : State) (p : Nat) : State :=
  if s.mem.moved.contains p ∧ !s.mem.rebuilt.contains p then
    let s := s.mirrorCopy p
    { s with mem := { s.mem with rebuilt := insertNat p s.mem.rebuilt } }
  else s

/-- A memory part becomes FAULTED (R388): its page, its report, and the steps for a pseudo-channel. -/
def State.memLoss (s : State) (p : Page) (reason detail : Nat) : State :=
  let st := s.part p
  if st = stAbsent ∨ st = stRetired then s
  else
    let s := s.faultHead p reason detail true
    if p.kind = .hbmPc ∧ st ≠ stFaulted then s.pcLoss p.ix else s

/-- CHANNEL_LOSS (R388): the fault of a pseudo-channel, or step 7 of one lost before. -/
def execChannelLoss (p reason detail : Nat) (rebuild : Bool) (s : State) : Host.Outcome State Fault Refusal :=
  if p ≥ 128 ∨ !s.pins.on then .next s
  else
    let s := if s.part (pgPc p) = stFaulted then s else s.memLoss (pgPc p) reason detail
    .next (if rebuild && s.part (pgPc p) == stFaulted then s.pcRebuild p else s).trimUpdate

/-- BANK_LOSS (R388): the fault of a deep-buffer bank. -/
def execBankLoss (b reason detail : Nat) (s : State) : Host.Outcome State Fault Refusal :=
  if b ≥ 32 ∨ !s.pins.on then .next s else .next (s.memLoss ⟨.dbBank, b⟩ reason detail).trimUpdate

/-! ### Uncorrectable locations -/

/-- 16 uncorrectable lines of a line-memory part within 1 ms make it FAULTED (R388). -/
def State.countUnc (s : State) (p : Page) : State :=
  let ts := (lookupD [] p.addr s.mem.uncHits ++ [s.airtime]).filter fun t => decide (s.airtime < t + 1966080)
  let s := { s with mem := { s.mem with uncHits := insertKey p.addr ts s.mem.uncHits } }
  if ts.length ≥ 16 ∧ p.kind ≠ .clod then s.memLoss p rsUncorrectable 0 else s

/-- A copy of a location is marked POISON: the first, or the secondary of a mirrored line. -/
def State.markCopy (s : State) (a : Nat) (second : Bool) : State :=
  match s.region a with
  | .hbmMir _ _ =>
    let l := lineOf a
    { s with mem := if second then { s.mem with poison2 := insertNat l s.mem.poison2 }
                    else { s.mem with poison := insertNat l s.mem.poison } }
  | _ => s.mark a true

/-- A location, or one copy of a mirrored line, is found uncorrectable (R372): POISON is written, tallied and reported; one
that held POISON already is not. Both copies of a key line lost: SAFE (R579). -/
def State.uncorrectable (s : State) (a requester : Nat) (second : Bool) : State :=
  match s.region a with
  | .unmapped => s
  | .regs => s
  | .host _ => s
  | r =>
    if s.serve a != .yes then s
    else
      let mir : Option (Nat × Nat) := match r with
        | .hbmMir p q => some (p, q)
        | _ => none
      let page : Option Page := match mir with
        | some (_, q) => if second then some (pgPc q) else r.page
        | none => r.page
      let was := if second && mir.isSome then s.bad2 a else s.bad1 a
      let other := match mir with
        | some (p, q) => if second then s.mirServes p a && !s.bad1 a else s.mirServes q a && !s.bad2 a
        | none => false
      let s := if other then s else s.noteBad a requester was
      if was then s
      else
        let s := s.markCopy a second
        let s := s.count pgMem Reg.MEM_TALLY_UNCORR 1
        match page with
        | none => s
        | some p =>
          let s := (s.count p Reg.MEM_BK_TALLY_UNCORR 1).hardpan p rsUncorrectable (a / 64)
          let s := s.countUnc p
          if mir.isSome && !other && s.keyLine (lineOf a) then s.enterSafe rsUncorrectable 0 else s

/-- POISON_WRITE (R372): a read that a requester of this code (R392) makes finds the location uncorrectable. -/
def execPoisonWrite (addr requester : Nat) (second : Bool) (s : State) : Host.Outcome State Fault Refusal :=
  .next (s.uncorrectable addr (requester % 16) second)

/-! ### Scrub and corrections -/

/-- Is a part's array powered and read by the scrub (R381, R516)? -/
def State.scrubbed (s : State) (p : Page) : Bool :=
  let st := s.part p
  s.pins.on && s.mode != modeRest && s.mode != modeSafe && st != stAbsent && st != stRetained && st != stFaulted &&
    st != stRetired && s.fld pgMem Reg.MEM_SCRUB_CTRL 0 1 == 1

/-- SCRUB (R381): the next location of a part is read; `found` 0 nothing, 1 an error that is corrected and will be written
back, otherwise uncorrectable. -/
def execScrub (pg found sym : Nat) (s : State) : Host.Outcome State Fault Refusal :=
  match memPart pg with
  | none => .next s
  | some (p, kind) =>
    if !s.scrubbed p then .next s
    else
      let i := lookupD 0 p.addr s.mem.scrubAt
      let a := s.scrubAddr p kind i
      let s := match a with
        | none =>
          if found = 0 then s
          else if found = 1 then s.corrected p kind (2 ^ 48 + i) sym
          else ((s.count pgMem Reg.MEM_TALLY_UNCORR 1).count p Reg.MEM_BK_TALLY_UNCORR 1).hardpan p rsUncorrectable i
        | some a =>
          let second := kind == 1 && decide (64 ≤ p.ix) && (match s.region a with
            | .hbmMir _ _ => true
            | _ => false)
          if if second then s.bad2 a else s.bad1 a then (if s.readsBad a then s.noteBad a 5 true else s)
          else if found = 0 then s
          else if found = 1 then
            let s := s.corrected p kind a sym
            { s with mem := { s.mem with wb := s.mem.wb ++ [a] } }
          else s.uncorrectable a 5 second
      let n := (i + 1) % scrubSize kind
      let m := { s.mem with scrubAt := insertKey p.addr n s.mem.scrubAt }
      .next { s with mem := if n = 0 then { m with scrubDone := insertKey p.addr s.airtime m.scrubDone } else m }

/-- MEM_BK_SCRUB (R393). -/
def State.scrubWord (s : State) (p : Page) (kind : Nat) : Word :=
  let n := lookupD 0 p.addr s.mem.scrubAt
  let age := (s.airtime - lookupD 0 p.addr s.mem.scrubDone) / (60 * 1966080000)
  w32 (n * 1000 / scrubSize kind + min age 0xFFFF * 2 ^ 16)

/-- CORRECTION_WRITEBACK (R376): a waiting correction is written back; with none waiting at the address, a requester's read
has just corrected symbol `sym` there. What a later write stored is not touched. -/
def execCorrectionWriteback (addr sym : Nat) (s : State) : Host.Outcome State Fault Refusal :=
  if s.mem.wb.contains addr then .next { s with mem := { s.mem with wb := s.mem.wb.erase addr } }
  else
    match (s.region addr).page with
    | none => .next s
    | some p =>
      if s.serve addr == .yes && !s.readsBad addr then .next (s.corrected p ((memKind p.kind).getD 0) addr sym) else .next s

/-! ### Rows and pins -/

/-- A row is retired (R379): a spare takes its place, or none remains. -/
def State.retireRow (s : State) (p : Page) (kind row : Nat) (auto : Bool) : State :=
  let result (s : State) (r : Nat) : State := s.setFld p Reg.MEM_BK_ROW_CMD 2 2 r
  if row ≥ Config.memRows kind then result s 2
  else
    let used := s.fld p Reg.MEM_BK_SPARE 16 16
    let hits := (lookupD [] p.addr s.mem.rowHits).filter fun h => h.1 != row
    let s := { s with mem := { s.mem with rowHits := insertKey p.addr hits s.mem.rowHits } }
    let s := if auto then s.setFld p Reg.MEM_BK_ROW_CMD 8 24 row else s
    if used ≥ spareRows kind then result s 1
    else
      let s := { s with mem := { s.mem with remap := pushAt p.addr row s.mem.remap } }
      result (s.setFld p Reg.MEM_BK_SPARE 16 16 (used + 1)) 0

/-- AUTO_ROW_RETIRE (R379): a row has reached THRESH corrections within WINDOW_H hours. -/
def execAutoRowRetire (pg row : Nat) (s : State) : Host.Outcome State Fault Refusal :=
  match memPart pg with
  | none => .next s
  | some (p, kind) =>
    let w := s.fld pgMem Reg.MEM_RETIRE_CTRL 8 8 * 3600 * 1966080000
    let hits := (lookupD [] p.addr s.mem.rowHits).filter fun h => h.1 == row && decide (s.airtime ≤ h.2 + w)
    if s.serving p && s.fld pgMem Reg.MEM_RETIRE_CTRL 16 1 == 1 &&
        decide (hits.length ≥ s.fld pgMem Reg.MEM_RETIRE_CTRL 0 4) then
      .next (s.retireRow p kind row true)
    else .next s

/-- TEND_ROW (R379, R393): a write of MEM_BK_ROW_CMD with TEND_ROW set and the row in ROW. -/
def State.tendRow (s : State) (p : Page) (kind v : Nat) : State :=
  let s := s.setFld p Reg.MEM_BK_ROW_CMD 8 24 (v / 256 % 2 ^ 24)
  if v % 2 = 1 then s.retireRow p kind (v / 256 % 2 ^ 24) false else s

def execTendRow (by_ : Agent) (pg row : Nat) (s : State) : Host.Outcome State Fault Refusal :=
  match memPart pg with
  | none => .next s
  | some (p, kind) =>
    .next (s.onPage by_ p Reg.MEM_BK_ROW_CMD fun s => s.tendRow p kind (1 + 256 * (row % 2 ^ 24)))

/-- PIN_FAIL (R377): 64 corrections of one symbol position within a second mark its pin; a second pin loses the channel. -/
def execPinFail (p sym : Nat) (s : State) : Host.Outcome State Fault Refusal :=
  if p ≥ 128 ∨ sym ≥ 72 then .next s
  else
    let g := pgPc p
    let hits := (lookupD [] g.addr s.mem.pinHits).filter fun h =>
      h.1 == sym && decide (s.airtime ≤ h.2 + 1966080000)
    let marked := s.fld g Reg.MEM_BK_PIN 7 1 == 1
    if !s.serving g ∨ hits.length < 64 ∨ (marked ∧ s.fld g Reg.MEM_BK_PIN 0 7 = sym) then .next s
    else if marked then .next (s.memLoss g rsUncorrectable sym).trimUpdate
    else .next (s.setReg g Reg.MEM_BK_PIN (w32 (sym + 128)))

/-! ### BAR2 -/

/-- Where a BAR2 offset of a function leads (R488, R489). -/
def State.bar2 (s : State) (f off : Nat) : Option Nat :=
  if f = 0 then
    if off < 0xFC0000000 then some (hbmBase + off)
    else if off < 0xFC6000000 then some (deepBase + (off - 0xFC0000000))
    else none
  else
    let j := off / 0x4000000
    let y := off % 0x4000000
    let p : Page := ⟨.fnPage, f⟩
    let o := Reg.HIF_FN_APT_LO + 16 * j
    if j < 16 ∧ s.fld p (o + 8) 15 1 = 1 ∧ y < s.fld p (o + 8) 0 15 * 4096 then some (s.reg64 p o + y) else none

/-- Does every byte of a BAR2 access lead to storage that serves, in one piece? In REST the memories do not serve (R521). -/
def State.bar2Run (s : State) (f off n : Nat) : Option Nat :=
  if s.mode = modeRest then none
  else match s.bar2 f off, s.bar2 f (off + n - 1) with
  | some a, some b => if n ≠ 0 ∧ b = a + n - 1 ∧ (s.region a).isMem ∧ (s.region b).isMem then some a else none
  | _, _ => none

/-- A completion goes back to the host. -/
def State.complete (s : State) (f status : Nat) (data : List Byte) : State := { s with cpls := s.cpls ++ [⟨f, status, data⟩] }

/-- HOST_BAR2_READ (R378, R383, R488, R489): Unsupported Request where nothing serves; a poisoned completion of 0xFF bytes. -/
def execHostBar2Read (f off len : Nat) (s : State) : Host.Outcome State Fault Refusal :=
  if f ≥ 64 ∨ len = 0 ∨ len > 4096 ∨ s.linkDown then .next s
  else if !s.hostUp ∨ !s.fnUp f then .next (s.complete f cplUr [])
  else
    match s.bar2Run f off len with
    | none => .next (s.complete f cplUr [])
    | some a =>
      match s.fetch a len with
      | (s', .ok bs) => .next (s'.complete f cplOk bs)
      | (s', .poison b) => .next ((s'.noteBad b 4 true).complete f cplPoison (List.replicate len 0xFF))
      | (s', .access) => .next (s'.complete f cplUr [])

/-- HOST_BAR2_WRITE (R488, R489): a posted write; what leads nowhere is discarded, and the PF's is tallied. -/
def execHostBar2Write (f off : Nat) (data : List Byte) (s : State) : Host.Outcome State Fault Refusal :=
  if f ≥ 64 ∨ data.isEmpty ∨ data.length > 512 ∨ !s.hostUp ∨ !s.fnUp f ∨ s.linkDown then .next s
  else
    let drop (s : State) : State := if f = 0 then s.count pgHif Reg.HIF_TALLY_ACCERR 1 else s
    match s.bar2Run f off data.length with
    | none => .next (drop s)
    | some a =>
      let w := s.write a data
      .next (if w.2 == .access && (linesOf a data.length).any fun l => s.serve l == .no then drop w.1 else w.1)

end Sys2Proof.Machine
end

