-- ==== Sys2Proof/Machine/Rings.lean ====
section
/-!
DEFINITION. Sys2Proof/Machine/Rings.lean: the data and control rings (R334 to R361): which ring a flit takes, what targets do with
writes and reads, how responses, credits and aborts end, the failure of a segment, and the probes.
-/
namespace Sys2Proof.Machine

def pgStop (p : Nat) : Page := ⟨.stop, p⟩
def pgProbe (n : Nat) : Page := ⟨.probe, n⟩

/-! ### Routes -/

/-- Hops going up from `a` to `b`. -/
def upHops (a b : Nat) : Nat := (b + 86 - a) % 86

/-- Does a flit from `a` to `b` take an ascending ring (R337)? -/
def ascends (a b : Nat) : Bool := decide (upHops a b ≤ 43)

/-- RNG_STATE bit of a ring. -/
def State.ringFailed (s : State) (r : Nat) : Bool := s.fld pgRing Reg.RNG_STATE r 1 == 1

/-- The rings that a stream of a class (0 request, 1 response) may be carried on, best first (R337, R350, R351). -/
def ringChoices (cls a b : Nat) : List Nat :=
  let p := (a + b) % 2
  let d := if ascends a b then 0 else 1
  let r (pair dir : Nat) : Nat := 4 * cls + 2 * pair + dir
  [r p d, r p (1 - d), r (1 - p) d, r (1 - p) (1 - d)]

/-- The ring that an ordered stream is pinned to now. -/
def State.ringOf (s : State) (cls a b : Nat) : Option Nat := (ringChoices cls a b).find? fun r => !s.ringFailed r

/-- May a flit take ring `r`: the stream's ring, or for an unordered one either pair's ring of its direction (R339)? -/
def State.mayRide (s : State) (cls a b r : Nat) (unord : Bool) : Bool :=
  s.ringOf cls a b == some r ||
    (unord && !s.ringFailed r && ((ringChoices cls a b)[0]? == some r || (ringChoices cls a b)[2]? == some r))

/-! ### Probes -/

/-- Does a flit of a ring that goes from `a` to `b` pass the point that a probe at stop `p` watches (R356)? -/
def atPoint (ring a b p point : Nat) : Bool :=
  let up := ring % 2 == 0
  let d := if up then upHops a b else upHops b a
  let x := if up then upHops a p else upHops p a
  match point with
  | 0 => decide (x < d)
  | 1 => p == a
  | 2 => p == b
  | _ => false

/-- A record of a matching flit (R357). -/
def probeRecord (s : State) (n ring : Nat) (header : Nat) (payload : List Byte) : List Word :=
  let stop := s.fld (pgProbe n) Reg.PRB_CTRL 5 7
  let hi := s.airtime / 2 ^ 32 % 256 + ring * 2 ^ 8 + stop * 2 ^ 12 + n * 2 ^ 19 + 0xF0 * 2 ^ 24
  [w32 s.airtime, w32 hi] ++ (List.range 4).map (fun i => w32 (header / 2 ^ (32 * i))) ++
    (List.range 2).map fun i => w32 (ofLe ((payload.drop (4 * i)).take 4))

/-- One probe sees a flit (R356): `addr` of a data flit, TYPE, PLEN. -/
def probeOne (ring a b ty : Nat) (addr : Option Nat) (plen header : Nat) (payload : List Byte) (s : State) (n : Nat) : State :=
  let p := pgProbe n
  let stop := s.fld p Reg.PRB_CTRL 5 7
  let m := (s.reg p Reg.PRB_MATCH).toNat
  let base := (s.reg p Reg.PRB_ADDR_BASE).toNat
  let mask := (s.reg p Reg.PRB_ADDR_MASK).toNat
  let addrOk : Bool := match addr with
    | some x => (Nat.xor (x / 2 ^ 16 % 2 ^ 32) base) &&& mask == 0
    | none => true
  if !(s.fld p Reg.PRB_CTRL 0 1 == 1 && decide (stop < 86) && s.fld p Reg.PRB_CTRL (12 + ring) 1 == 1 &&
      atPoint ring a b stop (s.fld p Reg.PRB_CTRL 22 2) && bitOf m ty && (bitOf m 23 || bitsOf m 16 7 == a) &&
      (bitOf m 31 || bitsOf m 24 7 == b) && addrOk) then s
  else
    let s := s.setReg64 p Reg.PRB_FLITS_LO ((s.reg64 p Reg.PRB_FLITS_LO + 1) % 2 ^ 64)
    let s := if addr.isSome then s.setReg64 p Reg.PRB_BYTES_LO ((s.reg64 p Reg.PRB_BYTES_LO + plen) % 2 ^ 64) else s
    if s.fld p Reg.PRB_CTRL 1 1 = 0 then s
    else
      let k := lookupD 0 n s.rings.probed + 1
      let s := { s with rings := { s.rings with probed := insertKey n k s.rings.probed } }
      if k % 2 ^ s.fld p Reg.PRB_CTRL 24 5 ≠ 0 then s
      else
        let w := s.sediment (s.fld p Reg.PRB_CTRL 2 3) (probeRecord s n ring header payload)
        if w.2 then w.1 else w.1.count p Reg.PRB_TALLY_CAPDROP 1

/-- A flit goes from `a` to `b`: it is injected, and every probe on its way may see it. -/
def State.travel (s : State) (ring a b ty : Nat) (addr : Option Nat) (plen header : Nat) (payload : List Byte) : State :=
  let s := s.count (pgStop a) Reg.RNG_TALLY_INJECT 1
  (List.range 32).foldl (probeOne ring a b ty addr plen header payload) s

/-- The header of a data flit (R340), EJECT_NEXT as the source sets it. -/
def dataHeader (ty : Nat) (last unord poison : Bool) (dst src agent tag seq addr plen : Nat) (masked : Bool)
    (len status : Nat) : Nat :=
  let h := ty + bit last * 2 ^ 3 + bit unord * 2 ^ 4 + bit poison * 2 ^ 5 + dst * 2 ^ 8 + src * 2 ^ 15 + agent * 2 ^ 22 +
    bit (hops src dst == 1) * 2 ^ 27 + tag * 2 ^ 28 + seq * 2 ^ 40 + addr % 2 ^ 48 * 2 ^ 48 + plen * 2 ^ 96 +
    bit masked * 2 ^ 104 + len % 4096 * 2 ^ 105 + status * 2 ^ 117
  let ones := (List.range 127).foldl (fun a i => a + bit (bitOf h i)) 0
  h + ones % 2 * 2 ^ 127

def flitHeader (f : Flit) (ty : Nat) : Nat :=
  dataHeader ty f.last f.unord false f.dst f.src f.agent f.tag f.seq f.addr f.data.length f.mask.isSome f.len 0

/-! ### Masters and targets -/

def flitId (f : Flit) : OpId := ⟨f.src, f.agent, f.tag⟩

/-- The stop of the part that holds an address (R335). -/
def State.addrStop (s : State) (a : Nat) : Option Nat :=
  match s.region a with
  | .coreMem k => some (stopCL (k / 17))
  | .clodMem c => some (stopCL c)
  | .deep b => some (stopDB (b / 4))
  | .hbmIntl p => some (stopHB (p / 8))
  | .hbmMir p _ => some (stopHB (p / 8))
  | .hbmLocal p => some (stopHB (p / 8))
  | .host _ => some stopPcie
  | _ => none

/-- A stop whose own logic faulted passes flits through and ejects nothing (R352). -/
def State.passThrough (s : State) (p : Nat) : Bool := s.part (pgStop p) == stFaulted

/-- REQUESTER of MEM_LAST_UNCORR for a reading stop (R392). -/
def stopRequester (p : Nat) : Nat :=
  if p = stopPcie then 4 else if [10, 32, 54, 75].contains p then 3
  else if (List.range 16).any fun c => stopCL c == p then 0 else 2

def State.setRings (s : State) (r : Rings) : State := { s with rings := r }

/-- A response starts back to its master (R340). -/
def State.respond (s : State) (r : Resp) : State := s.setRings { s.rings with resps := s.rings.resps ++ [r] }

/-- An operation comes to its end at its master. -/
def State.opEnds (s : State) (id : OpId) (status : Nat) : State :=
  s.setRings { s.rings with ops := s.rings.ops.map fun o =>
    if o.id = id then { o with status := some (max status (o.status.getD 0)) } else o }

/-- A flit has been written or discarded: its credit waits to go back (R343). -/
def State.creditDue (s : State) (src dst : Nat) : State :=
  let k := 128 * src + dst
  s.setRings { s.rings with owed := insertKey k (lookupD 0 k s.rings.owed + 1) s.rings.owed }

/-- The part of a burst that lies in the line at `l`. -/
def Burst.span (b : Burst) (l : Nat) : Nat × Nat := (max l b.addr, min (l + 64) (b.addr + b.len))

/-- Bytes of a flit that are enabled, with their addresses. -/
def flitBytes (f : Flit) : List (Nat × Byte) :=
  ((List.range f.data.length).filter fun i => match f.mask with
    | some m => bitOf m i
    | none => true).map fun i => (f.addr + i, f.data.getD i 0)

/-- Enabled bytes of one line written at the target: the state, and the status of R340. -/
def State.landLine (s : State) (l : Nat) (bs : List (Nat × Byte)) : State × Nat :=
  if bs.isEmpty then (s, 0)
  else if bs.all fun b => s.serve b.1 == .yes then
    let w := s.writeSome l (bs.map fun b => (b.1 - l, b.2))
    (w.1, bit w.2)
  else (s, 2)

/-- The bytes of a flit join the burst (R341): whole lines and the burst's ends are written, an incomplete line is held. -/
def State.landFlit (s : State) (b : Burst) (f : Flit) : State × Burst :=
  let line := (s.region f.addr).isLine
  let all := if line && f.mask.isNone then b.held ++ flitBytes f else flitBytes f
  let lines := (linesOf f.addr f.data.length ++ b.held.map fun x => lineOf x.1).foldl (fun ls l => insertNat l ls) []
  let step (r : State × Burst) (l : Nat) : State × Burst :=
    let mine := all.filter fun x => lineOf x.1 == l
    let sp := b.span l
    if line ∧ f.mask.isNone ∧ mine.length < sp.2 - sp.1 then (r.1, { r.2 with held := r.2.held ++ mine })
    else
      let w := r.1.landLine l mine
      (w.1, { r.2 with written := r.2.written + mine.length, status := max r.2.status w.2 })
  let r := lines.foldl step (s, { b with held := [] })
  (r.1, { r.2 with seqs := insertNat f.seq r.2.seqs })

/-- Payload words found uncorrectable leave POISON behind (R349, R375). -/
def State.landPoison (s : State) (f : Flit) : State :=
  let line := (s.region f.addr).isLine
  let hit := if line then linesOf f.addr f.data.length
    else f.unc.flatMap fun w => ((List.range 8).filter fun i => decide (8 * w + i < f.data.length)).map fun i =>
      f.addr + 8 * w + i
  match hit with
  | [] => s
  | a :: _ => (hit.foldl (fun s x => if s.serve x == .yes then s.mark x true else s) s).noteBad a 7 false

/-- RNG_LAST_ABORT of a target (R360). -/
def State.lastAbort (s : State) (b : Burst) (seq : Nat) : State :=
  let p := pgStop b.target
  let s := s.setReg p Reg.RNG_LAST_ABORT_LO
    (w32 (b.id.tag + b.id.stop * 2 ^ 12 + b.id.agent * 2 ^ 19 + seq % 256 * 2 ^ 24))
  s.setReg p Reg.RNG_LAST_ABORT_HI (w32 (b.written % 2 ^ 13 + b.held.length % 64 * 2 ^ 13))

/-- Has a burst with these tails been closed by an abort (R353)? -/
def Burst.aborted (b : Burst) : Option Nat :=
  b.tails.find? fun q => (List.range q).all fun i => b.seqs.contains i

/-- A burst closes: acknowledged, aborted, or still open (R342, R353). -/
def State.closeBurst (s : State) (b : Burst) (last : Bool) : State :=
  let rest := s.rings.bursts.filter fun x => !(x.id = b.id ∧ x.target = b.target)
  let ack (st : Nat) : Resp := ⟨3, b.id, b.target, 0, true, st, false, [], b.addr⟩
  match b.aborted with
  | some q => ((s.setRings { s.rings with bursts := rest }).lastAbort b q).respond (ack 3)
  | none =>
    if (if b.unord then b.written ≥ b.len else last) then (s.setRings { s.rings with bursts := rest }).respond (ack b.status)
    else s.setRings { s.rings with bursts := rest ++ [b] }

/-- An operation that a master began with a flit. -/
def State.opBegins (s : State) (f : Flit) (isRead : Bool) : State :=
  let rest := s.rings.ops.filter fun o => o.id ≠ flitId f
  let len := if f.len = 0 then 4096 else f.len
  s.setRings { s.rings with
    ops := rest ++ [⟨flitId f, isRead, f.dst, f.addr, len, none, []⟩]
    dead := s.rings.dead.filter (· ≠ flitId f) }

/-- Is a request flit one that its stop may have injected? -/
def State.flitOk (s : State) (f : Flit) : Bool :=
  decide (f.src < 86) && decide (f.dst < 86) && f.src != f.dst && decide (f.agent < 32) && decide (f.tag < 4096) &&
    decide (f.seq ≤ 32) && decide (f.data.length ≤ 128) && decide (f.len < 4096) && decide (f.ring < 4) &&
    s.mayRide 0 f.src f.dst f.ring f.unord && s.pins.on && s.ready (pgStop f.src) && !s.passThrough f.src

/-- Hop retries and the payload check, at the target (R348, R349). -/
def State.flitChecked (s : State) (at_ hops corr unc : Nat) : State :=
  let s := s.count (pgStop at_) Reg.RNG_TALLY_HOPRETRY hops
  (s.count (pgStop at_) Reg.RNG_TALLY_CORR corr).count (pgStop at_) Reg.RNG_TALLY_UNCORR unc

/-- WRITE (R340 to R343, R348, R349). -/
def execWrite (f : Flit) (s : State) : Host.Outcome State Fault Refusal :=
  let k := 128 * f.src + f.dst
  let open_ := s.rings.bursts.find? fun b => b.id == flitId f && b.target == f.dst
  let fits : Bool := match open_ with
    | none => f.seq == 0
    | some b => !b.seqs.contains f.seq && (b.unord || f.seq == b.seqs.length)
  if !(s.flitOk f && fits && decide (lookupD 0 k s.rings.used < 64)) then .next s
  else
    let s := s.travel f.ring f.src f.dst 0 (some f.addr) f.data.length (flitHeader f 0) f.data
    let s := s.setRings { s.rings with used := insertKey k (lookupD 0 k s.rings.used + 1) s.rings.used }
    let s := s.flitChecked f.dst f.hops f.corr f.unc.length
    let s := if f.seq = 0 then s.opBegins f false else s
    let len := if f.len = 0 then 4096 else f.len
    let b : Burst := open_.getD ⟨flitId f, f.dst, f.addr, len, f.unord, [], 0, [], 0, []⟩
    let r := if s.passThrough f.dst ∨ s.addrStop f.addr ≠ some f.dst then
        (s, { b with seqs := insertNat f.seq b.seqs, written := b.written + f.data.length, status := max b.status 2 })
      else
        let r := s.landFlit b f
        if f.unc.isEmpty then r else (r.1.landPoison f, { r.2 with status := max r.2.status 1 })
    .next ((r.1.creditDue f.src f.dst).closeBurst r.2 f.last)

/-- READ_REQ (R343, R349, R378): the target returns its data in address order, poisoned flits marked. -/
def execReadReq (f : Flit) (s : State) : Host.Outcome State Fault Refusal :=
  if !(s.flitOk f && f.data.isEmpty) then .next s
  else
    let s := s.travel f.ring f.src f.dst 1 (some f.addr) 0 (flitHeader f 1) []
    let s := (s.flitChecked f.dst f.hops 0 0).opBegins f true
    let len := if f.len = 0 then 4096 else f.len
    let err := s.respond ⟨5, flitId f, f.dst, 0, true, 2, false, [], f.addr⟩
    if s.passThrough f.dst ∨ s.addrStop f.addr ≠ some f.dst ∨ s.addrStop (f.addr + len - 1) ≠ some f.dst then .next err
    else if (linesOf f.addr len).any fun l => s.serve l == .no then .next err
    else
      let n := (len + 127) / 128
      .next ((List.range n).foldl
        (fun s i =>
          let a := f.addr + 128 * i
          let m := min 128 (len - 128 * i)
          match s.fetch a m with
          | (s', .ok bs) => s'.respond ⟨2, flitId f, f.dst, i, i + 1 == n, 0, false, bs, a⟩
          | (s', .poison b) =>
            (s'.noteBad b (stopRequester f.src) true).respond
              ⟨2, flitId f, f.dst, i, i + 1 == n, 1, true, List.replicate m 0, a⟩
          | (s', .access) => s'.respond ⟨5, flitId f, f.dst, i, i + 1 == n, 2, false, [], a⟩)
        s)

/-! ### Responses -/

/-- A response leaves the list: it must be the oldest of its stream (R338). -/
def State.takeResp (s : State) (n kind : Nat) : Option (Resp × State) :=
  match s.rings.resps[n]? with
  | none => none
  | some r =>
    let ahead := (s.rings.resps.take n).any fun x => x.src == r.src && x.id.stop == r.id.stop
    match s.ringOf 1 r.src r.id.stop with
    | none => none
    | some ring =>
      if r.kind ≠ kind ∨ ahead then none
      else
        let s := s.setRings { s.rings with resps := s.rings.resps.eraseIdx n }
        let h := dataHeader kind r.last false r.poison r.id.stop r.src r.id.agent r.id.tag r.seq r.addr r.data.length false 0
          r.status
        some (r, s.travel ring r.src r.id.stop kind (some r.addr) r.data.length h r.data)

/-- A response for a master that was reset is absorbed at its stop (R353). -/
def State.absorbs (s : State) (r : Resp) : Bool := s.rings.dead.contains r.id

/-- READ_DATA (R349): data, checked, reaches its master; POISON is kept with the operation. -/
def execReadData (n hops corr unc : Nat) (s : State) : Host.Outcome State Fault Refusal :=
  match s.takeResp n 2 with
  | none => .next s
  | some (r, s) =>
    let s := s.flitChecked r.id.stop hops corr unc
    if s.absorbs r then .next (s.count (pgStop r.id.stop) Reg.RNG_TALLY_ABSORB 1)
    else
      let st := if r.poison ∨ unc > 0 then 1 else r.status
      let s := s.setRings { s.rings with ops := s.rings.ops.map fun o =>
        if o.id = r.id then { o with data := o.data ++ r.data } else o }
      let s := if st = 0 then s else s.opEnds r.id st
      .next (if r.last then s.opEnds r.id st else s)

/-- WRITE_ACK (R342): the write is complete at its master with the acknowledge's STATUS. -/
def execWriteAck (n : Nat) (s : State) : Host.Outcome State Fault Refusal :=
  match s.takeResp n 3 with
  | none => .next s
  | some (r, s) =>
    if s.absorbs r then .next (s.count (pgStop r.id.stop) Reg.RNG_TALLY_ABSORB 1) else .next (s.opEnds r.id r.status)

/-- ERROR (R340). -/
def execError (n : Nat) (s : State) : Host.Outcome State Fault Refusal :=
  match s.takeResp n 5 with
  | none => .next s
  | some (r, s) =>
    if s.absorbs r then .next (s.count (pgStop r.id.stop) Reg.RNG_TALLY_ABSORB 1) else .next (s.opEnds r.id r.status)

/-- CREDIT (R343): `n` write credits go back from target `dst` to source `src`. -/
def execCredit (src dst n : Nat) (s : State) : Host.Outcome State Fault Refusal :=
  let k := 128 * src + dst
  let due := lookupD 0 k s.rings.owed
  match s.ringOf 1 dst src with
  | none => .next s
  | some ring =>
    if src ≥ 86 ∨ dst ≥ 86 ∨ n = 0 ∨ n > due then .next s
    else
      let s := s.travel ring dst src 6 (some 0) n (dataHeader 6 true false false src dst 0 0 0 0 n false 0 0) []
      .next (s.setRings { s.rings with
        owed := insertKey k (due - n) s.rings.owed
        used := insertKey k (lookupD 0 k s.rings.used - n) s.rings.used })

/-! ### Masters that are reset -/

/-- The operations of a master become nobody's: their responses are absorbed (R353). -/
def State.deadOps (s : State) (f : OpId → Bool) : State :=
  let ids := (s.rings.ops.filter fun o => f o.id && o.status.isNone).map (·.id)
  s.setRings { s.rings with
    dead := s.rings.dead ++ ids.filter fun i => !s.rings.dead.contains i
    ops := s.rings.ops.filter fun o => !f o.id }

/-- A tail reaches a target (R353). -/
def State.tailAt (s : State) (b : Burst) (seq : Nat) : State :=
  let b := { b with tails := b.tails ++ [seq] }
  let s := s.count (pgStop b.id.stop) Reg.RNG_TALLY_ABORT_TX 1
  (s.count (pgStop b.target) Reg.RNG_TALLY_ABORT_RX 1).closeBurst b false

/-- ABORT_TAIL (R353): the reset master's stop sends a tail behind the burst's last flit. -/
def execAbortTail (ring src agent dst tag seq : Nat) (s : State) : Host.Outcome State Fault Refusal :=
  let id : OpId := ⟨src, agent, tag⟩
  match s.rings.bursts.find? fun b => b.id == id && b.target == dst with
  | none => .next s
  | some b =>
    if !(s.mayRide 0 src dst ring b.unord) ∨ ring ≥ 4 ∨ seq > 32 then .next s
    else
      let s := s.travel ring src dst 4 (some b.addr) 0 (dataHeader 4 true b.unord false dst src agent tag seq b.addr 0 false 0 0) []
      .next ((s.deadOps (· == id)).tailAt b seq)

/-- Every burst that a set of masters has open is cut off where it stands, and their operations are dropped (R353). -/
def State.resetMasters (s : State) (f : OpId → Bool) : State :=
  let bs := s.rings.bursts.filter fun b => f b.id
  bs.foldl (fun s b => s.tailAt b b.seqs.length) (s.deadOps f)

/-- LINK_RESET (R353): a PCIe link reset or link-down resets the masters of the PCIe stop. -/
def execLinkReset (s : State) : Host.Outcome State Fault Refusal :=
  .next (s.resetMasters fun i => i.stop == stopPcie)

/-! ### Control packets -/

/-- NAK (R347): a destination discards a control packet with a CRC mismatch; a third failure is a fault of the path. -/
def execNak (src agent dst seq : Nat) (s : State) : Host.Outcome State Fault Refusal :=
  if src ≥ 86 ∨ dst ≥ 86 ∨ agent ≥ 32 ∨ seq ≥ 4096 ∨ !s.pins.on then .next s
  else
    let k := (src * 32 + agent) * 4096 + seq
    let n := lookupD 0 k s.rings.crcFails + 1
    let s := s.count (pgStop dst) Reg.RNG_TALLY_CRCNAK 1
    let s := s.setRings { s.rings with crcFails := insertKey k n s.rings.crcFails }
    .next (if n = 3 then s.hardpan (pgStop dst) rsRing (src + 128 * agent) else s)

/-! ### Segments -/

/-- A lost operation completes with RING_FAULT (R350). -/
def State.opLost (s : State) (id : OpId) : State :=
  let s := s.setRings { s.rings with
    bursts := s.rings.bursts.filter fun b => b.id ≠ id
    resps := s.rings.resps.filter fun r => r.id ≠ id }
  (s.opEnds id 4).count pgRing Reg.RNG_TALLY_LOSTOP 1

/-- A command leaves its window to run once more on another instance, or completes with ACCESS (R577). -/
def State.abandonCmd (s : State) (it : Item) (cls i : Nat) : State :=
  if (s.itemCtxId it).isSome then s.engEnd it cls i csCtxLost
  else if it.rerun then s.engEnd it cls i csAccess
  else
    let s := s.setWindow cls i ((s.window cls i).filter (· != it.sn))
    let s := { s with fdcJobs := s.fdcJobs.filter fun j => j.sn != it.sn }
    s.updItem it.sn fun j => { j with phase := .abandoned, avoid := j.exec, rerun := true, started := false, runTc := 0 }

/-- The attempt that an operation belonged to is abandoned (R350, R577). -/
def State.loseItem (s : State) (sn : Nat) : State :=
  match s.item? sn with
  | none => s
  | some it =>
    if it.phase != .dispatched then s
    else match it.exec with
      | some (.core k) => (coreTerminal s k 0x22 0).abandonTask it false
      | some (.engine cls i) => s.abandonCmd it cls i
      | _ => s

/-- Can no ring of a class carry its streams any more (R351)? -/
def State.classDead (s : State) : Bool :=
  [[0, 1, 2, 3], [4, 5, 6, 7], [8, 9]].any fun rs => rs.all s.ringFailed

/-- SEGMENT_FAIL (R350, R351): the segment of ring 0 to 7 (D), 8 and 9 (C), 10 and 11 (M) that leaves `stop`; operations
whose flits were lost, and the tasks and commands they belonged to. -/
def execSegmentFail (ring stop : Nat) (lost : List (Nat × Nat × Nat)) (items : List Nat) (s : State) :
    Host.Outcome State Fault Refusal :=
  if ring ≥ 12 ∨ stop ≥ 86 ∨ !s.pins.on ∨ s.ringFailed ring then .next s
  else
    let s := s.setFld pgRing Reg.RNG_STATE ring 1 1
    let s := s.setReg pgRing (Reg.RNG_FAIL_SEG + 4 * ring) (w32 (stop + 128))
    let s := (s.count pgRing Reg.RNG_TALLY_SEGFAIL 1).hardpan (pgStop stop) rsRing ring
    let s := lost.foldl (fun s x => s.opLost ⟨x.1, x.2.1, x.2.2⟩) s
    let s := items.foldl State.loseItem s
    .next (if s.classDead then s.enterSafe rsRing ring else s)

/-- PRB_CTRL (R361): EN going from 0 to 1 clears the counts. -/
def State.probeCtrl (s : State) (a : Agent) (n v : Nat) : State :=
  let p := pgProbe n
  let was := s.fld p Reg.PRB_CTRL 0 1
  let s := s.plainWrite a p Reg.PRB_CTRL v false
  if was = 0 ∧ s.fld p Reg.PRB_CTRL 0 1 = 1 then
    let s := (s.setReg64 p Reg.PRB_FLITS_LO 0).setReg64 p Reg.PRB_BYTES_LO 0
    s.setRings { s.rings with probed := eraseKey n s.rings.probed }
  else s

def execPrbCtrl (by_ : Agent) (n : Nat) (v : Word) (s : State) : Host.Outcome State Fault Refusal :=
  if n ≥ 32 then .next s
  else .next (s.onPage by_ (pgProbe n) Reg.PRB_CTRL fun s => s.probeCtrl by_ n v.toNat)

end Sys2Proof.Machine
end

