-- ==== Sys2Proof/Machine/PartCmds.lean ====
section
/-!
DEFINITION. Sys2Proof/Machine/PartCmds.lean: the commands of PG_CMD (R507, R508, R621, R622), their checks (R395, R411, R412, R437, R516, R525,
R561), what a drain waits for (R326, R390), logical identities and spares (R37, R452, R572), faults of parts (R352,
R575, R579) and what Ward does about them (R567, R573).
-/
namespace Sys2Proof.Machine

/-! ### Identities -/

/-- Width of the LOGICAL field of a part that can hold an identity. -/
def identBits (p : Page) : Option Nat :=
  match p.kind with
  | .framer => some 4
  | k => (kindCls k).map logicalBits

/-- The logical number that a part holds (R37). -/
def State.identity (s : State) (p : Page) : Option Nat :=
  match identBits p with
  | some w => if s.fld p identOff w 1 = 1 then some (s.fld p identOff 0 w) else none
  | none => none

/-- The identity that a part is born with; the spares have none (R37). -/
def bornAs (p : Page) : Option Nat :=
  match p.kind with
  | .coreCtl => if p.ix % 17 < 16 then some (16 * (p.ix / 17) + p.ix % 17) else none
  | .framer => if p.ix < 16 then some p.ix else none
  | k => match kindCls k with
    | some c => if p.ix < classSize c then some p.ix else none
    | none => none

/-- The spare of a part: of its class, for a core of its clod (R572). -/
def spareOf (p : Page) : Option Page :=
  match p.kind with
  | .coreCtl => some ⟨.coreCtl, 17 * (p.ix / 17) + 16⟩
  | .framer => some ⟨.framer, 16⟩
  | k => (kindCls k).bind fun c => if c = 0 then none else some ⟨k, classSize c⟩

def State.setIdentity (s : State) (p : Page) (n : Option Nat) : State :=
  match identBits p with
  | some w => s.setFld p identOff 0 (w + 1) (match n with
    | some n => n % 2 ^ w + 2 ^ w
    | none => 0)
  | none => s

/-- A part that is to rise takes the identity it is born with, unless it holds one (R37). -/
def State.giveIdentity (s : State) (p : Page) : State :=
  match bornAs p, s.identity p with
  | some n, none => s.setIdentity p (some n)
  | _, _ => s

/-- The spare takes a framer's tables, its ring position and its early store; its symbols go on, without the frames and sections
that the failed framer held (R452). -/
def State.framerMoves (s : State) (f g : Nat) : State :=
  let s := (List.range 8).foldl
    (fun s j =>
      let line := 8 * f + j
      let rs := s.lineReqs line
      rs.foldl (fun s r => s.reqFailed line r) (s.setLine line []))
    s
  let x := s.framer f
  let regs := [Reg.FRM_RING_LO, Reg.FRM_RING_HI, Reg.FRM_RING_SIZE, Reg.FRM_EARLY, Reg.FRM_OWD]
  let s := regs.foldl (fun s r => s.setReg (pgFrm g) r (s.reg (pgFrm f) r)) s
  (s.setFramer g { x with staged := (s.framer g).staged, inbox := [] }).setFramer f FramerSt.reset

/-- The spare gets the image of the part it stands in for (R572). -/
def State.imageMoves (s : State) (p q : Page) : State :=
  let s := s.setFld q.home Reg.PG_VER 16 16 (s.fld p.home Reg.PG_VER 16 16)
  match p.kind with
  | .coreCtl =>
    let a : Page := ⟨.coreDbg, p.ix⟩
    let b : Page := ⟨.coreDbg, q.ix⟩
    let s := s.setCore q.ix { s.core q.ix with imem := (s.core p.ix).imem }
    ([Reg.GVI_LOAD] ++ (List.range 4).map fun j => Reg.GVI_IMAGES + 4 * j).foldl (fun s r => s.setReg b r (s.reg a r)) s
  | _ =>
    let s := { s with imgs := insertKey q.addr (lookupD [] p.addr s.imgs) s.imgs }
    s.setReg q Reg.IMG_CMD (s.reg p Reg.IMG_CMD)

/-! ### Prerequisites and checks -/

/-- The ring stop that a part sits at, where it sits at one (R335). -/
def Page.stop (p : Page) : Option Nat :=
  match p.kind with
  | .coreCtl => some (stopCL (p.ix / 17))
  | .clod => some (stopCL p.ix)
  | .hbmPc => some (stopHB (p.ix / 8))
  | .dbBank => some (stopDB (p.ix / 4))
  | .laneGroup => some (stopLG p.ix)
  | .lane => some (stopLG (p.ix / 8))
  | .port => some (stopLG (p.ix / 8))
  | .framer => some (stopLG (if p.ix = 16 then 7 else p.ix / 2))
  | .dmaCh => some (stopDma (p.ix / 16))
  | .dmaUnit => some (stopDma p.ix)
  | .fabric | .tilth | .sediment => some stopFabric
  | k => (kindCls k).map fun c => stopEG (engGroup c p.ix)

/-- Lanes of a port (R437). -/
def State.portLanes (s : State) (n : Nat) : List Nat :=
  let m := s.fld (pgPort n) Reg.PORT_CFG 0 3
  (List.range (if m = 5 ∨ m = 6 then 4 else 1)).map (n + ·)

/-- The ports that a framer serves: those whose PORT_CFG names it (R440). -/
def State.framerPorts (s : State) (f : Nat) : List Nat :=
  (List.range 64).filter fun n => s.fld (pgPort n) Reg.PORT_CFG 0 3 != 0 && s.fld (pgPort n) Reg.PORT_CFG 0 3 != 7 &&
    s.fld (pgPort n) Reg.PORT_CFG 5 4 == f

/-- Are the parts READY that a part needs before it rises (R561)? -/
def State.prereqsOk (s : State) (p : Page) : Bool :=
  (match p.stop with
   | some x => s.ready (pgStop x)
   | none => true) &&
  (match p.kind with
   | .coreCtl => s.ready ⟨.clod, p.ix / 17⟩
   | .lane => s.ready (pgLng (p.ix / 8))
   | .framer => (s.framerPorts ((s.identity p).getD p.ix)).all fun n => s.ready (pgPort n)
   | _ => true)

/-- May a port leave DOWN (R437): its mode, its lanes' rates and schedules, and no other port on its lanes? -/
def State.portCfgOk (s : State) (n : Nat) : Bool :=
  let m := s.fld (pgPort n) Reg.PORT_CFG 0 3
  let ls := s.portLanes n
  let rate (l : Nat) : Nat := s.fld (pgLane l) Reg.LN_CFG 0 4
  let sched (l : Nat) : Nat := s.fld (pgLane l) Reg.LN_CFG 14 2
  let rateOk (l : Nat) : Bool := match m with
    | 1 => rate l == 3 | 2 => rate l == 6 | 3 => rate l == 7 | 4 => rate l == 8 | 5 => rate l == 7 | 6 => rate l == 8
    | 7 => cpriRate (rate l)
    | _ => false
  let fec := s.fld (pgPort n) Reg.PORT_CFG 3 2
  let fecOk := if m = 2 then fec == 0 || fec == 1 else if m = 1 ∨ m = 7 then fec == 0 else true
  let taken := (List.range 64).any fun k => k != n && s.part (pgPort k) != stDown && s.part (pgPort k) != stAbsent &&
    (s.portLanes k).any ls.contains
  (m != 5 && m != 6 || n % 4 == 0) && ls.all rateOk && fecOk && (ls.all fun l => sched l == sched n) && !taken

/-- The checks made when RISE, or RESUME from TENDING or RETAINED, is written: the REASON and DETAIL of a refusal. -/
def State.riseCheck (s : State) (p : Page) : Option (Nat × Nat) :=
  let held (g : Nat) : Option (Nat × Nat) := if s.fld pgDevice Reg.DEV_PAD_HELD g 1 = 1 then some (rsPower, g) else none
  match p.kind with
  | .lane => (held (p.ix / 8)).orElse fun _ => if s.laneCfgOk p.ix then none else some (rsConfig, 0)
  | .laneGroup => held p.ix
  | .port => if s.portCfgOk p.ix then none else some (rsConfig, 0)
  | .dmaCh => if s.dmaCfgOk p.ix then none else some (rsConfig, 0)
  | _ => none

/-! ### Coming up -/

/-- Does a part stay RISING until an event of its own: a reference, a signal, training (R420, R474)? -/
def risesByEvent (k : PageKind) : Bool := k == .lane || k == .laneGroup || k == .rvLink

/-- A lane that rises starts its alignment anew (R413, R420, R436). -/
def State.laneStarts (s : State) (l : Nat) : State :=
  let s := s.setLane l { LaneSt.reset with eyeMin := (s.laneSt l).eyeMin }
  s.setReg (pgLane l) Reg.LN_ALIGN (w32 (s.fld (pgLane l) Reg.LN_ALIGN 3 1 * 8))

/-- A part becomes READY: a pseudo-channel's mirrored share is copied from its other copies first (R619). -/
def State.partUp (s : State) (p : Page) : State :=
  let s := match p.kind with
    | .hbmPc => if s.serving (pgPc (if p.ix < 64 then p.ix + 64 else p.ix - 64)) then s.mirrorCopy p.ix else s
    | _ => s
  s.partReady p

/-- A RISE or RESUME fails (R507): the part is DOWN after a RISE, TENDING or RETAINED after a RESUME. -/
def State.riseFails (s : State) (p : Page) (reason detail : Nat) : State :=
  let back := if s.fld p Reg.PG_STATE 8 3 = pcRise then stDown else stTending
  let s := if s.part p = stRising then s.setPart p back else s
  let s := if p.kind = .rvLink then s.setReg p Reg.RV_STATE 0 else s
  let s := if p.kind = .dmaCh ∧ reason = rsConfig then s.setDmaChan p.ix { s.dmaChan p.ix with cause := 5 } else s
  let s := s.cmdRefused p reason detail
  if s.mode = modeRise then s.tally pgWard Reg.WRD_RISE 8 8 1 else s

/-- The transition goes on from a state that is not serving. -/
def State.riseGoes (s : State) (p : Page) (how : RiseHow) : State :=
  match how with
  | .fails reason detail => s.riseFails p reason detail
  | .ready => if risesByEvent p.kind then s else s.partUp p
  | .slow => s

/-- A RISE, or a RESUME from TENDING, begins: refused by a check, waiting for a prerequisite, or RISING. -/
def State.riseStart (s : State) (p : Page) (cmd : Nat) (how : RiseHow) : State :=
  let s := s.cmdTaken p cmd true
  match s.riseCheck p with
  | some (r, d) => s.riseFails p r d
  | none =>
    if !s.prereqsOk p then s
    else
      let s := s.setPart p stRising
      let s := if cmd = pcRise then s.giveIdentity p else s
      let s := if p.kind = .lane then s.laneStarts p.ix else s
      let s := if p.kind = .rvLink then s.setFld p Reg.RV_STATE 0 2 1 else s
      let s := if p.kind = .laneGroup ∧ cmd = pcRise ∧ !s.ward.stopped then s.loadLaneGroup p.ix else s
      s.riseGoes p how

/-! ### Draining -/

/-- Has the work in flight of a part finished (R326, R507)? -/
def State.drained (s : State) (p : Page) : Bool :=
  let bufs (in_ : Region → Bool) : Bool :=
    !(s.tilth.allocs.any fun a => (linesOf a.addr a.size).any fun l => in_ (s.region l))
  match p.kind with
  | .coreCtl => (s.coreItem p.ix).isNone && (s.core p.ix).suspended.isEmpty && (s.core p.ix).run == .idle
  | .clod => bufs fun r => r == .clodMem p.ix
  | .dbBank => bufs fun r => r == .deep p.ix
  | .hbmPc => bufs fun r => match r with
    | .hbmIntl q => q == p.ix
    | .hbmLocal q => q == p.ix
    | _ => false
  | .dmaCh => (s.dmaChan p.ix).flight.isEmpty
  | .dmaUnit => (List.range 16).all fun j => (s.dmaChan (16 * p.ix + j)).flight.isEmpty
  | .framer => (List.range 8).all fun j => (s.lineReqs (8 * p.ix + j)).isEmpty
  | .port => (s.mac p.ix).queues.all fun q => q.2.isEmpty
  | .rvLink => (s.rv p.ix).replay.isEmpty && (s.rv p.ix).wait.isEmpty
  | k => match kindCls k with
    | some c => (s.window c p.ix).isEmpty && (s.ctxOn c p.ix).isEmpty
    | none => true

/-- Pad groups that a domain's power-down holds (R524): those of a lane group. -/
def State.holdPads (s : State) (bits : Nat) : State :=
  s.setReg pgDevice Reg.DEV_PAD_HELD (s.reg pgDevice Reg.DEV_PAD_HELD ||| w32 bits)

/-- A drain begins. A pseudo-channel whose blocks have no room is refused (R390); Tilth holds no work (R622). -/
def State.drainStart (s : State) (p : Page) (cmd : Nat) : State :=
  if p.kind = .hbmPc ∧ cmd ≠ pcRetain ∧ (s.roomFor p.ix).isNone then
    ((s.cmdTaken p cmd false).setFld p Reg.MEM_BK_ROW_CMD 2 2 3).cmdRefused p 0 0
  else if p.kind = .tilth then
    let s := s.tilth.migr.foldl (fun s m => s.migrAbandon none m.handle) s
    ((s.cmdTaken p cmd false).setPart p stDraining).setPart p stTending
  else
    let s := (s.cmdTaken p cmd true).setPart p stDraining
    if p.kind = .lane then s.rxSettle p.ix else s

/-- DRAIN_COMPLETE (R326, R390, R507, R516): TENDING, RETAINED or, for a pseudo-channel, RETIRED. -/
def State.drainEnds (s : State) (p : Page) : State :=
  if s.part p ≠ stDraining ∨ !s.drained p then s
  else
    let cmd := s.fld p Reg.PG_STATE 8 3
    if cmd = pcRetain then
      let s := (s.setPart p stRetained).cmdResult p crOk
      let s := if p.kind = .laneGroup then s.holdPads (2 ^ p.ix) else s
      s.trimUpdate
    else if p.kind = .hbmPc then
      match s.roomFor p.ix with
      | none => s
      | some cs =>
        let s := s.relocate p.ix cs
        let s := { s with mem := { s.mem with rebuilt := insertNat p.ix s.mem.rebuilt } }
        (s.setPart p stRetired).cmdResult p crOk
    else
      let s := if p.kind = .rvLink ∧ s.rvLink p.ix ≠ 0 then s.rvDown p.ix else s
      (s.setPart p stTending).cmdResult p crOk

/-! ### Retiring -/

/-- The identity of a part goes to the spare of the class if it is DOWN, with its owner and its image, and Ward rises the spare,
whose rise goes on as `how` says (R452, R572). -/
def State.replace (s : State) (p : Page) (how : RiseHow) : State :=
  let id := s.identity p
  let s := s.setIdentity p none
  match id, spareOf p with
  | some n, some q =>
    if q = p ∨ s.part q ≠ stDown ∨ (s.identity q).isSome then s
    else
      let s := (s.setIdentity q (some n)).setFld q Reg.PG_OWNER 0 6 (s.owner p)
      let s := if p.kind = .framer then s.framerMoves p.ix q.ix else s
      if s.ward.stopped then s else (s.imageMoves p q).riseStart q pcRise how
  | _, _ => s

/-- RETIRE (R572). -/
def State.retire (s : State) (p : Page) (how : RiseHow) : State :=
  ((s.cmdTaken p pcRetire false).setPart p stRetired).replace p how

/-! ### PG_CMD -/

/-- May the part take RETAIN now: every core of the clod, every lane of the group RETAINED or DOWN (R516)? -/
def State.retainOk (s : State) (p : Page) : Bool :=
  let off (q : Page) : Bool := s.part q == stRetained || s.part q == stDown
  match p.kind with
  | .clod => (List.range 17).all fun j => off ⟨.coreCtl, 17 * p.ix + j⟩
  | .laneGroup => (List.range 8).all fun j => off (pgLane (8 * p.ix + j))
  | _ => true

/-- RESUME of a RETAINED part (R507, R516, R525). -/
def State.resumeRetained (s : State) (p : Page) (how : RiseHow) : State :=
  let s := s.cmdTaken p pcResume true
  match s.riseCheck p with
  | some (r, d) => s.cmdRefused p r d
  | none =>
    match how with
    | .fails r d => s.cmdRefused p r d
    | .ready => if risesByEvent p.kind then s else s.partUp p
    | .slow => s

/-- The command as PG_CMD codes it, judged against the part's state and capabilities (R507, R508, R621). -/
def State.partCmd (s : State) (p : Page) (cmd : Nat) (how : RiseHow) : State :=
  let st := s.part p
  let cap (b : Nat) : Bool := bitOf p.caps b
  let illegal := s.setFld p Reg.PG_STATE 12 3 crIllegal
  if cmd = 0 ∨ cmd = 7 then s
  else if st = stAbsent ∨ st = stRetired then illegal
  else if s.fld p Reg.PG_STATE 11 1 = 1 ∧ !(cmd = pcResume ∧ st = stDraining) then s.setFld p Reg.PG_STATE 12 3 crBusy
  else if cmd = pcRise then if st = stDown then s.riseStart p pcRise how else illegal
  else if p.kind = .timeBase ∨ p.kind = .fabric ∨ p.kind = .sediment then illegal
  else if cmd = pcDrain then if st = stReady ∧ cap 3 then s.drainStart p cmd else illegal
  else if cmd = pcTend then
    if !cap 3 then illegal
    else if st = stReady then s.drainStart p cmd
    else if st = stDown ∨ st = stFaulted then (s.cmdTaken p cmd false).setPart p stTending
    else illegal
  else if cmd = pcResume then
    if st = stDraining then (s.cmdTaken p cmd false).setPart p stReady
    else if st = stTending then s.riseStart p pcResume how
    else if st = stRetained then s.resumeRetained p how
    else illegal
  else if cmd = pcRetire then
    if (st = stDown ∨ st = stTending ∨ st = stFaulted) ∧ cap 4 then s.retire p how else illegal
  else if st = stReady ∧ cap 2 ∧ s.retainOk p then s.drainStart p pcRetain else illegal

/-- A write of PG_CMD by an agent (R506, R509): a command that the page's lock refuses ends DENIED. -/
def State.partCmdBy (s : State) (a : Agent) (p : Page) (cmd : Nat) (how : RiseHow) : State :=
  if !s.reaches a then s
  else match s.turnedAway a p with
    | some k =>
      let s := s.accErr a (p.addr + Reg.PG_CMD) k
      if k = 3 then s.setFld p Reg.PG_STATE 12 3 crDenied else s
    | none => s.partCmd p.home cmd how

/-- A command on the page at a BAR0 offset by an agent that may write it: the PF, Ward or a PF's DMA channel. -/
def cmdOn (by_ : Agent) (pg cmd : Nat) (how : RiseHow) (s : State) : State :=
  match pageAt pg with
  | some p => if agTrusted by_ then s.partCmdBy by_ p cmd how else s
  | none => s

/-- RISE (R507, R561). -/
def execRise (by_ : Agent) (pg : Nat) (how : RiseHow) (s : State) : Host.Outcome State Fault Refusal := .next (cmdOn by_ pg pcRise how s)
/-- DRAIN (R507). -/
def execDrain (by_ : Agent) (pg : Nat) (s : State) : Host.Outcome State Fault Refusal := .next (cmdOn by_ pg pcDrain .ready s)
/-- TEND (R507). -/
def execTend (by_ : Agent) (pg : Nat) (s : State) : Host.Outcome State Fault Refusal := .next (cmdOn by_ pg pcTend .ready s)
/-- RESUME (R507). -/
def execResume (by_ : Agent) (pg : Nat) (how : RiseHow) (s : State) : Host.Outcome State Fault Refusal := .next (cmdOn by_ pg pcResume how s)
/-- RETIRE (R507, R572). -/
def execRetire (by_ : Agent) (pg : Nat) (how : RiseHow) (s : State) : Host.Outcome State Fault Refusal := .next (cmdOn by_ pg pcRetire how s)
/-- RETAIN (R507, R516). -/
def execRetain (by_ : Agent) (pg : Nat) (s : State) : Host.Outcome State Fault Refusal := .next (cmdOn by_ pg pcRetain .ready s)

/-- DRAIN_COMPLETE (R507). -/
def execDrainComplete (pg : Nat) (s : State) : Host.Outcome State Fault Refusal :=
  match pageAt pg with
  | some p => .next (s.drainEnds p.home)
  | none => .next s

/-- The ceiling from a part's RISE or RESUME to READY in Tc: 20 ms and 2 ms for lane groups and lanes (R420), for RETAINED parts
those of R516, with 50 µs more where the octant's rail is at retention; 10 ms where no chapter gives one (R507). -/
def State.riseCeiling (s : State) (p : Page) : Nat :=
  match p.kind with
  | .lane => 3932160
  | .laneGroup => 39321600
  | k =>
    if s.part p ≠ stRetained then 19660800
    else
      let rail := match p.octant with
        | some o => if s.fld ⟨.octant, o⟩ Reg.PWR_OCT_STATE 11 1 = 1 then 98304 else 0
        | none => 0
      rail + (if k = .clod ∨ k = .dbBank ∨ k = .hbmPc then 19661 else 39322)

/-- RISE_TIMEOUT (R507): a part has not reached READY within its ceiling, counted from the command. -/
def execRiseTimeout (pg : Nat) (s : State) : Host.Outcome State Fault Refusal :=
  match pageAt pg with
  | some p =>
    if s.airtime < lookupD 0 p.addr s.cmdAt + s.riseCeiling p then .next s
    else if s.part p = stRising then .next (s.riseFails p rsTimeout 0)
    else if s.part p = stRetained ∧ s.fld p Reg.PG_STATE 11 1 = 1 then .next (s.cmdRefused p rsTimeout 0)
    else .next s
  | none => .next s

/-! ### RISE by Ward -/

/-- The kinds that Ward rises with WRD_POLICY.RISE_ALL = 0 (R561). -/
def riseFirst : List PageKind :=
  [.timeBase, .hif, .memSys, .hbmPc, .dbBank, .clod, .ringSys, .stop, .fabric, .tilth, .sediment]
/-- The kinds that it rises besides. -/
def riseRest : List PageKind :=
  [.coreCtl, .bfe, .dte, .tfe, .fdc, .lde, .lee, .pce, .tce, .hqd, .dmaUnit, .dmaCh, .laneGroup]

/-- Does Ward rise a part in RISE (R419, R561, R563)? Spares stay DOWN; a lane rises if it has a table entry. -/
def State.inRiseSet (s : State) (p : Page) : Bool :=
  let all := s.ward.riseAll
  if riseFirst.contains p.kind then true
  else if !all then false
  else if (identBits p).isSome then (bornAs p).isSome
  else if p.kind = .lane then s.laneHasEntry p.ix
  else riseRest.contains p.kind || p.kind == .port || p.kind == .framer

/-- Has the policy's set been attempted (R561)? -/
def State.riseAttempted (s : State) : Bool :=
  let tried (p : Page) : Bool := s.part p != stDown || s.fld p Reg.PG_STATE 8 3 != 0
  let ks := if s.ward.riseAll then riseFirst ++ riseRest else riseFirst
  ks.all fun k => (pagesOf k).all fun p => !s.inRiseSet p || tried p

/-- Does Ward run something that brings up the host interface: its firmware, or the ROM's recovery (R486, R553)? -/
def State.wardUp (s : State) : Bool :=
  s.mode != modeBoot || s.fld pgWard Reg.WRD_BOOT 2 2 == 2

/-- RISE_SEQUENCE (R561): in RISE Ward writes RISE to a part of the set; a part that waited for its prerequisite goes on once
it is READY; a RISING part that rises by no event of its own comes up or fails. DONE sets when the set has been attempted. -/
def execRiseSequence (pg : Nat) (how : RiseHow) (s : State) : Host.Outcome State Fault Refusal :=
  match pageAt pg with
  | none => .next s
  | some p =>
    let busy := s.fld p Reg.PG_STATE 11 1 == 1
    let st := s.part p
    let s1 :=
      if p.kind = .hif ∧ s.pins.perstLow then s
      else if st = stDown ∧ busy then s.riseStart p pcRise how
      else if st = stTending ∧ busy then s.riseStart p pcResume how
      else if st = stRising then s.riseGoes p how
      else if st = stRetained ∧ busy then (if how = .ready ∧ !risesByEvent p.kind then s.partUp p else s)
      else if st = stDown ∧ (s.mode = modeRise ∨ (p.kind = .hif ∧ s.wardUp)) ∧ !s.ward.stopped ∧ s.inRiseSet p ∧ s.fld p Reg.PG_STATE 8 3 = 0 then
        s.partCmdBy .ward p pcRise how
      else s
    .next (if s1.mode = modeRise ∧ s1.fld pgWard Reg.WRD_RISE 0 1 = 0 ∧ s1.riseAttempted then
      (s1.setFld pgWard Reg.WRD_RISE 0 1 1).irq pgWard 1 else s1)

/-! ### Faults -/

/-- The agents of a ring stop (R335, R352). -/
def stopAgents (x : Nat) : List Page :=
  ([PageKind.coreCtl, .clod, .bfe, .dte, .tfe, .fdc, .lde, .lee, .pce, .tce, .hbmPc, .dbBank, .laneGroup, .framer,
    .dmaCh].flatMap pagesOf).filter fun p => p.stop == some x

/-- One part becomes FAULTED with what that ends (R388, R405, R575, R577). -/
def State.partFails (s : State) (p : Page) (reason detail : Nat) : State :=
  if p.kind = .dbBank ∨ p.kind = .hbmPc then s.memLoss p reason detail
  else
    let st := s.part p
    if st = stAbsent ∨ st = stRetired then s
    else
      let s := (s.faultHead p reason detail true).dropWork p
      if p.kind = .lane then s.rxSettle p.ix else s

/-- A Hardpan region detects a fault (R352, R575, R579): the part is FAULTED and its report reaches Ward; a fault of the
time base, of the fabric's or Tilth's repeated decision, or one that is not contained leads to SAFE. -/
def State.partFault (s : State) (p : Page) (reason detail : Nat) (contained : Bool) : State :=
  let uncontained := !contained || p.kind == .timeBase || p.kind == .fabric || p.kind == .tilth
  if uncontained then
    let st := s.part p
    let s := if st = stAbsent ∨ st = stRetired then s else s.faultHead p reason detail false
    s.enterSafe reason detail
  else
    let s := s.partFails p reason detail
    let s := match p.kind with
      | .stop => (stopAgents p.ix).foldl (fun (s : State) q => s.partFails q rsRing detail) s
      | _ => s
    (s.restAbandon 4).trimUpdate

/-- Pages that stand for no part that can fault. -/
def noPart (k : PageKind) : Bool := k == .coreDbg || k == .fnPage || k == .device || k == .telemetry

/-- PART_FAULT (R575). -/
def execPartFault (pg reason detail : Nat) (contained : Bool) (s : State) : Host.Outcome State Fault Refusal :=
  match pageAt pg with
  | some p => if noPart p.kind ∨ !s.pins.on then .next s else .next (s.partFault p (reason % 256) detail contained)
  | none => .next s

/-- SAFE (R579, R580): a fault that cannot be contained, with the REASON of what triggered it. -/
def execSafe (reason detail : Nat) (s : State) : Host.Outcome State Fault Refusal :=
  .next (s.enterSafe (reason % 256) (detail % 2 ^ 24))

/-! ### Ward's care -/

/-- AUTO_RETIRE (R573): Ward tests a FAULTED core, engine or framer; on failure, or with three faults counted within 24 hours,
it retires the part, otherwise it resumes it. -/
def execAutoRetire (pg : Nat) (pass : Bool) (how : RiseHow) (s : State) : Host.Outcome State Fault Refusal :=
  match pageAt pg with
  | some p =>
    if (identBits p).isNone ∨ s.part p ≠ stFaulted ∨ s.ward.stopped ∨ s.mode = modeSafe ∨ s.mode = modeRest ∨
        s.fld pgWard Reg.WRD_POLICY 0 1 = 0 then .next s
    else
      let s := s.partCmdBy .ward p pcTend .ready
      let hits := (lookupD [] p.addr s.ward.faults).filter fun t => decide (s.airtime ≤ t + 24 * 3600 * 1966080000)
      let hits := if pass then hits ++ [s.airtime] else hits
      let s := s.setWard { s.ward with faults := insertKey p.addr hits s.ward.faults }
      .next (s.partCmdBy .ward p (if pass ∧ hits.length < 3 then pcResume else pcRetire) how)
  | none => .next s

/-- CORE_RELOAD (R567): after FETCH_POISON Ward reloads the core's load from flash and rises it. -/
def execCoreReload (k : Nat) (how : RiseHow) (s : State) : Host.Outcome State Fault Refusal :=
  let p : Page := ⟨.coreCtl, k⟩
  if k ≥ 272 ∨ s.part p ≠ stTending ∨ !(s.core k).reload ∨ s.ward.stopped then .next s
  else
    match s.wardLoad (s.fld pgWard Reg.WRD_BOOT 0 1) p with
    | (s, true) => .next ((s.setCore k { s.core k with reload := false }).partCmdBy .ward p pcResume how)
    | (s, false) => .next (s.wardReport p rsImage k)

/-- LOCKSTEP_MISMATCH (R568): of the active pair, the standby takes over if it is SYNCED, else the management plane stops; of
the standby pair, it is only marked FAULTED. -/
def execLockstepMismatch (pair : Nat) (s : State) : Host.Outcome State Fault Refusal :=
  if pair ≥ 2 ∨ s.ward.stopped ∨ !s.pins.on then .next s
  else
    let act := s.fld pgWard Reg.WRD_PAIRS 0 1
    let synced := s.fld pgWard Reg.WRD_PAIRS 1 2 == 2
    let s := s.count pgWard Reg.WRD_TALLY_LOCKSTEP 1
    if pair ≠ act then .next (s.setFld pgWard Reg.WRD_PAIRS 1 2 3)
    else
      let s := s.hardpan pgWard rsLockstep pair
      if synced then .next ((s.setFld pgWard Reg.WRD_PAIRS 0 1 (1 - act)).setFld pgWard Reg.WRD_PAIRS 1 2 3)
      else .next ((s.setFld pgWard Reg.WRD_PAIRS 1 2 3).setWard { s.ward with stopped := true })

end Sys2Proof.Machine
end

