-- ==== Sys2Proof/Machine/TimeBase.lean ====
section
/-!
DEFINITION. Sys2Proof/Machine/TimeBase.lean: the time base (R21, R41 to R45, R457 to R467): AIRTIME and its discipline, the tick
generators, PPS, ToD and timed requests.
-/
namespace Sys2Proof.Machine

def tcSecond : Nat := 1966080000
def tcFrame : Nat := 19660800

/-- PTP seconds and nanoseconds of an AIRTIME, nanoseconds to the nearest, ties to even (R460). -/
def ptpTime (t : Nat) : Nat × Nat :=
  let x := t * 10 ^ 9
  let q := x / tcSecond
  let r := 2 * (x % tcSecond)
  let n := if r < tcSecond ∨ (r = tcSecond ∧ q % 2 = 0) then q else q + 1
  (n / 10 ^ 9 + 315964819, n % 10 ^ 9)

/-- The AIRTIME of PTP seconds and nanoseconds, to the nearest Tc (R460). -/
def ptpToTc (sec ns : Nat) : Int := ((sec : Int) - 315964819) * tcSecond + ((ns * tcSecond + 5 * 10 ^ 8) / 10 ^ 9 : Nat)

/-! ### Layouts (R42, R467) -/

/-- Numerology, extended CP and LTE of a generator. -/
structure GenCfg where
  mu : Nat
  ecp : Bool
  lte : Bool
deriving DecidableEq, Repr

/-- GEN_CFG's layout bits. -/
def genCfgOf (v : Nat) : GenCfg := ⟨bitsOf v 0 2, bitOf v 2, bitOf v 3⟩

/-- The layouts a generator accepts (R467). -/
def GenCfg.ok (c : GenCfg) : Bool := if c.lte then c.mu == 0 else !c.ecp || c.mu == 2

/-- Slots of a frame, symbols of a slot. -/
def GenCfg.slots (c : GenCfg) : Nat := if c.lte then 20 else 10 * 2 ^ c.mu
def GenCfg.syms (c : GenCfg) : Nat := if c.lte then (if c.ecp then 6 else 7) else if c.ecp then 12 else 14

/-- Start of symbol `k` of slot `n`, in Tc from the frame boundary (R42). Symbols of a half millisecond are of one length,
but the first, which with the normal CP is 1,024 Tc longer. -/
def GenCfg.start (c : GenCfg) (n k : Nat) : Nat :=
  let half := if c.lte then c.syms else c.slots * c.syms / 20
  let g := n * c.syms + k
  let len := if c.ecp then (if c.lte then 163840 else 40960) else 140288 / (if c.lte then 1 else 2 ^ c.mu)
  g / half * 983040 + g % half * len + (if c.ecp ∨ g % half = 0 then 0 else 1024)

/-! ### Tick generators (R43, R44, R45) -/

def genOff (g off : Nat) : Nat := off + 32 * g

/-- A generator's layout, FRAME_OFFSET, LEAD_TC and EN. -/
def State.genCfg (s : State) (g : Nat) : GenCfg := genCfgOf (s.reg pgTime (genOff g Reg.GEN_CFG)).toNat
def State.genOffset (s : State) (g : Nat) : Nat := s.fld pgTime (genOff g Reg.GEN_FRAME_OFFSET) 0 25
def State.genLead (s : State) (g : Nat) : Nat := s.fld pgTime (genOff g Reg.GEN_LEAD) 0 25
def State.genOn (s : State) (g : Nat) : Bool := s.fld pgTime (genOff g Reg.GEN_CFG) 4 1 == 1

/-- Is no generator enabled? -/
def State.noGen (s : State) : Bool := (List.range 64).all fun g => !s.genOn g

/-- A tick: its place in the order of its generator, twice the boundary plus 1 for SYMBOL; SFN, slot and symbol. -/
structure Tick where
  code : Nat
  sfn : Nat
  slot : Nat
  sym : Nat
deriving DecidableEq, Repr

/-- The ticks that a generator's masks select in the frame that ends `m` frames after its first boundary (R43). -/
def State.frameTicks (s : State) (g m : Nat) : List Tick :=
  let c := s.genCfg g
  let mask := (s.reg pgTime (genOff g Reg.GEN_SLOTMASK0)).toNat + (s.reg pgTime (genOff g Reg.GEN_SLOTMASK1)).toNat * 2 ^ 32 +
    (s.reg pgTime (genOff g Reg.GEN_SLOTMASK2)).toNat * 2 ^ 64
  let syms := s.fld pgTime (genOff g Reg.GEN_SYMMASK) 0 14
  let sfn := (m + 1023) % 1024
  ((List.range c.slots).filter (bitOf mask)).flatMap fun n =>
    let at_ (k : Nat) : Nat := s.genOffset g + m * tcFrame + c.start n k - tcFrame
    let ok (k : Nat) : Bool := decide (tcFrame ≤ s.genOffset g + m * tcFrame + c.start n k)
    (if ok 0 then [⟨2 * at_ 0, sfn, n, 0⟩] else []) ++
      ((List.range c.syms).filter fun k => bitOf syms k && ok k).map fun k => ⟨2 * at_ k + 1, sfn, n, k⟩

/-- The first tick of a generator that is still to be posted. -/
def State.nextTick (s : State) (g : Nat) : Option Tick :=
  let from_ := lookupD 0 g s.time.genFrom
  let m := (from_ / 2 + tcFrame - s.genOffset g) / tcFrame
  (s.frameTicks g m ++ s.frameTicks g (m + 1)).find? fun t => decide (from_ ≤ t.code)

/-- Was the instant of a tick passed by a forward step, with its boundary (R44, R45)? -/
def State.tickLate (s : State) (g : Nat) (t : Tick) : Bool :=
  let b := t.code / 2
  s.time.steps.any fun e =>
    decide (e.1 + s.genLead g < b) && decide (b ≤ e.2 + s.genLead g) && decide (b ≤ e.2)

/-- TICK (R43 to R45): the generator's next tick, whose instant AIRTIME has reached, is posted. -/
def execTick (g : Nat) (s : State) : Host.Outcome State Fault Refusal :=
  if g ≥ 64 ∨ !s.genOn g ∨ !s.serving pgTime ∨ s.mode = modeSafe then .next s
  else
    match s.nextTick g with
    | none => .next s
    | some t =>
      if s.airtime + s.genLead g < t.code / 2 then .next s
      else
        let low := t.sym * 2 ^ 2 + t.slot * 2 ^ 6 + t.sfn * 2 ^ 13 + bit (s.tickLate g t) * 2 ^ 23 +
          (0x10 + t.code % 2) * 2 ^ 24
        let s := s.setTime { s.time with genFrom := insertKey g (t.code + 1) s.time.genFrom }
        .next (s.publish 0x01 g (w32 low) (s.owner pgTime))

/-- A write of GEN_CFG (R467): the layout changes only while EN is 0, and enabling takes a layout of the table. -/
def State.genCfgWrite (s : State) (a : Agent) (g v : Nat) : State :=
  let off := genOff g Reg.GEN_CFG
  let cur := (s.reg pgTime off).toNat
  let bad (s : State) : State := s.accErr a (pgTime.addr + off) 2
  if bitOf cur 4 then
    let s' := s.setReg pgTime off (w32 (setBits cur 4 1 (bitsOf v 4 1)))
    if bitsOf cur 0 4 = bitsOf v 0 4 then s' else bad s'
  else if bitOf v 4 ∧ !(genCfgOf v).ok then bad s
  else
    let s := s.setReg pgTime off (w32 (v % 32))
    if bitOf v 4 then s.setTime { s.time with genFrom := insertKey g (2 * (s.airtime + s.genLead g)) s.time.genFrom } else s

/-- GEN_ENABLE (R467). -/
def execGenEnable (by_ : Agent) (g : Nat) (v : Word) (s : State) : Host.Outcome State Fault Refusal :=
  if g ≥ 64 then .next s
  else .next (s.onPage by_ pgTime (genOff g Reg.GEN_CFG) fun s => s.genCfgWrite by_ g v.toNat)

/-! ### The discipline of AIRTIME (R457, R458) -/

/-- One cycle of the 491.52 MHz clock (R457, R458): 4 Tc at the rate that FREQ and a slew give, and what follows from the
time alone: share credits, receivers that a window holds, PPS_OUT falling. In OFF no clock runs. -/
def State.clock (s : State) : State :=
  if !s.pins.on then s else
  let unit : Int := 2 ^ 40
  let cap : Int := 4 * unit * s.fld pgTime Reg.TB_CTRL 5 10 / 10 ^ 6
  let d := max (-cap) (min cap s.time.slew)
  let tot := s.time.frac + 4 * unit + 4 * (s.reg pgTime Reg.TB_FREQ).toInt + d
  let adv := (tot / unit).toNat
  let s := s.setTime { s.time with frac := tot % unit, slew := s.time.slew - d }
  let s := ({ s with airtime := s.airtime + adv }.accrue adv).rxClock
  let pps := match s.pins.ppsHigh with
    | some t => if t ≤ s.airtime then none else some t
    | none => none
  { s with pins := { s.pins with ppsHigh := pps, up := min (s.pins.up + 4) 1966080 } }

/-- TB_SLEW written (R458). -/
def State.slewWrite (s : State) (a : Agent) (v : Word) : State :=
  if s.time.slew ≠ 0 then s.accErr a (pgTime.addr + Reg.TB_SLEW) 2
  else s.setTime { s.time with slew := v.toInt * 2 ^ 40 }

/-- SLEW (R458). -/
def execSlew (by_ : Agent) (v : Word) (s : State) : Host.Outcome State Fault Refusal :=
  .next (s.onPage by_ pgTime Reg.TB_SLEW fun s => s.slewWrite by_ v)

/-- AIRTIME moves backwards (R458): instants after it come again. -/
def State.stepBack (s : State) (d : Nat) : State :=
  let t := s.airtime - d
  let s := s.setTime { s.time with
    treqFrom := s.time.treqFrom.map fun e => (e.1, min e.2 t)
    ppsAt := s.time.ppsAt.filter fun e => decide (e < t) }
  { s with airtime := t }.rxClock

/-- AIRTIME moves forward at once (R45, R431, R458). -/
def State.stepOn (s : State) (d : Nat) : State :=
  let t0 := s.airtime
  let s := s.setTime { s.time with steps := s.time.steps ++ [(t0, t0 + d)] }
  let s := { s with airtime := t0 + d }
  (s.skipWindows t0).rxClock

/-- TB_STEP written (R458). -/
def State.stepWrite (s : State) (a : Agent) (v : DWord) : State :=
  let off := v.toInt
  let d := off.natAbs
  if s.time.held.isSome ∨ (off < 0 ∧ s.airtime < d) then s.accErr a (pgTime.addr + Reg.TB_STEP_HI) 2
  else if 0 ≤ off then s.stepOn d
  else if s.noGen then s.stepBack d
  else (s.setTime { s.time with held := some d }).setFld pgTime Reg.TB_CTRL 4 1 1

/-- STEP (R458). -/
def execStep (by_ : Agent) (v : DWord) (s : State) : Host.Outcome State Fault Refusal :=
  .next (s.onPage by_ pgTime Reg.TB_STEP_HI fun s => s.stepWrite by_ v)

/-- STEP_APPLY (R458): every generator is disabled. -/
def execStepApply (s : State) : Host.Outcome State Fault Refusal :=
  match s.time.held with
  | some d =>
    if !s.noGen then .next s
    else .next (((s.setTime { s.time with held := none }).setFld pgTime Reg.TB_CTRL 4 1 0).stepBack d)
  | none => .next s

/-! ### PPS, ToD and timed requests (R463, R464, R466) -/

def padPps : Nat := 0x100
def padTod : Nat := 0x101

/-- PPS_OUT (R463): an instant AIRTIME ≡ PPS_OFFSET was reached within the last clock cycle. -/
def execPpsOut (s : State) : Host.Outcome State Fault Refusal :=
  let off := s.fld pgTime Reg.TB_PPS_OUT 0 31
  let x := (s.airtime + tcSecond - off % tcSecond) % tcSecond
  if s.fld pgTime Reg.TB_PPS_OUT 31 1 = 0 ∨ !s.pins.on ∨ s.airtime < x ∨ x > 5 ∨ s.time.ppsAt = some (s.airtime - x) then .next s
  else
    let e := s.airtime - x
    let s := s.setTime { s.time with
      ppsAt := some e
      tod := if s.fld pgTime Reg.TB_TOD_CTRL 0 1 = 1 then some e else none }
    let s := { s with pins := { s.pins with ppsHigh := some (e + s.fld pgTime Reg.TB_PPS_WIDTH 0 8 * 1966080) } }
    .next (s.send padPps [])

/-- PPS_IN (R463): a rising edge, `sub` Tc after the AIRTIME of the clock cycle, is stamped; in REST it is counted (R522). -/
def execPpsIn (sub : Nat) (s : State) : Host.Outcome State Fault Refusal :=
  let s := s.setReg64 pgTime Reg.TB_PPS_IN_LO (s.airtime + sub % 4)
  .next { s with rest := s.rest.map fun r => { r with edges := r.edges + 1 } }

/-- `n` bytes of a number, big-endian. -/
def beNum : Nat → Nat → List Byte
  | 0, _ => []
  | n + 1, v => BitVec.ofNat 8 (v / 2 ^ (8 * n)) :: beNum n v

/-- The number that big-endian bytes spell. -/
def numBe (bs : List Byte) : Nat := bs.foldl (fun a b => a * 256 + b.toNat) 0

/-- A ToD message's sum: its bytes 2 to 14 (R464). -/
def todSum (bs : List Byte) : Byte := BitVec.ofNat 8 ((((bs.drop 2).take 13).map (·.toNat)).foldl (· + ·) 0)

/-- TOD_TX (R464): within 100 ms after a PPS_OUT edge. The UTC offset is the sender's. -/
def execTodTx (utc : BitVec 16) (s : State) : Host.Outcome State Fault Refusal :=
  match s.time.tod with
  | none => .next s
  | some e =>
    if s.fld pgTime Reg.TB_TOD_CTRL 0 1 = 0 ∨ s.airtime > e + 196608000 then .next s
    else
      let m := [0xA5, 0x5A] ++ beNum 6 (ptpTime e).1 ++ beNum 2 utc.toNat ++
        [BitVec.ofNat 8 (s.fld pgTime Reg.TB_CTRL 3 1), 0, 0, 0, 0]
      .next ((s.setTime { s.time with tod := none }).send padTod (m ++ [todSum m]))

/-- TOD_RX (R464): a valid message is latched with the last PPS_IN stamp, any other discarded. -/
def execTodRx (msg : List Byte) (s : State) : Host.Outcome State Fault Refusal :=
  if msg.length ≠ 16 ∨ msg.take 2 ≠ [0xA5, 0x5A] ∨ msg.getD 15 0 ≠ todSum msg then .next s
  else
    let s := s.setReg64 pgTime Reg.TB_TOD_RX_LO (numBe ((msg.drop 2).take 6))
    .next (s.setTime { s.time with todPps := s.reg64 pgTime Reg.TB_PPS_IN_LO })

def treqOff (t off : Nat) : Nat := off + 16 * t

/-- TB_TREQ_t_PERIOD written: EN going to 1 makes the instants from now on count (R466). -/
def State.treqWrite (s : State) (t v : Nat) : State :=
  let off := treqOff t Reg.TB_TREQ_PERIOD
  let was := s.fld pgTime off 31 1
  let s := s.setReg pgTime off (w32 v)
  if was = 0 ∧ bitOf v 31 then s.setTime { s.time with treqFrom := insertKey t s.airtime s.time.treqFrom } else s

/-- TIMED_REQUEST (R466): the next instant of a timed request was reached. -/
def execTimedRequest (t : Nat) (s : State) : Host.Outcome State Fault Refusal :=
  let p := s.fld pgTime (treqOff t Reg.TB_TREQ_PERIOD) 0 31
  let base := s.reg64 pgTime (treqOff t Reg.TB_TREQ_BASE_LO)
  let from_ := lookupD 0 t s.time.treqFrom
  let next : Option Nat :=
    if from_ ≤ base then some base
    else if p = 0 then none
    else some (base + (from_ - base + p - 1) / p * p)
  match next with
  | none => .next s
  | some x =>
    if t ≥ 20 ∨ s.fld pgTime (treqOff t Reg.TB_TREQ_PERIOD) 31 1 = 0 ∨ s.airtime < x ∨ !s.serving pgTime then .next s
    else
      let s := s.setTime { s.time with treqFrom := insertKey t (x + 1) s.time.treqFrom }
      .next (s.raiseLine (204 + t) DmaReq.plain).1

/-! ### PTP rings (R462) -/

/-- Bytes go to a PTP ring: through the owner's host window, or into Ward SRAM. -/
def State.ptpPut (s : State) (a : Nat) (bs : List Byte) : State :=
  if hostBase ≤ a then (s.hostWrite a (s.owner pgTime) bs).1
  else { s with ward := { s.ward with sram := memPuts s.ward.sram (a % 2 ^ 20) bs } }

/-- Bytes of a PTP ring: those of Ward SRAM, or what the host memory's side of the access gave. -/
def State.ptpGet (s : State) (a n : Nat) (host : List Byte) : List Byte :=
  if hostBase ≤ a then (host ++ List.replicate n 0).take n else memGets s.ward.sram (a % 2 ^ 20) n

/-- An item joins an egress queue of a port (R439). -/
def State.egress (s : State) (p q : Nat) (it : TxItem) : State :=
  let m := s.mac p
  s.setMac p { m with queues := insertKey q (lookupD [] q m.queues ++ [it]) m.queues }

/-- PTP_TX (R462): the transmit entry at the ring's head joins queue 7 of its port; it is stamped as it leaves. -/
def execPtpTx (host : List Byte) (s : State) : Host.Outcome State Fault Refusal :=
  let n := s.fld pgTime Reg.TB_PTP_SIZE 16 12
  let i := s.time.ptpTx
  if n = 0 ∨ i = s.fld pgTime Reg.TB_PTP_TX_TAIL 0 12 ∨ !s.serving pgTime then .next s
  else
    let e := s.ptpGet (s.reg64 pgTime Reg.TB_PTP_TX_LO + 2048 * i) 2048 host
    let w := ofLe (e.take 4)
    if !bitOf w 0 then .next s
    else
      let s := s.setTime { s.time with ptpTx := (i + 1) % n }
      .next (s.egress (bitsOf w 14 6) 7 ⟨(e.drop 32).take (bitsOf w 1 13), some (4096 * w + i), none, none⟩)

end Sys2Proof.Machine
end

