-- ==== Sys2Proof/Machine/Mac.lean ====
section
/-!
DEFINITION. Sys2Proof/Machine/Mac.lean: the Ethernet MACs (R438, R439, R459, R461, R462): what happens to a received frame, and which egress
queue sends. Headers are laid out as IEEE 802.3, IEEE 1588, IP and eCPRI have them (log entry 45).
-/
namespace Sys2Proof.Machine

/-- A frame's tag, EtherType and what follows; `none` for a frame with two tags (R438). -/
def ethParse (bs : List Byte) : Option (Option Nat × Nat × List Byte) :=
  let t := numBe ((bs.drop 12).take 2)
  if t = 0x8100 then
    let t2 := numBe ((bs.drop 16).take 2)
    if t2 = 0x8100 ∨ t2 = 0x88A8 then none else some (some (bitsOf (numBe ((bs.drop 14).take 2)) 0 12), t2, bs.drop 18)
  else some (none, t, bs.drop 14)

/-- Where the UDP header of an IP packet begins, if it is UDP. -/
def udpAt (ty : Nat) (pkt : List Byte) : Option Nat :=
  if ty = 0x0800 ∧ pkt.getD 9 0 = 17 then some ((pkt.getD 0 0).toNat % 16 * 4)
  else if ty = 0x86DD ∧ pkt.getD 6 0 = 17 then some 40
  else none

/-- Does a frame go to the time base (R438)? -/
def ptpFrame (ty : Nat) (pkt : List Byte) : Bool :=
  ty == 0x88F7 || (ty == 0x8809 && pkt.getD 0 0 == 0x0A) ||
    (match udpAt ty pkt with
     | some u => let d := numBe ((pkt.drop (u + 2)).take 2); d == 319 || d == 320
     | none => false)

/-- A frame with its FCS, padded to 64 bytes. -/
def withFcs (bs : List Byte) : List Byte :=
  let b := bs ++ List.replicate (60 - bs.length) 0
  b ++ leBytes 4 (crc32 b)

/-- Does a frame end in its FCS? -/
def fcsOk (bs : List Byte) : Bool := (bs.drop (bs.length - 4)) == leBytes 4 (crc32 (bs.take (bs.length - 4)))

/-! ### Reception -/

/-- A frame for the time base: into the receive ring, or dropped when it is full (R462). -/
def State.ptpRx (s : State) (p t : Nat) (fr : List Byte) (host : List Byte) : State :=
  let n := s.fld pgTime Reg.TB_PTP_SIZE 0 12
  let i := s.time.ptpRx
  let a := s.reg64 pgTime Reg.TB_PTP_RX_LO + 2048 * i
  let drop (s : State) : State := s.count pgTime Reg.TB_TALLY_PTPDROP 1
  if n = 0 ∨ fr.length > 2016 ∨ bitOf (ofLe (s.ptpGet a 4 host)) 0 then drop s
  else
    let s := s.ptpPut (a + 32) fr
    let s := s.ptpPut (a + 8) (leBytes 8 t)
    let s := s.ptpPut a (leBytes 4 (1 + fr.length * 2 + p * 2 ^ 14))
    s.setTime { s.time with ptpRx := (i + 1) % n }

/-- The framer that holds a logical identity, if it is READY (R440). -/
def State.framerAs (s : State) (n : Nat) : Option Nat :=
  (List.range 17).find? fun f => s.identity (pgFrm f) == some n && s.ready (pgFrm f)

/-- Fields of an eCPRI message: supported header, type, payload. -/
def ecpriOk (m : List Byte) : Bool :=
  decide (4 ≤ m.length) && bitsOf (m.getD 0 0).toNat 4 4 == 1 && bitsOf (m.getD 0 0).toNat 0 1 == 0 &&
    decide (4 + numBe ((m.drop 2).take 2) ≤ m.length)
def ecpriType (m : List Byte) : Nat := (m.getD 1 0).toNat
def ecpriBody (m : List Byte) : List Byte := (m.drop 4).take (numBe ((m.drop 2).take 2))

/-- Enabled flows of a framer on a port, in the order of their numbers. -/
def FramerSt.portFlows (x : FramerSt) (p : Nat) : List Nat := x.flowOn.filter fun i => flPort (x.flow i) == p

/-- A framer takes an eCPRI frame from a MAC (R440, R442): looked up by port and PC_ID among its enabled receive flows; a
one-way delay message, which has no PC_ID, by its sender. -/
def State.framerRx (s : State) (f p t : Nat) (vid : Option Nat) (peer : Nat) (m : List Byte) : State :=
  let x := s.framer f
  let g := pgFrm f
  let ty := ecpriType m
  let body := ecpriBody m
  let tagOk (i : Nat) : Bool := !flVlan (x.flow i) || vid == some (flVid (x.flow i))
  let take (s : State) (i : Nat) : State :=
    let s := s.flowTally f i 4 1
    s.setFramer f { s.framer f with inbox := (s.framer f).inbox ++ [⟨p, t, i, peer, m⟩] }
  if !ecpriOk m ∨ (ty ≠ 0 ∧ ty ≠ 2 ∧ ty ≠ 5) then s.count g Reg.FRM_TALLY_UNSUPPORTED 1
  else if ty = 5 then
    let act := (body.getD 1 0).toNat
    match (x.portFlows p).find? fun i => flPeer (x.flow i) == peer && tagOk i with
    | none => s.count g Reg.FRM_TALLY_NOFLOW 1
    | some i =>
      if act = 0 ∨ act = 2 ∨ act = 3 then take s i
      else (s.count g Reg.FRM_TALLY_UNSUPPORTED 1).flowTally f i 7 1
  else
    match (x.portFlows p).find? fun i =>
        !flDown (x.flow i) && !flCplane (x.flow i) && flEaxc (x.flow i) == numBe (body.take 2) && tagOk i with
    | none => s.count g Reg.FRM_TALLY_NOFLOW 1
    | some i =>
      if ty = 2 then ((s.flowTally f i 4 1).count g Reg.FRM_TALLY_UNSUPPORTED 1).flowTally f i 7 1
      else take s i

/-- RX_FRAME (R438, R440, R459): a frame with its FCS, stamped `sub` Tc after the AIRTIME of the clock cycle. `host` is what the
next entry of a receive ring in host memory holds. -/
def execRxFrame (p sub : Nat) (bytes host : List (BitVec 8)) (s : State) : Host.Outcome State Fault Refusal :=
  let g := pgPort p
  if p ≥ 64 ∨ !s.serving g ∨ s.mode = modeSafe then .next s
  else if bytes.length < 64 ∨ bytes.length > s.fld g Reg.PORT_CFG 9 14 ∨ !fcsOk bytes then
    .next (s.count g Reg.PORT_TALLY_BAD 1)
  else
    match ethParse bytes with
    | none => .next (s.count g Reg.PORT_TALLY_OTHER 1)
    | some (vid, ty, rest) =>
      let s := s.count g Reg.PORT_TALLY_RX 1
      let t := s.airtime + sub % 4
      let pkt := rest.take (rest.length - 4)
      if ty = 0xAEFE then
        match s.framerAs (s.fld g Reg.PORT_CFG 5 4) with
        | some f =>
          if s.quiet then .next (s.count g Reg.PORT_TALLY_NOFRAMER 1)
          else .next (s.framerRx f p t vid (numBe ((bytes.drop 6).take 6)) pkt)
        | none => .next (s.count g Reg.PORT_TALLY_NOFRAMER 1)
      else if ptpFrame ty pkt ∧ s.serving pgTime then .next (s.ptpRx p t (bytes.take (bytes.length - 4)) host)
      else .next (s.count g Reg.PORT_TALLY_OTHER 1)

/-! ### Egress -/

/-- The credit of a queue at the present AIRTIME, in bytes × 98,304: RATE × 100 Mbit/s, at most BURST × 64 bytes (R439). -/
def State.credit98 (s : State) (p q : Nat) : Int :=
  let w := (s.reg (pgPort p) (Reg.PORT_EQ + 4 * q)).toNat
  let c := lookupD (0, 0) q (s.mac p).credit
  min (bitsOf w 16 16 * 64 * 98304 : Nat) (c.1 + ((s.airtime - c.2) * bitsOf w 0 16 * 625 : Nat))

/-- The bucket of a queue is filled up to now, and gives up some bytes. -/
def State.setCredit (s : State) (p q bytes : Nat) : State :=
  let m := s.mac p
  s.setMac p { m with credit := insertKey q (s.credit98 p q - (bytes * 98304 : Nat), s.airtime) m.credit }

/-- May a queue send (R439)? Queue 7 and a queue with RATE 0 are not shaped. -/
def State.mayEgress (s : State) (p q : Nat) : Bool :=
  !(lookupD [] q (s.mac p).queues).isEmpty &&
    (q == 7 || s.fld (pgPort p) (Reg.PORT_EQ + 4 * q) 0 16 == 0 || decide (0 < s.credit98 p q))

/-- One-step Sync (R461): originTimestamp is written and an IPv4 frame's UDP checksum cleared; an IPv6 frame is left as it is. -/
def oneStep (fr : List Byte) (t : Nat) : List Byte :=
  match ethParse fr with
  | none => fr
  | some (_, ty, pkt) =>
    let at_ := fr.length - pkt.length
    let put (fr : List Byte) (i : Nat) (bs : List Byte) : List Byte := fr.take i ++ bs ++ fr.drop (i + bs.length)
    let stamp := beNum 6 (ptpTime t).1 ++ beNum 4 (ptpTime t).2
    let sync (i : Nat) : Bool := (fr.getD i 0).toNat % 16 == 0 && decide (i + 44 ≤ fr.length)
    if ty = 0x88F7 then (if sync at_ then put fr (at_ + 34) stamp else fr)
    else if ty = 0x0800 then
      match udpAt ty pkt with
      | some u => if sync (at_ + u + 8) then put (put fr (at_ + u + 8 + 34) stamp) (at_ + u + 6) [0, 0] else fr
      | none => fr
    else fr

/-- A transmit entry gets its stamp, and DONE (R461, R462). -/
def State.ptpDone (s : State) (key t : Nat) : State :=
  let a := s.reg64 pgTime Reg.TB_PTP_TX_LO + 2048 * (key % 4096)
  (s.ptpPut (a + 8) (leBytes 8 t)).ptpPut a (leBytes 4 (setBits (key / 4096) 21 1 1))

/-! ### Framer sections on transmit (R449) -/

/-- Bytes of a PRB on the wire (R442). -/
def wirePrb (fl : List Word) : Nat := if flComp fl = 0 then 48 else if flComp fl = 3 then 3 * flW fl else 1 + 3 * flW fl

/-- Does a flow's compression fit its carrier's staging format (R443)? -/
def flowFits (fl ca : List Word) : Bool :=
  if flComp fl = 1 then caFmt ca == 1 && caBw ca == flW fl else caFmt ca == 0

/-- The enabled flow that sends an antenna of a carrier. -/
def FramerSt.txFlow (x : FramerSt) (c a : Nat) : Option Nat :=
  x.flowOn.find? fun i =>
    let fl := x.flow i
    flDown fl && !flCplane fl && flCarrier fl == c && flAnt fl == a && flowFits fl (x.carrier c)

/-- PRBs that one frame of a flow holds: by the port's MTU, by numPrbu, and by a request's length. -/
def State.prbsPerFrame (s : State) (fl ca : List Word) : Nat :=
  let room := s.fld (pgPort (flPort fl)) Reg.PORT_CFG 9 14 - (18 + (if flVlan fl then 4 else 0) + 16 + (if flHdr fl then 2 else 0))
  max 1 (min 255 (min (room / wirePrb fl) (4096 / caPrbBytes ca)))

/-- The sections of a symbol in the order in which they are sent: antennas ascending (R449). -/
def State.txParts (s : State) (f c start : Nat) : List ReqSrc :=
  let x := s.framer f
  let ca := x.carrier c
  let all := (List.range (caAnts ca)).flatMap fun a =>
    match x.txFlow c a with
    | none => []
    | some i =>
      let n := s.prbsPerFrame (x.flow i) ca
      (List.range ((caPrbs ca + n - 1) / n)).map fun j => (⟨i, c, start, a, j * n, min n (caPrbs ca - j * n), 0⟩ : ReqSrc)
  (List.range all.length).map fun k => { all.getD k ⟨0, 0, 0, 0, 0, 0, 0⟩ with part := k }

/-- The half of a carrier. -/
def FramerSt.half (x : FramerSt) (c h : Nat) : Option HalfSt := x.halves.find? fun y => y.carrier == c && y.half == h
def FramerSt.setHalf (x : FramerSt) (y : HalfSt) : FramerSt :=
  { x with halves := y :: x.halves.filter fun z => !(z.carrier == y.carrier && z.half == y.half) }
/-- The downlink symbol of a half has ended: notices for it are stale from now on (R449). -/
def FramerSt.endSym (x : FramerSt) (c h slot sym : Nat) : FramerSt :=
  { x with ended := insertKey (2 * c + h) (1 + 16 * slot + sym) x.ended }
/-- A half is freed, and its symbol has ended. -/
def FramerSt.freeHalf (x : FramerSt) (c h : Nat) : FramerSt :=
  let x' := match x.half c h with
    | some y => x.endSym c h y.slot y.sym
    | none => x
  { x' with halves := x.halves.filter fun z => !(z.carrier == c && z.half == h) }

/-- Requests of framer `f` that are pending on its lines or in flight. -/
def State.framerReqs (s : State) (f : Nat) : List ReqSrc :=
  let lines := (List.range 8).flatMap fun j => s.lineReqs (8 * f + j)
  let fly := s.dmaChans.flatMap fun e =>
    if s.chanLine e.1 / 8 = f ∧ s.chanLine e.1 < 136 then e.2.flight.map (·.req) ++ e.2.held.toList else []
  (lines ++ fly).filterMap (·.src)

/-- A half whose last frame has left the MAC is free (R449). -/
def State.halfSettle (s : State) (f c h : Nat) : State :=
  let x := s.framer f
  match x.half c h with
  | none => s
  | some y =>
    let queued := s.links.macs.any fun e => e.2.queues.any fun q => q.2.any fun it => it.symEnd == some (f, c, h)
    if !y.sending ∨ y.next < (s.txParts f c 0).length ∨ queued ∨
        (s.framerReqs f).any (fun r => r.carrier == c && flDown (x.flow r.flow)) then s
    else s.setFramer f (x.freeHalf c h)

/-- TX_FRAME (R439): the highest queue that may send sends one frame. -/
def execTxFrame (p : Nat) (s : State) : Host.Outcome State Fault Refusal :=
  let g := pgPort p
  if p ≥ 64 ∨ !s.serving g ∨ s.mode = modeSafe then .next s
  else
    match (List.range 8).reverse.find? (s.mayEgress p) with
    | none => .next s
    | some q =>
      match lookupD [] q (s.mac p).queues with
      | [] => .next s
      | it :: rest =>
        let fr := match it.ptp with
          | some key => if bitOf (key / 4096) 20 then oneStep it.bytes s.airtime else it.bytes
          | none => it.bytes
        let out := withFcs fr
        let s := if q = 7 then s else s.setCredit p q out.length
        let s := s.setMac p { s.mac p with queues := insertKey q rest (s.mac p).queues }
        let s := (s.send p out).count g Reg.PORT_TALLY_TX 1
        let s := match it.ptp with
          | some key => s.ptpDone key s.airtime
          | none => s
        let s := match it.flow with
          | some (f, i) => s.flowTally f i 4 1
          | none => s
        .next (match it.symEnd with
          | some (f, c, h) => s.halfSettle f c h
          | none => s)

end Sys2Proof.Machine
end

