-- ==== Sys2Proof/Machine/Framers.lean ====
section
/-!
DEFINITION. Sys2Proof/Machine/Framers.lean: the framers (R52, R54, R440 to R453, R482): their tables, uplink reception into staging,
staging notices, the command ring, downlink egress and one-way delay. O-RAN and eCPRI messages are laid out as those standards
have them (log entry 45).
-/
namespace Sys2Proof.Machine

/-- Does framer `f` process traffic? -/
def State.framerOn (s : State) (f : Nat) : Bool := decide (f < 17) && s.serving (pgFrm f) && !s.quiet

/-! ### The table window (R440, R441, R443, R482) -/

/-- Is a flow entry in range? -/
def flowOk (w : List Word) : Bool :=
  (if flCplane w then true
   else match flComp w with
     | 0 => flW w == 16
     | 1 => decide (1 ≤ flW w) && decide (flW w ≤ 16)
     | 2 => decide (1 ≤ flW w) && decide (flW w ≤ 16) && !flDown w
     | _ => decide (1 ≤ flW w) && decide (flW w ≤ 4) && flDown w) &&
    decide (flEq w ≤ 6) && wfld w 3 16 16 == 0

/-- Is a carrier entry in range? -/
def carrierOk (w : List Word) : Bool :=
  decide (1 ≤ caAnts w) && decide (caAnts w ≤ 64) && decide (1 ≤ caPrbs w) && decide (caPrbs w ≤ 275) &&
    (if caFmt w = 1 then decide (1 ≤ caBw w) && decide (caBw w ≤ 16) else caBw w == 0) && decide (1 ≤ caNotices w) &&
    wfld w 1 5 27 == 0 && wfld w 3 16 16 == 0 && (w.drop 10).all (· == 0)

/-- FRM_TDATA written: the staged word, but for tally words. -/
def State.frmStage (s : State) (f : Nat) (v : Word) : State :=
  let x := s.framer f
  let i := s.fld (pgFrm f) Reg.FRM_TSEL 9 4
  let car := s.fld (pgFrm f) Reg.FRM_TSEL 8 1 == 1
  if (car && (i == 8 || i == 9)) || (!car && decide (4 ≤ i)) then s
  else s.setFramer f { x with staged := ((x.staged ++ List.replicate 16 0).take 16).set i v }

/-- FRM_TCMD (R440, R482). -/
def State.frmCmd (s : State) (f cmd : Nat) : State :=
  let x := s.framer f
  let g := pgFrm f
  let i := s.fld g Reg.FRM_TSEL 0 8
  let car := s.fld g Reg.FRM_TSEL 8 1 == 1
  let res (s : State) (r : Nat) : State := s.setFld g Reg.FRM_TCMD 4 2 r
  let on := if car then x.carrierOn.contains i else x.flowOn.contains i
  let st (k : Nat) : Word := x.staged.getD k 0
  if cmd = 0 ∨ cmd > 4 then s
  else if car ∧ i ≥ 64 then res s 2
  else match cmd, car with
    | 1, true => res (s.setFramer f { x with staged := x.carrier i }) 0
    | 1, false => res (s.setFramer f { x with staged := x.flow i }) 0
    | 2, true =>
      let w := ((List.range 16).map st).set 8 ((x.carrier i).getD 8 0) |>.set 9 ((x.carrier i).getD 9 0)
      if on then res s 1
      else if !carrierOk w then res s 2
      else res (s.setFramer f { x with carriers := insertKey i w x.carriers }) 0
    | 2, false =>
      let w := (List.range 4).map st ++ (x.flow i).drop 4
      if on then res s 1
      else if !flowOk w then res s 2
      else res (s.setFramer f { x with flows := insertKey i w x.flows }) 0
    | 3, true => if carrierOk (x.carrier i) then res (s.setFramer f { x with carrierOn := insertNat i x.carrierOn }) 0 else res s 2
    | 3, false => if flowOk (x.flow i) then res (s.setFramer f { x with flowOn := insertNat i x.flowOn }) 0 else res s 2
    | _, true =>
      res (s.setFramer f { x with
        carrierOn := x.carrierOn.filter (· != i)
        syms := x.syms.filter fun y => y.carrier != i
        halves := x.halves.filter fun y => y.carrier != i }) 0
    | _, false => res (s.setFramer f { x with flowOn := x.flowOn.filter (· != i) }) 0

def frmCmdBy (by_ : Agent) (f cmd : Nat) (s : State) : State :=
  if f ≥ 17 then s else s.onPage by_ (pgFrm f) Reg.FRM_TCMD fun s => s.frmCmd f cmd

/-- FRM_READ (R482). -/
def execFrmRead (by_ : Agent) (f : Nat) (s : State) : Host.Outcome State Fault Refusal := .next (frmCmdBy by_ f 1 s)
/-- FRM_WRITE (R440). -/
def execFrmWrite (by_ : Agent) (f : Nat) (s : State) : Host.Outcome State Fault Refusal := .next (frmCmdBy by_ f 2 s)
/-- FRM_ENABLE (R482). -/
def execFrmEnable (by_ : Agent) (f : Nat) (s : State) : Host.Outcome State Fault Refusal := .next (frmCmdBy by_ f 3 s)
/-- FRM_DISABLE (R482). -/
def execFrmDisable (by_ : Agent) (f : Nat) (s : State) : Host.Outcome State Fault Refusal := .next (frmCmdBy by_ f 4 s)

/-! ### Symbols (R41, R42, R444) -/

/-- A symbol: its air start, SLOT_T and number in the slot. -/
structure SymAt where
  start : Nat
  slot : Nat
  sym : Nat
deriving DecidableEq, Repr

/-- The symbol that frameId, subframeId, slotId and symbolId name, at the occurrence whose air start is nearest `t`. -/
def State.symNear (s : State) (g frame sub slot sym t : Nat) : Option SymAt :=
  let c := s.genCfg g
  let n := sub * (c.slots / 10) + slot + sym / c.syms
  let k := sym % c.syms
  let P : Int := 256 * tcFrame
  let s0 : Int := s.genOffset g + frame * tcFrame + c.start n k
  let at_ := s0 + (2 * ((t : Int) - s0) + P) / (2 * P) * P
  if sub ≥ 10 ∨ n ≥ c.slots ∨ at_ < (c.start n k - c.start n 0 : Nat) then none
  else some ⟨at_.toNat, at_.toNat - (c.start n k - c.start n 0), k⟩

/-- SFN and slot in frame of the slot that starts at an AIRTIME. -/
def State.slotAt (s : State) (g t : Nat) : Option (Nat × Nat) :=
  let c := s.genCfg g
  let x := t + tcFrame - s.genOffset g
  ((List.range c.slots).find? fun n => c.start n 0 == x % tcFrame).map fun n => ((x / tcFrame + 1023) % 1024, n)

/-- Air start of a symbol of the slot that starts at `t`. -/
def State.symOf (s : State) (g t k : Nat) : Option Nat :=
  (s.slotAt g t).bind fun e =>
    let c := s.genCfg g
    if k < c.syms then some (t + (c.start e.2 k - c.start e.2 0)) else none

/-! ### Uplink (R444 to R446, R52, R54) -/

/-- Does a section's udCompHdr name the flow's method and width (R442)? -/
def udOk (fl : List Word) (b : Byte) : Bool :=
  bitsOf b.toNat 4 4 == flW fl % 16 && bitsOf b.toNat 0 4 == [0, 1, 2, 4].getD (flComp fl) 0

/-- Sections of a U-plane message: first PRB, number of PRBs, data; whether each udCompHdr is the flow's, and whether the
message ends within a section. -/
def uSections (fl : List Word) (prbs : Nat) : Nat → List Byte → List (Nat × Nat × List Byte) × Bool × Bool
  | 0, _ => ([], true, false)
  | fuel + 1, bs =>
    if bs.length < 4 then ([], true, false)
    else
      let h := numBe (bs.take 4)
      let n := if bitsOf h 0 8 = 0 then prbs else bitsOf h 0 8
      let lo := if bitsOf h 0 8 = 0 then 0 else bitsOf h 8 10
      let bs := bs.drop 4
      let ok := !flHdr fl || udOk fl (bs.getD 0 0)
      let bs := if flHdr fl then bs.drop 2 else bs
      let len := n * wirePrb fl
      if !ok then ([], false, false)
      else if bs.length < len then ([], true, true)
      else
        let r := uSections fl prbs fuel (bs.drop len)
        ((lo, n, bs.take len) :: r.1, r.2)

def swapBytes : List Byte → List Byte
  | a :: b :: r => b :: a :: swapBytes r
  | r => r

/-- PRBs from the wire to staging (R443): byte swapping, blocks as they are, or block scaling undone. -/
def toStaging (fl : List Word) (n : Nat) (bs : List Byte) : List Byte :=
  match flComp fl with
  | 0 => swapBytes bs
  | 1 => bs
  | _ =>
    let w := flW fl
    (List.range n).flatMap fun i =>
      let b := (bs.drop (i * (1 + 3 * w))).take (1 + 3 * w)
      let sc : Int := (b.getD 0 0).toNat
      (bfpUnpack w b).2.1.flatMap fun m => leBytes 2 (pat 16 (narrow false (rnd false (m * sc * 2 ^ (16 - w)) 7) 16).1)

/-- The framer's symbol of a carrier at an air start. -/
def FramerSt.sym? (x : FramerSt) (c start : Nat) : Option SymSt := x.syms.find? fun y => y.carrier == c && y.start == start

/-- Sections that never became requests are lost: under POLICY SYMBOL the antenna's PRBs of the symbol are (R446). -/
def State.antLost (s : State) (f i start : Nat) : State :=
  s.sectionLost f ⟨i, flCarrier ((s.framer f).flow i), start, flAnt ((s.framer f).flow i), 0, 0, 0⟩

/-- The half of an uplink symbol, unless an older symbol still holds it (R54). -/
def State.claimUp (s : State) (f c : Nat) (y : SymSt) : State × Bool :=
  let x := s.framer f
  match x.half c (y.sym % 2) with
  | some h =>
    if h.slot = y.slot ∧ h.sym = y.sym then (s, true)
    else if h.full then (s, false)
    else (s.setFramer f (x.setHalf ⟨c, y.sym % 2, y.slot, y.sym, 0, true, false, 0⟩), true)
  | none => (s.setFramer f (x.setHalf ⟨c, y.sym % 2, y.slot, y.sym, 0, true, false, 0⟩), true)

/-- Requests for the PRBs of one section, each of at most 4,096 bytes (R396, R444). -/
def State.writeSection (s : State) (f i : Nat) (y : SymSt) (lo n : Nat) (data : List Byte) : State :=
  let fl := (s.framer f).flow i
  let ca := (s.framer f).carrier y.carrier
  let m := max 1 (4096 / caPrbBytes ca)
  (List.range ((n + m - 1) / m)).foldl
    (fun s j =>
      let k := min m (n - j * m)
      let r : ReqSrc := ⟨i, y.carrier, y.start, flAnt fl, lo + j * m, k, 0⟩
      let a := caAddr ca (y.sym % 2) (flAnt fl) (lo + j * m)
      let bs := (data.drop (j * m * caPrbBytes ca)).take (k * caPrbBytes ca)
      match s.raiseLine (8 * f + caLine ca) ⟨a, bs.length, bs, some r⟩ with
      | (s, true) => s.updSym f y.carrier y.start fun y => { y with got := y.got ++ r.pairs.filter fun p => !y.got.contains p }
      | (s, false) => s.sectionLost f r)
    s

/-- A U-plane message inside its window (R444, R445, R54): its sections go to staging. -/
def State.uProcess (s : State) (f i : Nat) (a : SymAt) (secs : List (Nat × Nat × List Byte)) (short : Bool) : State :=
  let fl := (s.framer f).flow i
  let c := flCarrier fl
  let ca := (s.framer f).carrier c
  let g := pgFrm f
  let s := s.count g Reg.FRM_TALLY_RX 1
  match (s.framer f).sym? c a.start with
  | none => s.flowTally f i 7 1
  | some y =>
    if y.posted ∨ y.closed.isSome then (s.flowTally f i 6 secs.length).count g Reg.FRM_TALLY_LATE secs.length
    else
      match s.claimUp f c y with
      | (s, false) => (s.carrierTally f c 9 secs.length).antLost f i a.start
      | (s, true) =>
        let s := secs.foldl
          (fun s e =>
            let lost := (((s.framer f).sym? c a.start).map fun y => y.lostAnt.contains (flAnt fl)) == some true
            if lost then s.flowTally f i 7 1
            else if e.1 + e.2.1 > caPrbs ca then s.antLost f i a.start
            else s.writeSection f i y e.1 e.2.1 (toStaging fl e.2.1 e.2.2))
          s
        if short then s.antLost f i a.start else s

/-- The message of a U-plane frame after PC_ID and SEQ_ID: its symbol, and its sections. -/
def State.uParse (s : State) (fl ca : List Word) (t : Nat) (b : List Byte) :
    Option SymAt × List (Nat × Nat × List Byte) × Bool × Bool :=
  let h := numBe ((b.drop 2).take 2)
  (s.symNear (caGen ca) (b.getD 1 0).toNat (bitsOf h 12 4) (bitsOf h 6 6) (bitsOf h 0 6) t,
    uSections fl (caPrbs ca) (b.length + 1) (b.drop 4))

/-- A U-plane frame is judged by its receive stamp (R442, R444). -/
def State.uJudge (s : State) (f i t : Nat) (b : List Byte) : State :=
  let x := s.framer f
  let g := pgFrm f
  let fl := x.flow i
  let c := flCarrier fl
  let ca := x.carrier c
  let h := (b.getD 0 0).toNat
  let p := s.uParse fl ca t b
  if bitsOf h 4 3 ≠ 1 ∨ !flowFits fl ca then (s.count g Reg.FRM_TALLY_UNSUPPORTED 1).flowTally f i 7 1
  else if bitsOf h 7 1 ≠ 0 ∨ !p.2.2.1 ∨ !x.carrierOn.contains c ∨ caDown ca then s.flowTally f i 7 1
  else
    match p.1 with
    | none => s.flowTally f i 7 1
    | some a =>
      let ws : Int := a.start + caWinStart ca
      let we : Int := a.start + caWinEnd ca
      let em : Int := s.fld g Reg.FRM_EARLY 0 24
      let t' : Int := t
      if t' < ws - em then ((s.flowTally f i 5 1).count g Reg.FRM_TALLY_EARLYDROP 1).antLost f i a.start
      else if t' < ws then
        let used := (x.early.map fun e => e.bytes.length).foldl (· + ·) 0
        if used + b.length > 262144 then (s.count g Reg.FRM_TALLY_EARLYDROP 1).antLost f i a.start
        else
          let s := s.flowTally f i 5 1
          let x := s.framer f
          s.setFramer f { x with early := x.early ++ [⟨i, ws.toNat, t, b⟩] }
      else if t' ≤ we then s.uProcess f i a p.2.1 p.2.2.2
      else (s.flowTally f i 6 1).count g Reg.FRM_TALLY_LATE 1

/-- The oldest frame that waits for a framer, if it is of the type; taken out. -/
def State.framerHead (s : State) (f ty : Nat) : Option (InFrame × State) :=
  match (s.framer f).inbox with
  | m :: rest =>
    if s.framerOn f ∧ ecpriType m.bytes = ty then some (m, s.setFramer f { s.framer f with inbox := rest }) else none
  | [] => none

/-- U_PLANE_FRAME (R444). -/
def execUPlaneFrame (f : Nat) (s : State) : Host.Outcome State Fault Refusal :=
  match s.framerHead f 0 with
  | some (m, s) => .next (s.uJudge f m.flow m.at_ ((ecpriBody m.bytes).drop 4))
  | none => .next s

/-- EARLY_RELEASE (R444): the first held frame whose window has opened. -/
def execEarlyRelease (f : Nat) (s : State) : Host.Outcome State Fault Refusal :=
  let x := s.framer f
  if !s.framerOn f then .next s
  else
    match x.early.find? fun e => decide (e.openAt ≤ s.airtime) with
    | none => .next s
    | some e =>
      let s := s.setFramer f { x with early := x.early.erase e }
      let fl := x.flow e.flow
      match s.uParse fl (x.carrier (flCarrier fl)) e.at_ e.bytes with
      | (some a, secs, _, short) => .next (s.uProcess f e.flow a secs short)
      | (none, _) => .next s

/-- The PRBs of a symbol that are missing when its window is over: those that never came, and under POLICY SYMBOL all of an
antenna that lacks one (R445, R446). -/
def FramerSt.missing (x : FramerSt) (y : SymSt) : List (Nat × Nat) :=
  let lacks := y.want.filter fun p => !y.got.contains p
  let whole (a : Nat) : Bool := x.flowOn.any fun i =>
    let fl := x.flow i
    !flDown fl && !flCplane fl && flCarrier fl == y.carrier && flAnt fl == a && flSymbolPolicy fl
  y.want.filter fun p => lacks.contains p || (whole p.1 && lacks.any fun q => q.1 == p.1)

/-- Zeros for the missing PRBs of a symbol (R52, R445). An older symbol that holds the half keeps it. -/
def State.closeSym (s : State) (f : Nat) (y : SymSt) : State :=
  let ca := (s.framer f).carrier y.carrier
  let miss := (s.framer f).missing y
  let s := match s.claimUp f y.carrier y with
    | (s, true) => miss.foldl
        (fun (s : State) (p : Nat × Nat) => (s.write (caAddr ca (y.sym % 2) p.1 p.2) (List.replicate (caPrbBytes ca) 0)).1) s
    | (s, false) => s
  (s.carrierTally f y.carrier 8 miss.length).updSym f y.carrier y.start fun y =>
    { y with got := y.got.filter fun p => !miss.contains p, closed := some miss.length }

/-- RX_WINDOW_CLOSE (R445): at s + WIN_END. -/
def execRxWindowClose (f c start : Nat) (s : State) : Host.Outcome State Fault Refusal :=
  if !s.framerOn f then .next s
  else match (s.framer f).sym? c start with
    | some y =>
      let we : Int := y.start + caWinEnd ((s.framer f).carrier c)
      if y.closed.isSome ∨ y.posted ∨ (s.airtime : Int) < we then .next s else .next (s.closeSym f y)
    | none => .next s

/-- SYMBOL_COMPLETE (R445, R451): every expected PRB is written, or the window is over, and no write is outstanding. -/
def execSymbolComplete (f c start : Nat) (s : State) : Host.Outcome State Fault Refusal :=
  if !s.framerOn f then .next s
  else match (s.framer f).sym? c start with
    | some y =>
      let done := y.closed.isSome || y.want.all y.got.contains
      if y.posted ∨ !done ∨ (s.framerReqs f).any (fun r => r.carrier == c && r.start == start) then .next s
      else
        let n := y.closed.getD 0
        let s := s.updSym f c start fun y => { y with closed := some n, posted := true }
        let x := s.framer f
        let s := s.setFramer f { x with syms := x.syms.filter fun y => !(y.posted && decide (y.start + tcFrame < s.airtime)) }
        .next (s.publish 0x02 f (w32 (0x50 * 2 ^ 24 + c % 64 * 2 ^ 18 + y.sym % 16 * 2 ^ 14 + min n 16383)) (s.owner (pgFrm f)))
    | none => .next s

/-! ### Notices (R447) -/

/-- A notice reaches a framer. -/
def State.framerNotice (s : State) (f c slot sym : Nat) : State :=
  let x := s.framer f
  let ca := x.carrier c
  let stale := s.count (pgFrm f) Reg.FRM_TALLY_STALE 1
  let h := sym % 2
  if !x.carrierOn.contains c then stale
  else if !caDown ca then
    match x.half c h with
    | some y =>
      if !y.full ∨ y.slot ≠ slot ∨ y.sym ≠ sym then stale
      else s.setFramer f (x.setHalf { y with notices := y.notices + 1, full := decide (y.notices + 1 < caNotices ca) })
    | none => stale
  else
    match s.symOf (caGen ca) slot sym with
    | none => stale
    | some start =>
      let s := s.halfSettle f c h
      let x := s.framer f
      let gone : Bool := decide ((start : Int) + caWinEnd ca < s.airtime) || decide (16 * slot + sym < lookupD 0 (2 * c + h) x.ended)
      match x.half c h with
      | some y =>
        if y.slot ≠ slot ∨ y.sym ≠ sym ∨ gone then s.count (pgFrm f) Reg.FRM_TALLY_STALE 1
        else s.setFramer f (x.setHalf { y with notices := y.notices + 1, full := decide (caNotices ca ≤ y.notices + 1) })
      | none =>
        if gone then s.count (pgFrm f) Reg.FRM_TALLY_STALE 1
        else s.setFramer f (x.setHalf ⟨c, h, slot, sym, 1, decide (caNotices ca ≤ 1), false, 0⟩)

/-- STAGING_NOTICE (R447): the n-th notice on its way arrives. A framer that is not serving loses it. -/
def execStagingNotice (n : Nat) (s : State) : Host.Outcome State Fault Refusal :=
  match s.links.notices[n]? with
  | none => .next s
  | some m =>
    let s := { s with links := { s.links with notices := s.links.notices.eraseIdx n } }
    .next (if s.framerOn m.framer then s.framerNotice m.framer m.carrier m.slot m.sym else s)

/-! ### C-plane messages (R445, R448) -/

/-- Length of the application header and of a section, by section type. -/
def cplaneHead (ty : Nat) : Nat := if ty = 1 ∨ ty = 5 ∨ ty = 6 then 8 else 12
def cplaneSect (ty : Nat) : Nat := if ty = 3 then 12 else 8

/-- What follows a section's extensions. -/
def cplaneExts : Nat → List Byte → List Byte
  | 0, bs => bs
  | fuel + 1, bs =>
    let rest := bs.drop (4 * max 1 (bs.getD 1 0).toNat)
    if bitOf (bs.getD 0 0).toNat 7 then cplaneExts fuel rest else rest

/-- startPrbc, numPrbc and numSymbol of each section. -/
def cplaneSections (ty : Nat) : Nat → List Byte → List (Nat × Nat × Nat)
  | 0, _ => []
  | n + 1, bs =>
    if bs.length < cplaneSect ty then []
    else
      let a := numBe (bs.take 4)
      let b := numBe ((bs.drop 4).take 4)
      let rest := bs.drop (cplaneSect ty)
      (bitsOf a 8 10, bitsOf a 0 8, bitsOf b 16 4) :: cplaneSections ty n (if bitOf b 15 then cplaneExts bs.length rest else rest)

/-- PRBs of an uplink symbol that become expected (R445). -/
def State.expectPrbs (s : State) (f c ant : Nat) (a : SymAt) (lo n : Nat) : State :=
  let x := s.framer f
  let ps := (List.range n).map fun j => (ant, lo + j)
  let x := if (x.sym? c a.start).isSome then x
    else { x with syms := x.syms ++ [⟨c, a.start, a.slot, a.sym, [], [], [], none, false⟩] }
  (s.setFramer f x).updSym f c a.start fun y => { y with want := y.want ++ ps.filter fun p => !y.want.contains p }

/-- An uplink C-plane message of section type 1 or 3 was sent on a flow: the receive flows of the same eAxC expect its PRBs. -/
def State.cplaneSent (s : State) (f i : Nat) (b : List Byte) : State :=
  let x := s.framer f
  let fl := x.flow i
  let ty := (b.getD 5 0).toNat
  let h := numBe ((b.drop 2).take 2)
  if bitOf (b.getD 0 0).toNat 7 ∨ (ty ≠ 1 ∧ ty ≠ 3) then s
  else
    let secs := cplaneSections ty (b.getD 4 0).toNat (b.drop (cplaneHead ty))
    let rx := x.flowOn.filter fun j =>
      !flDown (x.flow j) && !flCplane (x.flow j) && flPort (x.flow j) == flPort fl && flEaxc (x.flow j) == flEaxc fl
    rx.foldl
      (fun s j =>
        let c := flCarrier (x.flow j)
        let ca := x.carrier c
        secs.foldl
          (fun s e =>
            (List.range e.2.2).foldl
              (fun s k =>
                match s.symNear (caGen ca) (b.getD 1 0).toNat (bitsOf h 12 4) (bitsOf h 6 6) (bitsOf h 0 6 + k) s.airtime with
                | some a =>
                  if e.2.1 = 0 then s.expectPrbs f c (flAnt (x.flow j)) a 0 (caPrbs ca)
                  else s.expectPrbs f c (flAnt (x.flow j)) a e.1 (min e.2.1 (caPrbs ca - e.1))
                | none => s)
              s)
          s)
      s

/-! ### Frames that a framer sends -/

/-- A frame of a flow: Ethernet, tag, eCPRI header of a message type, payload (R448). -/
def State.flowFrame (s : State) (fl : List Word) (ty : Nat) (payload : List Byte) : List Byte :=
  let g := pgPort (flPort fl)
  beNum 6 (flPeer fl) ++ beNum 2 (s.fld g Reg.PORT_MAC_HI 0 16) ++ beNum 4 (s.reg g Reg.PORT_MAC_LO).toNat ++
    (if flVlan fl then [0x81, 0x00] ++ beNum 2 (flPcp fl * 2 ^ 13 + flVid fl) else []) ++
    [0xAE, 0xFE, 0x10, BitVec.ofNat 8 ty] ++ beNum 2 payload.length ++ payload

/-- PC_ID and the flow's next SEQ_ID, whole messages (R448). -/
def State.flowSeq (s : State) (f i : Nat) : State × List Byte :=
  let x := s.framer f
  let n := lookupD 0 i x.seqIds
  (s.setFramer f { x with seqIds := insertKey i ((n + 1) % 256) x.seqIds },
    beNum 2 (flEaxc (x.flow i)) ++ [BitVec.ofNat 8 n, 0x80])

/-! ### The command ring (R448) -/

def State.ringAt (s : State) (f : Nat) : Nat :=
  let g := pgFrm f
  (s.reg g Reg.FRM_RING_LO).toNat + 2 ^ 32 * s.fld g Reg.FRM_RING_HI 0 16 + 2048 * s.fld g Reg.FRM_RING_SIZE 16 12

/-- The entry at the head is done: VALID is written 0, and the head advances. -/
def State.ringNext (s : State) (f : Nat) (e : List Byte) : State :=
  let g := pgFrm f
  let s := (s.writeFor (s.owner g) (s.ringAt f) (leBytes 4 (setBits (ofLe (e.take 4)) 0 1 0))).1
  let n := s.fld g Reg.FRM_RING_SIZE 0 12
  let s := s.setFld g Reg.FRM_RING_SIZE 16 12 ((s.fld g Reg.FRM_RING_SIZE 16 12 + 1) % max 1 n)
  s.setFramer f { s.framer f with entry := none }

/-- RING_POLL: the framer reads the entry at its head. One of the reserved KIND is passed over. -/
def execRingPoll (f : Nat) (s : State) : Host.Outcome State Fault Refusal :=
  let g := pgFrm f
  if !s.framerOn f ∨ (s.framer f).entry.isSome ∨ s.fld g Reg.FRM_RING_SIZE 0 12 = 0 then .next s
  else
    match s.fetch (s.ringAt f) 2048 with
    | (s, .ok e) =>
      let w := ofLe (e.take 4)
      if !bitOf w 0 then .next s
      else if bitsOf w 1 2 = 3 then .next ((s.count g Reg.FRM_TALLY_UNSUPPORTED 1).ringNext f e)
      else .next (s.setFramer f { s.framer f with entry := some (e, s.airtime) })
    | (s, _) => .next s

/-- The entry read, if it is of a KIND and its TX_TIME has come. -/
def State.ringEntry (s : State) (f kind : Nat) : Option (List Byte × Nat) :=
  match (s.framer f).entry with
  | some (e, t) =>
    let tx := ofLe ((e.drop 8).take 8)
    if s.framerOn f ∧ bitsOf (ofLe (e.take 4)) 1 2 = kind ∧ (tx = 0 ∨ tx ≤ s.airtime) then some (e, t) else none
  | none => none

/-- CPLANE (R448). -/
def execCplane (f : Nat) (s : State) : Host.Outcome State Fault Refusal :=
  match s.ringEntry f 0 with
  | none => .next s
  | some (e, t) =>
    let g := pgFrm f
    let w := ofLe (e.take 4)
    let i := bitsOf w 3 8
    let x := s.framer f
    let fl := x.flow i
    let tx := ofLe ((e.drop 8).take 8)
    let b := (e.drop 64).take (bitsOf w 11 11)
    let ty := (b.getD 5 0).toNat
    if tx ≠ 0 ∧ tx + 65536 < t then
      let s := (s.count g Reg.FRM_TALLY_MISSED 1).publish 0x02 f (w32 (0x52 * 2 ^ 24 + i)) (s.owner g)
      .next (s.ringNext f e)
    else if ty ≠ 0 ∧ ty ≠ 1 ∧ ty ≠ 3 ∧ ty ≠ 5 ∧ ty ≠ 6 then .next ((s.count g Reg.FRM_TALLY_UNSUPPORTED 1).ringNext f e)
    else if !x.flowOn.contains i ∨ !flDown fl ∨ !flCplane fl then .next ((s.count g Reg.FRM_TALLY_NOFLOW 1).ringNext f e)
    else
      let q := s.flowSeq f i
      let s := q.1.egress (flPort fl) (flEq fl) ⟨q.1.flowFrame fl 2 (q.2 ++ b), none, none, some (f, i)⟩
      .next ((s.cplaneSent f i b).ringNext f e)

/-- A READY or RELEASE entry: a notice for a carrier that is worked by ring, of the direction. -/
def State.ringNotice (s : State) (f kind : Nat) : State :=
  match s.ringEntry f kind with
  | none => s
  | some (e, _) =>
    let w := ofLe ((e.drop 4).take 4)
    let c := bitsOf w 0 6
    let ca := (s.framer f).carrier c
    let s := if caByRing ca ∧ caDown ca = (kind == 1) then s.framerNotice f c (ofLe ((e.drop 16).take 8)) (bitsOf w 6 4)
      else s.count (pgFrm f) Reg.FRM_TALLY_STALE 1
    s.ringNext f e

/-- READY (R448). -/
def execReady (f : Nat) (s : State) : Host.Outcome State Fault Refusal := .next (s.ringNotice f 1)
/-- RELEASE (R448). -/
def execRelease (f : Nat) (s : State) : Host.Outcome State Fault Refusal := .next (s.ringNotice f 2)

/-! ### Downlink egress (R449, R450) -/

/-- The W-bit code of modulation compression (R450). -/
def modCode (w : Nat) (x : Int) : Nat :=
  let c := rnd false (x + (2 ^ w - 1) * 2 ^ (15 - w)) (16 - w)
  (max 0 (min c (2 ^ w - 1))).toNat

/-- PRBs from staging to the wire (R442, R443, R450). -/
def fromStaging (fl : List Word) (n : Nat) (bs : List Byte) : List Byte :=
  match flComp fl with
  | 0 => swapBytes bs
  | 3 =>
    let w := flW fl
    (List.range n).flatMap fun i =>
      let b := (bs.drop (48 * i)).take 48
      beNum (3 * w) ((List.range 24).foldl (fun a j => a * 2 ^ w + modCode w (sx 16 (ofLe ((b.drop (2 * j)).take 2)))) 0)
  | _ => bs

/-- Sections' OUT requests are raised while the carrier's line has room. -/
def State.raiseParts (s : State) (f c h start : Nat) : List ReqSrc → State
  | [] => s
  | r :: rs =>
    let ca := (s.framer f).carrier c
    let line := 8 * f + caLine ca
    if (s.lineReqs line).length ≥ 16 then s
    else
      let q : DmaReq := ⟨caAddr ca h r.ant r.prb, r.nprb * caPrbBytes ca, [], some { r with start := start }⟩
      let s := (s.raiseLine line q).1
      let x := s.framer f
      match x.half c h with
      | some y => (s.setFramer f (x.setHalf { y with next := y.next + 1 })).raiseParts f c h start rs
      | none => s

/-- EGRESS (R449): a ready half begins, or goes on, to be sent. -/
def execEgress (f c h : Nat) (s : State) : Host.Outcome State Fault Refusal :=
  let x := s.framer f
  let ca := x.carrier c
  match x.half c h with
  | none => .next s
  | some y =>
    match s.symOf (caGen ca) y.slot y.sym with
    | none => .next s
    | some start =>
      if !s.framerOn f ∨ !caDown ca ∨ !y.full ∨ (s.airtime : Int) < start + caWinStart ca then .next s
      else
        let s := s.setFramer f (x.setHalf { y with sending := true })
        let s := s.raiseParts f c h start ((s.txParts f c start).drop y.next)
        .next (s.halfSettle f c h)

/-- The last symbol that a half serves whose air start is not after `t`: SLOT_T and number. -/
def State.symDue (s : State) (g h : Nat) (t : Int) : Option (Nat × Nat) :=
  let c := s.genCfg g
  let m : Int := (t - s.genOffset g) / tcFrame
  let all : List (Int × Nat × Int) := (List.range 2).flatMap fun (j : Nat) => (List.range c.slots).flatMap fun (n : Nat) =>
    ((List.range c.syms).filter fun (k : Nat) => k % 2 == h).map fun (k : Nat) =>
      let base : Int := (s.genOffset g : Int) + (m - 1 + (j : Int)) * (tcFrame : Int)
      (base + (c.start n 0 : Int), k, base + (c.start n k : Int))
  ((all.filter fun e => decide (0 ≤ e.1) && decide (e.2.2 ≤ t)).getLast?).map fun e => (e.1.toNat, e.2.1)

/-- A symbol is missed (R449, R451). -/
def State.missSym (s : State) (f c sym : Nat) (x : FramerSt) : State :=
  let g := pgFrm f
  ((s.setFramer f x).count g Reg.FRM_TALLY_MISSED 1).publish 0x02 f
    (w32 (0x51 * 2 ^ 24 + c % 64 * 2 ^ 18 + sym % 16 * 2 ^ 14)) (s.owner g)

/-- EGRESS_MISSED (R449): the half is not ready at WIN_END, whether some notices have come for its symbol or none. -/
def execEgressMissed (f c h : Nat) (s : State) : Host.Outcome State Fault Refusal :=
  let x := s.framer f
  let ca := x.carrier c
  match x.half c h with
  | none =>
    if !s.framerOn f ∨ h ≥ 2 ∨ !x.carrierOn.contains c ∨ !caDown ca then .next s
    else match s.symDue (caGen ca) h (s.airtime - caWinEnd ca) with
      | some (slot, sym) =>
        if 16 * slot + sym < lookupD 0 (2 * c + h) x.ended then .next s else .next (s.missSym f c sym (x.endSym c h slot sym))
      | none => .next s
  | some y =>
    match s.symOf (caGen ca) y.slot y.sym with
    | none => .next s
    | some start =>
      if !s.framerOn f ∨ !caDown ca ∨ y.full ∨ (s.airtime : Int) < start + caWinEnd ca then .next s
      else .next (s.missSym f c y.sym (x.freeHalf c h))

/-- The bytes of an OUT request reach the framer (R397, R449): one frame, in the flow's egress queue. Its sectionId is a
free value. -/
def State.framerOut (s : State) (line : Nat) (r : ReqSrc) (out : List Byte) : State :=
  let f := line / 8
  let x := s.framer f
  let fl := x.flow r.flow
  let ca := x.carrier r.carrier
  let h := x.halves.find? fun y => y.carrier == r.carrier && s.symOf (caGen ca) y.slot y.sym == some r.start
  match h.bind fun y => (s.slotAt (caGen ca) y.slot).map fun e => (y, e) with
  | none => s
  | some (y, sfn, n) =>
    let per := (s.genCfg (caGen ca)).slots / 10
    let q := s.flowSeq f r.flow
    let id := q.1.fresh 12
    let whole := r.prb == 0 && r.nprb == caPrbs ca
    let sect := id.1.toNat * 2 ^ 20 + r.prb * 2 ^ 8 + (if whole && decide (255 < r.nprb) then 0 else r.nprb)
    let b := [0x90, BitVec.ofNat 8 sfn] ++ beNum 2 (n / per * 2 ^ 12 + n % per * 2 ^ 6 + y.sym) ++ beNum 4 sect ++
      (if flHdr fl then [BitVec.ofNat 8 (flW fl % 16 * 16 + [0, 1, 2, 4].getD (flComp fl) 0), 0] else []) ++
      fromStaging fl r.nprb out
    id.2.egress (flPort fl) (flEq fl) ⟨id.2.flowFrame fl 0 (q.2 ++ b), none, some (f, r.carrier, y.half), some (f, r.flow)⟩

/-! ### Takeover (R452, R573) -/

/-- FRAMER_TAKEOVER: framer #16, if it is free, takes over a failed framer at once; its rise goes on as `how` says. -/
def execFramerTakeover (f : Nat) (how : RiseHow) (s : State) : Host.Outcome State Fault Refusal :=
  let p := pgFrm f
  if f ≥ 16 ∨ s.part p ≠ stFaulted ∨ (s.identity p).isNone ∨ s.part (pgFrm 16) ≠ stDown ∨
      (s.identity (pgFrm 16)).isSome ∨ s.ward.stopped ∨ s.mode = modeSafe then .next s
  else .next (s.replace p how)

/-! ### One-way delay (R453) -/

/-- The head of the inbox, if it is a one-way delay message of an action type. -/
def State.owdHead (s : State) (f act : Nat) : Option (InFrame × List Byte × State) :=
  match s.framerHead f 5 with
  | some (m, s) =>
    let b := ecpriBody m.bytes
    if (b.getD 1 0).toNat = act then some (m, b, s) else none
  | none => none

/-- A one-way delay message goes out on a flow's queue: measurement ID, action, PTP time of `t`, no correction. -/
def State.owdSend (s : State) (i f id act t : Nat) : State :=
  let fl := (s.framer f).flow i
  let b := [BitVec.ofNat 8 id, BitVec.ofNat 8 act] ++ beNum 6 (ptpTime t).1 ++ beNum 4 (ptpTime t).2 ++ beNum 8 0
  s.egress (flPort fl) (flEq fl) ⟨s.flowFrame fl 5 b, none, none, some (f, i)⟩

/-- OWD_REQUEST: answered with the request's receive time. -/
def execOwdRequest (f : Nat) (s : State) : Host.Outcome State Fault Refusal :=
  match s.owdHead f 0 with
  | some (m, b, s) => .next (s.owdSend m.flow f (b.getD 0 0).toNat 2 m.at_)
  | none => .next s

/-- OWD_RESPONSE: the delay t2 − t1 + tCV is recorded, and OWD_RESULT posted. -/
def execOwdResponse (f : Nat) (s : State) : Host.Outcome State Fault Refusal :=
  match s.owdHead f 2 with
  | some (m, b, s) =>
    let id := (b.getD 0 0).toNat
    let x := s.framer f
    match lookup? id x.owd with
    | none => .next s
    | some t1 =>
      let t2 := ptpToTc (numBe ((b.drop 2).take 6)) (numBe ((b.drop 8).take 4))
      let cv := (sx 64 (numBe ((b.drop 12).take 8)) * tcSecond + 2 ^ 15 * 10 ^ 9) / (2 ^ 16 * 10 ^ 9)
      let s := s.setFramer f { x with owd := eraseKey id x.owd }
      let s := s.setReg (pgFrm f) Reg.FRM_OWD (BitVec.ofInt 32 (t2 - t1 + cv))
      .next (s.publish 0x02 f (w32 (0x53 * 2 ^ 24 + m.flow % 256)) (s.owner (pgFrm f)))
  | none => .next s

/-- OWD_REMOTE_REQUEST: the framer sends a request at once. -/
def execOwdRemoteRequest (f : Nat) (s : State) : Host.Outcome State Fault Refusal :=
  match s.owdHead f 3 with
  | some (m, b, s) =>
    let id := (b.getD 0 0).toNat
    let s := s.setFramer f { s.framer f with owd := insertKey id s.airtime (s.framer f).owd }
    .next (s.owdSend m.flow f id 0 s.airtime)
  | none => .next s

end Sys2Proof.Machine
end

