-- ==== Sys2Proof/Machine/Cpri.lean ====
section
/-!
DEFINITION. Sys2Proof/Machine/Cpri.lean: the CPRI buffers of the lane groups (R454 to R456, R481), the requests that requesters raise
(R396, R397), and what an OUT burst delivers.
-/
namespace Sys2Proof.Machine

/-- Buffer `b` = 4o + j: its page and its registers. -/
def cpriPg (b : Nat) : Page := pgLng (b / 4)
def cpriReg (b : Nat) : Nat := Reg.LNG_CPRI + 8 * (b % 4)
def State.cpriFld (s : State) (b lo w : Nat) : Nat := s.fld (cpriPg b) (cpriReg b) lo w
def State.cpriOn (s : State) (b : Nat) : Bool := decide (b < 32) && s.serving (cpriPg b) && s.cpriFld b 0 1 == 1
def State.cpriIqw (s : State) (b : Nat) : Nat := s.cpriFld b 17 5
def State.cpriBurst (s : State) (b : Nat) : Nat := s.fld (cpriPg b) (Reg.LNG_CPRI_BURST + 8 * (b % 4)) 0 13
/-- The port that runs on the buffer's lane. -/
def State.cpriPort (s : State) (b : Nat) : Nat := b / 4 * 8 + s.cpriFld b 2 3

/-- The 16-bit components that little-endian bytes hold. -/
def comps (bs : List Byte) : List Int := (List.range (bs.length / 2)).map fun i => sx 16 (ofLe ((bs.drop (2 * i)).take 2))

/-- Wire components to memory: v × 2^(16 − IQW) (R455). -/
def cpriIn (w : Nat) (bs : List Byte) : List Byte := (comps bs).flatMap fun v => leBytes 2 (pat 16 (v * 2 ^ (16 - w)))

/-- Memory components to the wire: narrow(rnd(x, 16 − IQW), IQW) (R455). -/
def cpriOut (w : Nat) (bs : List Byte) : List Byte :=
  (comps bs).flatMap fun x => leBytes 2 (pat 16 (narrow false (rnd false x (16 - w)) w).1)

/-- Requests carrying BURST bytes each are raised while a receive buffer holds them; at a full line the basic frames of the
burst are dropped (R397, R455). -/
def cpriRaise : Nat → State → Nat → State
  | 0, s, _ => s
  | fuel + 1, s, b =>
    let x := s.cpriSt b
    let n := s.cpriBurst b
    if n = 0 ∨ x.rx.length < n then s
    else
      let s := s.setCpri b { x with rx := x.rx.drop n }
      cpriRaise fuel (s.raiseLine (224 + b) ⟨0, 0, x.rx.take n, none⟩).1 b

/-- Samples reach a receive buffer, or a transmit buffer asks for BURST bytes (R455). -/
def State.cpriRequest (s : State) (b : Nat) (data : List Byte) : State :=
  if !s.cpriOn b then s
  else if s.cpriFld b 1 1 = 1 then (s.raiseLine (224 + b) DmaReq.plain).1
  else
    let x := s.cpriSt b
    let rx := x.rx ++ cpriIn (s.cpriIqw b) data
    cpriRaise (rx.length + 1) (s.setCpri b { x with rx := rx }) b

/-- DMA_REQUEST (R397): a requester raises a request on its line. For a lane group's line, `data` is the components its
buffer receives, one 16-bit number each; an FDC's and the time base's requests carry nothing (R396). -/
def execDmaRequest (line addr len : Nat) (data : List Byte) (s : State) : Host.Outcome State Fault Refusal :=
  if line ≥ 256 ∨ s.quiet ∨ !s.pins.on then .next s
  else if line ≥ 224 then .next (s.cpriRequest (line - 224) data)
  else if addressed line then
    if len = 0 ∨ len > 4096 then .next s
    else .next (s.raiseLine line ⟨addr, len, (data ++ List.replicate len 0).take len, none⟩).1
  else .next (s.raiseLine line DmaReq.plain).1

/-- The bytes of an OUT burst reach the requester (R397): a framer's section, or a CPRI transmit buffer. -/
def State.deliverOut (s : State) (line : Nat) (r : DmaReq) (out : List Byte) : State :=
  if line < 136 then
    match r.src with
    | some x => if flDown ((s.framer (line / 8)).flow x.flow) then s.framerOut line x out else s
    | none => s
  else if 224 ≤ line ∧ line < 256 then
    let b := line - 224
    let x := s.cpriSt b
    s.setCpri b { x with tx := x.tx ++ out }
  else s

/-- CPRI_UNDERRUN (R455): a transmit buffer has sent what it held and runs empty; it sends zeros. -/
def execCpriUnderrun (b : Nat) (s : State) : Host.Outcome State Fault Refusal :=
  let p := s.cpriPort b
  if !s.cpriOn b ∨ s.cpriFld b 1 1 = 0 ∨ !s.serving (pgPort p) ∨ s.fld (pgPort p) Reg.PORT_CFG 0 3 ≠ 7 then .next s
  else
    let x := s.cpriSt b
    let s := s.send p (cpriOut (s.cpriIqw b) x.tx ++ List.replicate (4 * s.cpriFld b 12 5) 0)
    .next ((s.setCpri b { x with tx := [] }).count (pgPort p) Reg.PORT_TALLY_UNDERRUN 1)

/-- HYPERFRAME (R454, R456): the hyperframe of BFN 0 starts at a frame boundary of the port's generator; a boundary received
`sub` Tc after the AIRTIME of the clock cycle gives the round trip. -/
def execHyperframe (p : Nat) (received : Bool) (sub : Nat) (s : State) : Host.Outcome State Fault Refusal :=
  let g := pgPort p
  if p ≥ 32 ∨ !s.serving g ∨ s.fld g Reg.PORT_CFG 0 3 ≠ 7 then .next s
  else if received then
    match (s.mac p).hyper with
    | some t => .next (s.setFld g Reg.PORT_CPRI_RTT 0 24 ((s.airtime + sub % 4 - t) % 2 ^ 24))
    | none => .next s
  else
    let x := (s.airtime + tcFrame - s.genOffset (s.fld g Reg.PORT_CFG 26 6)) % tcFrame
    if x > 5 then .next s else .next (s.setMac p { s.mac p with hyper := some (s.airtime - x) })

end Sys2Proof.Machine
end

