-- ==== Sys2Proof/Machine/Realvin.lean ====
section
/-!
DEFINITION. Sys2Proof/Machine/Realvin.lean: the Realvin links (R468 to R479, R484): training and roles, packets and retry, lanes,
windows, the queue map and the event filters. What a link sends is in Sys2Proof.Machine.Ops and FabricOps.
-/
namespace Sys2Proof.Machine

/-! ### State of a link -/

/-- Is the link's part up? -/
def State.rvOn (s : State) (n : Nat) : Bool := decide (n < 8) && s.serving (pgRv n)
def State.rvLead (s : State) (n : Nat) : Bool := s.fld (pgRv n) Reg.RV_STATE 2 1 == 1
def State.rvActive (s : State) (n : Nat) : Nat := s.fld (pgRv n) Reg.RV_STATE 8 8
/-- Lanes in a mask. -/
def popcount8 (m : Nat) : Nat := ((List.range 8).filter (bitOf m)).length
/-- REPLAY_TIMEOUT in force: the LEAD end's (R471, R475). -/
def State.rvTimeout (s : State) (n : Nat) : Nat :=
  if s.rvLead n then s.fld (pgRv n) Reg.RV_TIMERS 0 16 else (s.rv n).timeout

/-- A link event (R479). -/
def State.rvEvent (s : State) (n code hi lo : Nat) : State :=
  s.publish 0x08 n (w32 (code * 2 ^ 24 + hi % 256 * 2 ^ 16 + lo % 65536)) (s.owner (pgRv n))

/-- The set of active lanes, and WIDTH. -/
def State.setActive (s : State) (n m : Nat) : State :=
  (s.setFld (pgRv n) Reg.RV_STATE 8 8 m).setFld (pgRv n) Reg.RV_STATE 3 4 (popcount8 m)

/-- Packets waiting enter the replay buffer, and FORWARD queues go on. -/
def rvFill : Nat → State → Nat → State
  | 0, s, _ => s
  | fuel + 1, s, n =>
    let x := s.rv n
    match x.wait with
    | [] => s
    | b :: r => if x.replay.length ≥ 2048 then s
      else
        let k : RvPkt := ⟨x.txSeq, b, s.airtime⟩
        let s := if s.rvLink n = 2 then s.send (rvPort n) (x.packet k) else s
        rvFill fuel (s.setRv n { x with replay := x.replay ++ [k], wait := r, txSeq := (x.txSeq + 1) % 4096 }) n

/-- Every FORWARD queue of the link is pumped. -/
def State.rvPumpAll (s : State) (n : Nat) : State :=
  (List.range 256).foldl
    (fun s e =>
      let w := (s.rv n).entry 2 e
      if wfld w 0 20 2 = 1 then s.rvPump n e (wfld w 0 0 20) else s)
    s

/-! ### Acknowledgement and replay (R471) -/

/-- The peer accepted a packet: a FORWARD descriptor leaves its queue, whose COUNT falls (R477). -/
def State.rvAccepted (s : State) (b : RvBody) : State :=
  match b with
  | .enqueue _ _ _ q false sn => (s.delItem sn).stallEnd q
  | _ => s

/-- ACK: everything up to a SEQ is acknowledged. -/
def State.rvAck (s : State) (n ack : Nat) : State :=
  let x := s.rv n
  match x.replay.findIdx? fun k => k.seq == ack with
  | none => s
  | some i =>
    let gone := x.replay.take (i + 1)
    let s := s.setRv n { x with replay := x.replay.drop (i + 1), replays := 0 }
    let s := gone.foldl (fun s k => s.rvAccepted k.body) s
    let s := rvFill ((s.rv n).wait.length + 1) s n
    s.rvPumpAll n

/-- Every packet from the first unacknowledged one is sent again. -/
def State.rvReplay (s : State) (n : Nat) : State :=
  let x := s.rv n
  if x.replay.isEmpty ∨ s.rvLink n ≠ 2 then s
  else
    let s := x.replay.foldl (fun s k => s.send (rvPort n) (x.packet k)) s
    let s := s.setRv n { x with replays := x.replays + 1, replay := x.replay.map fun k => { k with sentAt := s.airtime } }
    s.count (pgRv n) Reg.RV_TALLY_REPLAY x.replay.length

/-- An IDLE packet with our ACK, and a NAK. -/
def State.rvIdle (s : State) (n : Nat) (nak : Bool) : State :=
  let x := s.rv n
  s.send (rvPort n) (rvPacket 0 x.txSeq x.ack nak 0 [])

/-- The header of a packet as a number, and whether the packet is whole: its length and CRC. -/
def rvHead (pkt : List Byte) : Nat := ofLe (pkt.take 32)
def rvIntact (pkt : List Byte) : Bool :=
  let h := rvHead pkt
  pkt.length == 32 * (1 + bitsOf h 29 4) && crc32 (leBytes 32 (h % 2 ^ 224) ++ pkt.drop 32) == h / 2 ^ 224

/-- A packet of a TYPE arrives (R471): a damaged one, or one behind a gap, is discarded and NAKed; one received before is
discarded; its ACK and NAK are taken; the next in SEQ order is applied by `k`. -/
def State.rvRx (s : State) (n ty : Nat) (pkt : List Byte) (k : State → Nat → List Byte → State) : State :=
  if !s.rvOn n ∨ s.rvLink n ≠ 2 then s
  else if !rvIntact pkt then (s.count (pgRv n) Reg.RV_TALLY_CRC 1).rvIdle n true
  else
    let h := rvHead pkt
    if bitsOf h 0 4 ≠ ty then s
    else
      let s := s.rvAck n (bitsOf h 16 12)
      let s := if bitOf h 28 then s.rvReplay n else s
      let x := s.rv n
      let d := (bitsOf h 4 12 + 4096 - x.rxSeq) % 4096
      if ty = 0 ∨ ty = 4 then s
      else if d = 0 then
        let s := s.setRv n { x with rxSeq := (x.rxSeq + 1) % 4096 }
        k (s.rvIdle n false) h (pkt.drop 32)
      else if d < 2048 then s.rvIdle n true
      else s.rvIdle n false

/-- RV_WRITE (R476): a WRITE packet lands inside an inbound window, or is rejected. -/
def execRvWrite (n : Nat) (pkt : List (BitVec 8)) (s : State) : Host.Outcome State Fault Refusal :=
  .next (s.rvRx n 1 pkt fun s h d =>
    let a := bitsOf h 33 48
    let len := bitsOf h 81 16
    let inside := (List.range 8).any fun w =>
      let t := (s.rv n).entry 1 w
      let base := (t.getD 0 0).toNat + (t.getD 1 0).toNat * 2 ^ 32
      decide (base ≤ a) && decide (a + len ≤ base + (t.getD 2 0).toNat * 4096)
    if !inside ∨ len = 0 ∨ len > 256 ∨ d.length < len then s.count (pgRv n) Reg.RV_TALLY_INREJECT 1
    else (s.writeFor (s.owner (pgRv n)) a (d.take len)).1)

/-- RV_ENQUEUE (R477): an ENQUEUE packet is enqueued on PEER_Q as the link's function. A full STALL queue stalls the channel. -/
def execRvEnqueue (n : Nat) (pkt : List (BitVec 8)) (s : State) : Host.Outcome State Fault Refusal :=
  .next (s.rvRx n 2 pkt fun s h d =>
    let ws := (List.range 16).map fun i => w32 (ofLe ((d.drop (4 * i)).take 4))
    let x := s.rv n
    let todo := x.stalled ++ [.enqueue (bitsOf h 33 20) ws (s.owner (pgRv n)) 0 false 0]
    rvDeliver todo (s.setRv n { x with stalled := [] }) n)

/-- RV_EVENT (R478): a forwarded event is published as the link's. -/
def execRvEvent (n : Nat) (pkt : List (BitVec 8)) (s : State) : Host.Outcome State Fault Refusal :=
  .next (s.rvRx n 3 pkt fun s h _ => s.publish 0x08 n (w32 (bitsOf h 33 32)) (s.owner (pgRv n)))

/-- REPLAY (R471): an IDLE or CONTROL packet brings an ACK and, with NAK, makes the link replay. -/
def execReplay (n : Nat) (pkt : List (BitVec 8)) (s : State) : Host.Outcome State Fault Refusal :=
  .next (s.rvRx n (if bitsOf (rvHead pkt) 0 4 = 4 then 4 else 0) pkt fun s _ _ => s)

/-- REPLAY_TIMEOUT (R471). -/
def execReplayTimeout (n : Nat) (s : State) : Host.Outcome State Fault Refusal :=
  match (s.rv n).replay with
  | [] => .next s
  | k :: _ => if !s.rvOn n ∨ s.airtime < k.sentAt + s.rvTimeout n then .next s else .next (s.rvReplay n)

/-! ### Training and roles (R474, R475) -/

/-- The link retrains: its replay buffer is kept. -/
def State.rvRetrain (s : State) (n : Nat) : State :=
  let s := s.setFld (pgRv n) Reg.RV_STATE 0 2 3
  (s.setRv n { s.rv n with replays := 0, retrainAt := s.airtime }).rvEvent n 0x76 0 0

/-- RETRAIN (R471): four replays without progress. -/
def execRetrain (n : Nat) (s : State) : Host.Outcome State Fault Refusal :=
  if !s.rvOn n ∨ s.rvLink n ≠ 2 ∨ (s.rv n).replays < 4 then .next s else .next (s.rvRetrain n)

/-- LINK_DOWN (R471): retraining has failed within 100 ms. -/
def execLinkDown (n : Nat) (s : State) : Host.Outcome State Fault Refusal :=
  if n ≥ 8 ∨ s.rvLink n ≠ 3 ∨ s.airtime < (s.rv n).retrainAt + 196608000 then .next s else .next (s.rvDown n)

/-- TRAINING (R474): training ends with the peer's claim, its ID and timers, and the lanes found aligned. -/
def execTraining (n : Nat) (lead : Bool) (peer : BitVec 64) (timeout : BitVec 16) (lanes : Nat) (s : State) :
    Host.Outcome State Fault Refusal :=
  let p := pgRv n
  let m := ((List.range 8).filter fun i =>
    bitOf lanes i && s.fld p Reg.RV_CFG (8 + i) 1 == 1 && s.ready (pgLane (8 * n + i))).foldl (fun a i => a + 2 ^ i) 0
  if n ≥ 8 ∨ m = 0 ∨ s.rvLink n = 2 ∨ (s.part p ≠ stRising ∧ !s.serving p) then .next s
  else
    let claim := s.fld p Reg.RV_CFG 0 1 == 1
    let same := claim == lead
    let mine := if same then decide (s.reg64 pgWard Reg.WRD_DEVICE_ID_LO > peer.toNat) else claim
    let again := s.rvLink n == 3
    let s := s.setReg64 p Reg.RV_PEER_ID_LO peer.toNat
    let s := s.setActive n m
    let s := (s.setFld p Reg.RV_STATE 2 1 (bit mine)).setFld p Reg.RV_STATE 0 2 2
    let s := s.setRv n { s.rv n with timeout := timeout.toNat, replays := 0 }
    let s := if s.part p = stRising then s.partUp p else s
    let s := s.rvEvent n 0x70 (popcount8 m) (bit mine)
    let s := if same then (s.setFld p Reg.RV_SWAP 2 2 3).rvEvent n 0x74 2 (bit mine) else s
    let s := if again then
        let x := s.rv n
        let s := x.replay.foldl (fun s k => s.send (rvPort n) (x.packet k)) s
        s.count p Reg.RV_TALLY_REPLAY x.replay.length
      else s
    .next (s.rvPumpAll n)

/-- RV_SWAP.REQ written (R475): discarded unless the link is up. -/
def State.rvSwapReq (s : State) (n : Nat) : State :=
  if s.rvLink n ≠ 2 then s
  else (s.setFld (pgRv n) Reg.RV_SWAP 1 1 1).setRv n { s.rv n with swapOut := true }

/-- SWAP_REQ (R475). -/
def execSwapReq (by_ : Agent) (n : Nat) (s : State) : Host.Outcome State Fault Refusal :=
  if n ≥ 8 then .next s else .next (s.onPage by_ (pgRv n) Reg.RV_SWAP fun s => s.rvSwapReq n)

/-- SWAP_ACK (R475): the peer's answer to our request, the peer's request while ours is outstanding (`request`), which merges
with it, or the peer's request alone, which we answer: the roles exchange once. -/
def execSwapAck (n : Nat) (request : Bool) (timeout : BitVec 16) (s : State) : Host.Outcome State Fault Refusal :=
  let ours := (s.rv n).swapOut
  if !s.rvOn n ∨ s.rvLink n ≠ 2 ∨ (!ours ∧ !request) then .next s
  else
    let merged := ours && request
    let role := bit (!s.rvLead n)
    let p := pgRv n
    let s := (s.setFld p Reg.RV_STATE 2 1 role).setFld p Reg.RV_SWAP 1 3 ((if merged then 2 else 1) * 2)
    let s := s.setRv n { s.rv n with swapOut := false, timeout := timeout.toNat }
    .next (s.rvEvent n 0x74 (bit merged) role)

/-! ### Lanes and the elastic buffer (R470, R473) -/

/-- SILT_ADJUST (R470): at a frame end, by the elastic buffer's fill against half. -/
def execSiltAdjust (n : Nat) (above below : Bool) (s : State) : Host.Outcome State Fault Refusal :=
  if !s.rvOn n ∨ s.rvLink n ≠ 2 then .next s
  else if above then .next (s.count (pgRv n) Reg.RV_TALLY_SILTDEL 1)
  else if below then .next (s.count (pgRv n) Reg.RV_TALLY_SILTINS 1)
  else .next s

/-- LANE_REMOVED (R473): the last lane is not removed; the link retrains. -/
def execLaneRemoved (n lane : Nat) (s : State) : Host.Outcome State Fault Refusal :=
  let m := s.rvActive n
  if !s.rvOn n ∨ s.rvLink n ≠ 2 ∨ lane ≥ 8 ∨ !bitOf m lane then .next s
  else if popcount8 m = 1 then .next (s.rvRetrain n)
  else
    let s := (s.setActive n (m - 2 ^ lane)).count (pgRv n) Reg.RV_TALLY_LANECHG 1
    .next (s.rvEvent n 0x72 lane (popcount8 m - 1))

/-- LANE_ADDED (R473): a lane of the link that is READY and aligned again. -/
def execLaneAdded (n lane : Nat) (s : State) : Host.Outcome State Fault Refusal :=
  let m := s.rvActive n
  let l := pgLane (8 * n + lane)
  if !s.rvOn n ∨ s.rvLink n ≠ 2 ∨ lane ≥ 8 ∨ bitOf m lane ∨ s.fld (pgRv n) Reg.RV_CFG (8 + lane) 1 = 0 ∨ !s.ready l ∨
      s.fld l Reg.LN_ALIGN 2 1 = 0 then .next s
  else
    let s := (s.setActive n (m + 2 ^ lane)).count (pgRv n) Reg.RV_TALLY_LANECHG 1
    .next (s.rvEvent n 0x73 lane (popcount8 m + 1))

/-! ### The table window (R484) -/

/-- Entries and words of each table. -/
def rvTable (t : Nat) : Nat × Nat := [(16, 5), (8, 3), (256, 2), (16, 4)].getD t (0, 0)

/-- RV_TDATA written. -/
def State.rvStage (s : State) (n : Nat) (v : Word) : State :=
  let x := s.rv n
  s.setRv n { x with staged := ((x.staged ++ List.replicate 8 0).take 8).set (s.fld (pgRv n) Reg.RV_TSEL 10 3) v }

/-- Is a staged entry in range: no bit outside the fields of a map entry? -/
def rvEntryOk (t : Nat) (w : List Word) : Bool :=
  t != 2 || (wfld w 0 22 10 == 0 && wfld w 1 20 12 == 0)

/-- RV_TCMD: 1 READ, 2 WRITE. -/
def State.rvTcmd (s : State) (n cmd : Nat) : State :=
  let p := pgRv n
  let x := s.rv n
  let t := s.fld p Reg.RV_TSEL 8 2
  let i := s.fld p Reg.RV_TSEL 0 8
  let k := rvTable t
  let old := x.entry t i
  let new := (List.range k.2).map fun j => x.staged.getD j 0
  let busy (w : List Word) : Bool := t == 2 && wfld w 0 20 2 == 1 && s.qCount (wfld w 0 0 20) != 0
  let res (s : State) (r : Nat) : State := s.setFld p Reg.RV_TCMD 3 2 r
  if cmd ≠ 1 ∧ cmd ≠ 2 then s
  else if i ≥ k.1 then res s 1
  else if cmd = 1 then res (s.setRv n { x with staged := old }) 0
  else if !rvEntryOk t new then res s 1
  else if busy old ∨ busy new then res s 2
  else res (s.setRv n { x with tables := insertKey (256 * t + i) new x.tables }) 0

/-- RV_TCMD_READ (R484). -/
def execRvTcmdRead (by_ : Agent) (n : Nat) (s : State) : Host.Outcome State Fault Refusal :=
  if n ≥ 8 then .next s else .next (s.onPage by_ (pgRv n) Reg.RV_TCMD fun s => s.rvTcmd n 1)
/-- RV_TCMD_WRITE (R484). -/
def execRvTcmdWrite (by_ : Agent) (n : Nat) (s : State) : Host.Outcome State Fault Refusal :=
  if n ≥ 8 then .next s else .next (s.onPage by_ (pgRv n) Reg.RV_TCMD fun s => s.rvTcmd n 2)

end Sys2Proof.Machine
end

