-- ==== Sys2Proof/Machine/Power.lean ====
section
/-!
DEFINITION. Sys2Proof/Machine/Power.lean: device modes (R513, R514), REST and wake (R518 to R523), pad groups (R524, R525), the
octant supplies (R527 to R534) and temperature (R535 to R538).
-/
namespace Sys2Proof.Machine

/-! ### Modes -/

/-- Every executor idle, no burst in flight, no Realvin packet outstanding (R520 step 4). -/
def State.workDone (s : State) : Bool :=
  (s.cores.all fun e => e.2.run == .idle) &&
    (s.fab.items.all fun i => !(i.phase == .dispatched && (match i.exec with
      | some (.engine _ _) => true
      | _ => false))) &&
    (s.dmaChans.all fun e => e.2.flight.isEmpty) && (s.links.rv.all fun e => e.2.replay.isEmpty && e.2.wait.isEmpty)

/-- Steps 5 to 7 of REST entry (R520): READY lanes are RETAINED, though not by a command; pads are held; rails fall. -/
def State.restEnter (s : State) (r : RestInfo) : State :=
  let s := (pagesOf .lane).foldl
    (fun s p => if s.ready p then (((s.setPart p stRetained).setFld p Reg.PG_STATE 8 3 0).rxSettle p.ix) else s) s
  let s := s.holdPads 0x7FF
  let s := (pagesOf .octant).foldl
    (fun s p => (s.setFld p Reg.PWR_OCT_STATE 11 1 1).setFld p Reg.PWR_OCT_VOLT 0 10 550) s
  let s := { s with rest := some { r with done := true } }
  (s.setMode modeRest).devResult 0 0

/-- REST entry goes on once the work is done. -/
def State.restGoes (s : State) : State :=
  match s.rest with
  | some r => if r.done ∨ !s.workDone then s else s.restEnter r
  | none => s

/-- A wake source (R520, R522, R523): it abandons REST entry, or ends REST: the mode that was left, with WAKE_CAUSE. -/
def State.wake (s : State) (cause : Nat) : State :=
  match s.rest with
  | none => s
  | some r =>
    if !r.done then s.restAbandon 3
    else
      let s := (pagesOf .octant).foldl (fun s p => s.railOn p.ix) s
      let s := { s with rest := none }.setFld pgDevice Reg.DEV_MODE 12 3 cause
      s.setMode r.mode

/-- Is every part of the data and control planes DOWN or TENDING (R513)? -/
def State.planesOff (s : State) : Bool :=
  (planeKinds.flatMap pagesOf).all fun p => s.part p == stDown || s.part p == stTending || s.part p == stAbsent

/-- DEV_CMD as R541 codes it (R513, R514, R519). -/
def State.devCmd (s : State) (cmd : Nat) : State :=
  let m := s.mode
  let taken (s : State) : State := s.setFld pgDevice Reg.DEV_MODE 5 3 cmd
  if cmd = 0 ∨ cmd > 5 then s
  else if cmd = 3 ∧ s.quiet then (if m = modeRest then ((taken s).wake 1).devResult 0 0 else s.wake 1)
  else if s.fld pgDevice Reg.DEV_MODE 8 1 = 1 then s.setFld pgDevice Reg.DEV_MODE 9 3 2
  else match cmd with
    | 1 => if m = modeRise then ((taken s).setMode modeServe).devResult 0 0 else s.devResult 1 0
    | 2 =>
      if m ≠ modeServe ∧ m ≠ modeTrim then s.devResult 1 0
      else if !s.noGen ∨ (List.range 20).any (fun t => s.fld pgTime (treqOff t Reg.TB_TREQ_PERIOD) 31 1 == 1) then
        (taken s).devResult 4 1
      else { (taken s).setFld pgDevice Reg.DEV_MODE 8 1 1 with rest := some ⟨m, s.airtime, false, 0⟩ }
    | 4 => if (m = modeRise ∨ m = modeServe) ∧ s.planesOff then ((taken s).setMode modeTest).devResult 0 0 else s.devResult 1 0
    | 5 => if m = modeTest then ((taken s).setMode modeRise).devResult 0 0 else s.devResult 1 0
    | _ => s.devResult 1 0

/-- A write of DEV_CMD by an agent: the PF and Ward only (R514). -/
def State.devCmdBy (s : State) (a : Agent) (cmd : Nat) : State :=
  s.onPage a pgDevice Reg.DEV_CMD fun s =>
    if agTrusted a then s.devCmd cmd else (s.setFld pgDevice Reg.DEV_MODE 9 3 3).accErr a (pgDevice.addr + Reg.DEV_CMD) 2

/-- SERVE (R513). -/
def execServe (by_ : Agent) (s : State) : Host.Outcome State Fault Refusal := .next (s.devCmdBy by_ 1)
/-- REST (R518 to R520): DEV_CMD REST is written, or, once it is taken, its entry goes on. -/
def execRest (by_ : Agent) (write : Bool) (s : State) : Host.Outcome State Fault Refusal :=
  .next (if write then s.devCmdBy by_ 2 else s.restGoes)
/-- REST_ABANDON (R520): the work is not done 1 ms after the command. -/
def execRestAbandon (s : State) : Host.Outcome State Fault Refusal :=
  match s.rest with
  | some r => if r.done ∨ s.airtime < r.at_ + 1966080 ∨ s.workDone then .next s else .next (s.restAbandon 2)
  | none => .next s
/-- WAKE (R522, R523). -/
def execWake (by_ : Agent) (s : State) : Host.Outcome State Fault Refusal := .next (s.devCmdBy by_ 3)
/-- WAKE_N (R522). -/
def execWakeN (s : State) : Host.Outcome State Fault Refusal :=
  if s.fld pgDevice Reg.DEV_WAKE_CTRL 0 1 = 1 then .next (s.wake 2) else .next s
/-- ALARM (R522). -/
def execAlarm (s : State) : Host.Outcome State Fault Refusal :=
  if s.fld pgDevice Reg.DEV_WAKE_CTRL 1 1 = 1 ∧ s.reg64 pgDevice Reg.DEV_WAKE_ALARM_LO ≤ s.airtime then .next (s.wake 3) else .next s
/-- PPS_WAKE (R522). -/
def execPpsWake (s : State) : Host.Outcome State Fault Refusal :=
  match s.rest with
  | some r =>
    if s.fld pgDevice Reg.DEV_WAKE_CTRL 2 1 = 1 ∧ s.fld pgDevice Reg.DEV_WAKE_CTRL 16 16 ≤ r.edges then .next (s.wake 4)
    else .next s
  | none => .next s
/-- TEST (R513). -/
def execTest (by_ : Agent) (s : State) : Host.Outcome State Fault Refusal := .next (s.devCmdBy by_ 4)
/-- LEAVE_TEST (R513). -/
def execLeaveTest (by_ : Agent) (s : State) : Host.Outcome State Fault Refusal := .next (s.devCmdBy by_ 5)

/-- DEV_PAD_RELEASE (R525): groups whose domain has its main supply on are released; a release of any other is rejected. In
SAFE the rails are down after a thermal SAFE only (R580). -/
def State.padRelease (s : State) (a : Agent) (v : Nat) : State :=
  let off := pgDevice.addr + Reg.DEV_PAD_RELEASE
  let v := v % 2 ^ 11
  let cold := (pagesOf .octant).all fun p => s.fld p Reg.PWR_OCT_STATE 11 1 == 1
  let dark := if s.mode = modeRest then 0x7FF else if s.mode = modeSafe ∧ cold then 0x4FF else 0
  let s' := s.setReg pgDevice Reg.DEV_PAD_HELD (s.reg pgDevice Reg.DEV_PAD_HELD &&& ~~~ w32 (v - (v &&& dark)))
  if v &&& dark &&& (s.reg pgDevice Reg.DEV_PAD_HELD).toNat = 0 then s' else s'.accErr a off 2

/-- PAD_RELEASE (R525). -/
def execPadRelease (by_ : Agent) (groups : Nat) (s : State) : Host.Outcome State Fault Refusal :=
  .next (s.onPage by_ pgDevice Reg.DEV_PAD_RELEASE fun s => s.padRelease by_ groups)

/-! ### Octant supplies (R528 to R534) -/

def pgOct (o : Nat) : Page := ⟨.octant, o⟩

/-- The parts of an octant. -/
def octParts (o : Nat) : List Page := (planeKinds.flatMap pagesOf).filter fun p => p.octant == some o

/-- An octant with no phase left to feed it (R532): its parts drain; one that cannot is FAULTED. -/
def State.octOut (s : State) (o : Nat) : State :=
  (octParts o).foldl
    (fun s p =>
      if !s.ready p then s
      else if bitOf p.caps 3 ∧ !s.ward.stopped then s.partCmdBy .ward p pcDrain .ready
      else s.partFault p rsPower o true)
    s

/-- The octant's state after a phase changed (R532, R534): a change is reported, tallied, and recorded by Tilth. -/
def State.octSettle (s : State) (o : Nat) : State :=
  let p := pgOct o
  let w := s.fld p Reg.PWR_OCT_STATE 0 4
  let n := s.fld p Reg.PWR_OCT_STATE 4 4
  let st := if w ≥ 6 then 0 else if w = 5 then 1 else if w = 4 then 2 else 3
  let st := if n < 2 then max st 1 else st
  let s := s.setFld p Reg.PWR_OCT_STATE 10 1 (bit (decide (n < w)))
  if s.octState o = st then s
  else
    let s := (s.setFld p Reg.PWR_OCT_STATE 8 2 st).count pgPower Reg.PWR_TALLY_DERATE 1
    let s := s.hardpan p rsPower st
    let s := if s.tilthOn then s.trace ⟨0x2D, 0, 0, 0, 0, 0, 0, 15, 0, 0, w32 o⟩ else s
    if st = 3 then s.octOut o else s

def State.phaseMark (s : State) (ph : Nat) : Nat := s.fld (pgOct (ph / 8)) Reg.PWR_OCT_PHASE (2 * (ph % 8)) 2
def State.setPhase (s : State) (ph v dw dn : Nat) : State :=
  let p := pgOct (ph / 8)
  let s := s.setFld p Reg.PWR_OCT_PHASE (2 * (ph % 8)) 2 v
  let s := s.setFld p Reg.PWR_OCT_STATE 0 4 (s.fld p Reg.PWR_OCT_STATE 0 4 - dw)
  s.setFld p Reg.PWR_OCT_STATE 4 4 (s.fld p Reg.PWR_OCT_STATE 4 4 - dn)

/-- PHASE_OPEN (R531, R532): the phase stays OPEN until the next power-up. -/
def execPhaseOpen (ph : Nat) (s : State) : Host.Outcome State Fault Refusal :=
  if ph ≥ 64 ∨ s.phaseMark ph = 1 ∨ !s.pins.on then .next s
  else
    let s := (s.setPhase ph 1 1 (bit (s.phaseMark ph == 0))).count pgPower Reg.PWR_TALLY_PHASEOPEN 1
    .next (s.octSettle (ph / 8))

/-- SENSE_FAIL (R534). -/
def execSenseFail (ph : Nat) (s : State) : Host.Outcome State Fault Refusal :=
  if ph ≥ 64 ∨ s.phaseMark ph ≠ 0 ∨ !s.pins.on then .next s
  else .next (((s.setPhase ph 2 0 1).count pgPower Reg.PWR_TALLY_SENSEFAIL 1).octSettle (ph / 8))

/-- Is every part of the octant RETAINED, DOWN, ABSENT or RETIRED (R530)? -/
def State.octIdle (s : State) (o : Nat) : Bool :=
  (octParts o).all fun p => let st := s.part p; st == stRetained || st == stDown || st == stAbsent || st == stRetired

/-- AVS_UPDATE (R528, R530): the loop sets the octant's target, within its range and steps; what it measures is shown: the
rail in mV, the octant's current and the device's input powers in 100 mA and 100 mW. -/
def execAvsUpdate (o target rail current core total : Nat) (s : State) : Host.Outcome State Fault Refusal :=
  if o ≥ 8 ∨ !s.pins.on ∨ s.mode = modeRest ∨ s.mode = modeSafe then .next s
  else
    let p := pgOct o
    let idle := s.octIdle o
    let s := s.setFld p Reg.PWR_OCT_STATE 11 1 (bit idle)
    let s :=
      if idle then s.setFld p Reg.PWR_OCT_VOLT 0 10 550
      else if 680 ≤ target ∧ target ≤ 850 ∧ target % 5 = 0 then s.setFld p Reg.PWR_OCT_VOLT 0 10 target
      else s
    let s := s.setFld p Reg.PWR_OCT_VOLT 16 10 (min rail 1023)
    let i := min current 65535
    let s := (s.setFld p Reg.PWR_OCT_CURR 0 16 i).setFld p Reg.PWR_OCT_CURR 16 16 (max i (s.fld p Reg.PWR_OCT_CURR 16 16))
    .next (s.setReg pgPower Reg.PWR_INPUT (w32 (min core 65535 + min total 65535 * 2 ^ 16)))

/-- RAIL_FAULT (R529): below 550 mV for more than 1 µs. -/
def execRailFault (o : Nat) (s : State) : Host.Outcome State Fault Refusal :=
  if o ≥ 8 ∨ !s.pins.on then .next s
  else .next ((octParts o).foldl (fun s p => if s.ready p then s.partFault p rsPower o true else s) s)

/-! ### Temperature (R535 to R538) -/

def maxInt (xs : List Int) : Int := xs.foldl max (xs.headD 0)

/-- THERMAL_SAMPLE (R535, R536): 64 sensors in 0.125 °C, eight per octant, and the four stacks in °C. -/
def execThermalSample (sensors hbms : List Int) (s : State) : Host.Outcome State Fault Refusal :=
  if sensors.length ≠ 64 ∨ hbms.length ≠ 4 ∨ !s.pins.on then .next s
  else
    let tj := maxInt sensors
    let s := (List.range 8).foldl
      (fun s n => s.setFld pgTherm (Reg.THM_OCT + 4 * n) 0 16 (pat 16 (maxInt ((sensors.drop (8 * n)).take 8)))) s
    let s := (List.range 4).foldl (fun s n => s.setFld pgTherm (Reg.THM_HBM + 4 * n) 0 8 (pat 8 (hbms.getD n 0))) s
    let old := s.fld pgTherm Reg.THM_TJ 16 16
    let s := s.setReg pgTherm Reg.THM_TJ
      (w32 (pat 16 tj + pat 16 (if old = 0 then tj else max tj (sx 16 old)) * 2 ^ 16))
    let warn : Int := s.fld pgTherm Reg.THM_CTRL 0 8
    let on := s.fld pgTherm Reg.THM_CTRL 8 1 == 1
    if !on ∧ warn * 8 ≤ tj then .next ((s.setFld pgTherm Reg.THM_CTRL 8 1 1).irq pgTherm 1)
    else if on ∧ tj ≤ (warn - 5) * 8 then .next (s.setFld pgTherm Reg.THM_CTRL 8 1 0)
    else .next s

/-- THERMAL_SAFE (R537): a sensor reached 115 °C. -/
def execThermalSafe (sensor : Nat) (s : State) : Host.Outcome State Fault Refusal :=
  if sensor ≥ 64 ∨ !s.pins.on ∨ s.mode = modeSafe ∨ s.mode = modeRest then .next s
  else
    let s := s.enterSafe rsThermal sensor
    let s := (pagesOf .octant).foldl
      (fun s p => (s.setFld p Reg.PWR_OCT_STATE 11 1 1).setFld p Reg.PWR_OCT_VOLT 0 10 550) s
    .next (s.holdPads 0x4FF)

/-- THERMTRIP (R538): a sensor reached 125 °C; the pin stays asserted until VDD_AON is removed. -/
def execThermtrip (s : State) : Host.Outcome State Fault Refusal :=
  if s.pins.on then .next { s with pins := { s.pins with thermtripLow := true } } else .next s

end Sys2Proof.Machine
end

