-- ==== Sys2Proof/Machine/Boot.lean ====
section
/-!
DEFINITION. Sys2Proof/Machine/Boot.lean: the resets (R545, R546, R594, R620), the configuration space and what a function loses
(R485, R486, R491, R503), BOOT (R547 to R554), image windows (R565, R566, R585, R586) and the I3C target (R604).
-/
namespace Sys2Proof.Machine

/-! ### Resets -/

/-- What stays through every reset: OTP and flash, host memory, and what already left the device. -/
def State.cold (s : State) (pins : Pins) : State :=
  { State.reset with
    ward := { Ward.reset with otp := s.ward.otp, flash := s.ward.flash }
    hostMem := s.hostMem
    links := { Links.reset with sent := s.links.sent }
    msix := s.msix
    cpls := s.cpls
    free := s.free
    pins := pins
    pending := s.pending }

/-- RESET_N is released with the straps on GPIO[15:0] (R545, R601): PERST_N and the supplies are as they were. -/
def State.released (s : State) (gpio : Nat) : State :=
  s.cold { Pins.reset with perstLow := s.pins.perstLow, thermtripLow := s.pins.thermtripLow, gpio := gpio % 65536 }

/-- POWER_ON (R513, R545): supplies in range and RESET_N released. -/
def execPowerOn (gpio : Nat) (s : State) : Host.Outcome State Fault Refusal :=
  .next (if s.pins.on then s else s.released gpio)

/-- POWER_OFF (R513): the supplies go; the mode is OFF. -/
def execPowerOff (s : State) : Host.Outcome State Fault Refusal :=
  .next ((s.cold { Pins.reset with on := false }).setFld pgDevice Reg.DEV_MODE 0 4 0)

/-- RESET_N (R545): low for at least 10 µs, and released. -/
def execResetN (gpio : Nat) (s : State) : Host.Outcome State Fault Refusal :=
  .next (if s.pins.on then s.released gpio else s)

/-- AON_POR (R594): it acts as RESET_N low. -/
def execAonPor (gpio : Nat) (s : State) : Host.Outcome State Fault Refusal :=
  .next (if s.pins.on then s.released gpio else s)

/-- Pages of the always-on domain (R515). -/
def alwaysOn : List PageKind := [.device, .timeBase, .power, .octant, .thermal]

/-- A register that a device reset keeps (R545, R584). -/
def keptReg (a : Nat) : Bool :=
  match pageAt (a / 0x1000 * 0x1000) with
  | some p => alwaysOn.contains p.kind || (p.kind == .ward && a % 0x1000 == Reg.WRD_POLICY)
  | none => false

/-- Device reset (R545, R546, R620): every domain but always-on and PCIe; the mode is BOOT. -/
def State.deviceReset (s : State) : State :=
  let c := s.cold s.pins
  let c := { c with
    regs := s.regs.filter fun e => keptReg e.1
    airtime := s.airtime
    links := { c.links with time := { s.links.time with genFrom := [], steps := [] } }
    cfg := s.cfg }
  let c := (List.range 64).foldl
    (fun c f => if s.fld ⟨.fnPage, f⟩ Reg.HIF_FN_CTRL 1 1 = 1 then c.setFld ⟨.fnPage, f⟩ Reg.HIF_FN_CTRL 1 1 1 else c) c
  let c := c.setReg pgHif Reg.HIF_LINK (w32 (s.fld pgHif Reg.HIF_LINK 0 16))
  let c := (List.range 64).foldl
    (fun (c : State) g => if c.fld pgTime (genOff g Reg.GEN_CFG) 4 1 = 1 then c.setFld pgTime (genOff g Reg.GEN_CFG) 4 1 0 else c) c
  (c.setMode modeBoot).setFld pgDevice Reg.DEV_MODE 8 1 0

/-! ### Functions -/

/-- The steps of a Function Level Reset (R503). -/
def State.flrOf (s : State) (f : Nat) : State :=
  let its := s.fab.items.filter fun i => (match i.exec with
    | some (.host g _) => g == f
    | _ => false) && i.phase == .dispatched
  let s := { s with fab := { s.fab with held := s.fab.held.filter fun h => (match h.who with
    | .ring g _ => g != f
    | _ => true) } }
  let w := s.win f
  let s := s.setWin f { w with
    rings := w.rings.map fun e => (e.1, { e.2 with next := 0, tail := 0 })
    dlv := w.dlv.map fun e => (e.1, { e.2 with tail := 0, phase := true })
    mbx := if w.mbx = .queued then .idle else w.mbx }
  let s := s.setWard { s.ward with queue := s.ward.queue.filter (· != f) }
  let s := { s with cfg := { s.cfg with msixOn := s.cfg.msixOn.filter (· != f) } }
  its.foldl (fun s i => s.abortTask i 0x0034) s

/-- The functions that a reset of `f` applies to: the PF's clears VF Enable and so reaches every VF (R503). -/
def State.flr (s : State) (f : Nat) : State :=
  if f = 0 then ((List.range 64).foldl (fun s g => s.flrOf g) s).setFld pgHif Reg.HIF_LINK 9 7 0 else s.flrOf f

/-- FLR (R503). It ends at once, so FLR_BUSY never reads 1. -/
def execFlr (f : Nat) (s : State) : Host.Outcome State Fault Refusal :=
  .next (if f < 64 ∧ !s.linkDown ∧ f ≤ s.fld pgHif Reg.HIF_LINK 9 7 then s.flr f else s)

/-- PERST_N (R486, R545): low resets the PCIe domain and the host-interface part, every function as under R503; after the
rising edge the link trains at a rate, as HIF_LINK codes it, and a width. -/
def execPerstN (low : Bool) (rate width : Nat) (s : State) : Host.Outcome State Fault Refusal :=
  if low then
    let s := { s with pins := { s.pins with perstLow := true } }
    if !s.pins.on then .next s
    else
      let s := s.flr 0
      let s := (List.range 64).foldl (fun s f => s.setFld ⟨.fnPage, f⟩ Reg.HIF_FN_CTRL 1 1 0) s
      let base := pgHif.addr
      .next { s with
        regs := s.regs.filter fun e => !(decide (base ≤ e.1) && decide (e.1 < base + 0x1000))
        latch := [], stage := [], cfg := CfgSpace.reset }
  else
    let ok := (rate == 4 || rate == 5 || rate == 6) && [1, 2, 4, 8, 16].contains width
    let was := s.pins.perstLow
    let s := { s with pins := { s.pins with perstLow := false } }
    .next (if s.pins.on ∧ was ∧ ok then s.setFld pgHif Reg.HIF_LINK 0 9 (rate + width * 8 + bit (rate == 6) * 256) else s)

/-- A word of a function's configuration space (R485): the IDs that the manual gives; the rest PCI Express lays out. -/
def State.cfgRead (s : State) (f off : Nat) : Word :=
  let w := (Config.cfgWord f off).toNat
  if off = 0 then w32 (w % 65536 + (if f = 0 then 0x8800 else 0x8801) * 65536)
  else if off = 4 then w32 (setBits w 2 1 (s.fld ⟨.fnPage, f⟩ Reg.HIF_FN_CTRL 1 1))
  else if off = 8 then w32 (w % 256 + 0x120000 * 256)
  else if off = 0x2C then w32 s.ward.subsys
  else w32 w

/-- CONFIG_REQUEST (R485, R486, R491, R546): retry status until the host interface is READY. -/
def execConfigRequest (f : Nat) (req : CfgReq) (s : State) : Host.Outcome State Fault Refusal :=
  if s.linkDown ∨ f ≥ 64 then .next s
  else if !s.hostUp then .next (s.complete f cplRetry [])
  else if f > s.fld pgHif Reg.HIF_LINK 9 7 then .next (s.complete f cplUr [])
  else
    match req with
    | .read off => .next (s.complete f cplOk (leBytes 4 (s.cfgRead f (off / 4 * 4)).toNat))
    | .busMaster on => .next ((s.setFld ⟨.fnPage, f⟩ Reg.HIF_FN_CTRL 1 1 (bit on)).complete f cplOk [])
    | .vfEnable n =>
      let s' := (List.range 64).foldl
        (fun (s : State) g => if g ≠ 0 ∧ g > n then (s.flrOf g).setFld ⟨.fnPage, g⟩ Reg.HIF_FN_CTRL 1 1 0 else s) s
      .next ((if f = 0 ∧ n ≤ 63 then s'.setFld pgHif Reg.HIF_LINK 9 7 n else s).complete f cplOk [])
    | .msixEnable on =>
      let l := s.cfg.msixOn
      .next ({ s with cfg := { s.cfg with msixOn := if on then insertNat f l else l.filter (· != f) } }.complete f cplOk [])
    | .power d3 =>
      let l := s.cfg.d3
      .next ({ s with cfg := { s.cfg with d3 := if d3 then insertNat f l else l.filter (· != f) } }.complete f cplOk [])

/-! ### BOOT -/

/-- Has a slot a Ward firmware that passes R551, at most 768 KiB long: its image? -/
def State.wardImage (s : State) (slot : Nat) : Option Nat :=
  match s.slotImages slot with
  | (a, n) :: _ => if s.imgType a = 0 ∧ s.imgLen a ≤ 768 * 1024 ∧ s.imageOk a n then some a else none
  | [] => none

/-- Step 1 and 2 of R547: octant rails at 680 mV, and what the OTP says (R548, R554, R583). -/
def State.bootOtp (s : State) : State :=
  let s := (pagesOf .octant).foldl (fun s p => (s.setFld p Reg.PWR_OCT_STATE 11 1 0).setFld p Reg.PWR_OCT_VOLT 0 10 680) s
  let s := s.setReg64 pgWard Reg.WRD_DEVICE_ID_LO (s.otpNum otpDevId 8)
  let id := s.otpNum otpBoardId 4
  let s := s.setReg pgWard Reg.WRD_BOARD_ID (w32 (if id ≠ 0 then id else s.pins.gpio))
  let s := s.setFld pgWard Reg.WRD_BOOT 8 1 (bit (id == 0))
  s.setWard { s.ward with
    revoked := s.otpNum otpRevoked 1 % 16
    keys := (List.range 4).map fun n => s.otpBytes (otpKeySlot n) 48
    riseAll := s.fld pgWard Reg.WRD_POLICY 1 1 == 1
    subsys := s.otpNum otpSubsys 4 }

/-- The slot that R552 chooses first, with the boot record's word 2 as it is then. -/
def bootChoice (r : List Nat) : Nat × Nat :=
  let p := brPreferred r
  let w := r.getD 2 0
  if brCommitted r p then (p, w)
  else if brTries r > 0 then (p, setBits w 4 4 (brTries r - 1))
  else (1 - p, setBits w 0 1 (1 - p))

/-- The firmware of a slot runs on pair 0, pair 1 holds the same as standby, and the mode is RISE (R547 step 6). -/
def State.bootTo (s : State) (slot a result : Nat) : State :=
  let r := match s.bootRec with
    | some (_, r) => r
    | none => []
  let keep := s.fld pgWard Reg.WRD_BOOT 8 1
  let s := s.setReg pgWard Reg.WRD_BOOT
    (w32 (slot + bit (brCommitted r slot) * 2 + result * 4 + brTries r * 16 + keep * 256 + s.imgVersion a * 65536))
  let s := s.setFld pgWard.home Reg.PG_VER 16 16 (s.imgVersion a)
  let s := (s.setReg pgWard Reg.WRD_PAIRS (w32 4)).setWard { s.ward with fwKey := s.imgKey a }
  s.setMode modeRise

/-- Recovery (R553): the ROM brings up the host interface, once PERST_N is released; the mode stays BOOT. -/
def State.recover (s : State) : State :=
  let s := s.setFld pgWard Reg.WRD_BOOT 2 2 2
  if s.pins.perstLow then s else s.setPart pgHif stReady

/-- The whole of BOOT (R547, R551, R552, R553). -/
def State.bootRom (s : State) : State :=
  let s := s.bootOtp
  match s.bootRec with
  | none => s.recover
  | some (_, r) =>
    let c := bootChoice r
    let s := if c.2 = r.getD 2 0 then s else s.setBootFlags c.2
    match s.wardImage c.1 with
    | some a => s.bootTo c.1 a 0
    | none =>
      let other := 1 - c.1
      match (if brCommitted r other then s.wardImage other else none) with
      | some a => s.bootTo other a 1
      | none => s.recover

/-- BOOT (R547): it runs once after each reset. -/
def execBoot (s : State) : Host.Outcome State Fault Refusal :=
  .next (if s.pins.on ∧ !s.wardUp then s.bootRom else s)

/-! ### Image windows -/

/-- May an image window or debug page be written: by Ward, while the part is DOWN or TENDING (R566, R585)? -/
def State.imgOpen (s : State) (a : Agent) (p : Page) : Bool := agWard a && s.rwlOpen p

/-- WORD of GVI_IMEM_ADDR or IMG_ADDR goes on after an access of the data register. -/
def State.imgNext (s : State) (p : Page) : State :=
  if p.kind = .coreDbg then s.setFld p Reg.GVI_IMEM_ADDR 2 14 (s.fld p Reg.GVI_IMEM_ADDR 2 14 + 1)
  else s.setFld p Reg.IMG_ADDR 2 22 (s.fld p Reg.IMG_ADDR 2 22 + 1)

/-- The word that the data register shows. -/
def State.imgWord (s : State) (p : Page) : Word :=
  if p.kind = .coreDbg then w32 (ofLe (memGets (s.core p.ix).imem (4 * s.fld p Reg.GVI_IMEM_ADDR 2 14) 4))
  else w32 (ofLe (memGets (lookupD [] p.addr s.imgs) (4 * s.fld p Reg.IMG_ADDR 2 22) 4))

/-- A word is stored, the address goes on, VALID clears (R585, R586). -/
def State.imgPut (s : State) (p : Page) (v : Word) : State :=
  if p.kind = .coreDbg then
    let c := s.core p.ix
    let s := s.setCore p.ix { c with imem := memPuts c.imem (4 * s.fld p Reg.GVI_IMEM_ADDR 2 14) (leBytes 4 v.toNat) }
    (s.imgNext p).setFld p Reg.GVI_LOAD 20 1 0
  else
    let m := memPuts (lookupD [] p.addr s.imgs) (4 * s.fld p Reg.IMG_ADDR 2 22) (leBytes 4 v.toNat)
    ({ s with imgs := insertKey p.addr m s.imgs }.imgNext p).setFld p Reg.IMG_CMD 4 1 0

/-- A write to the data register by an agent; any other than Ward's to a DOWN or TENDING part is rejected (R566). -/
def State.imgData (s : State) (a : Agent) (p : Page) (v : Word) : State :=
  let off := if p.kind = .coreDbg then Reg.GVI_IMEM_DATA else Reg.IMG_DATA
  s.onPage a p off fun s => if s.imgOpen a p then s.imgPut p v else s.accErr a (p.addr + off) 2

/-- COMMIT ends with a RESULT (R566, R585): 0 OK, 1 LENGTH, 2 FAULTED; only OK sets VALID, and PG_VER.IMAGE. -/
def State.imgCommit (s : State) (p : Page) (load : Nat) (images : List Nat) (version res : Nat) : State :=
  if p.kind = .coreDbg then
    let s := s.setFld p Reg.GVI_IMEM_CMD 2 2 (min res 2)
    if res = 0 then (s.setLoad p.ix load (images.take 8)).setFld p.home Reg.PG_VER 16 16 (version % 65536) else s
  else
    let s := s.setFld p Reg.IMG_CMD 2 2 (min res 2)
    if res = 0 then (s.setFld p Reg.IMG_CMD 4 1 1).setFld p.home Reg.PG_VER 16 16 (version % 65536) else s

/-- A write of COMMIT by an agent. -/
def State.imgCommitBy (s : State) (a : Agent) (p : Page) (load : Nat) (images : List Nat) (version res : Nat) : State :=
  let off := if p.kind = .coreDbg then Reg.GVI_IMEM_CMD else Reg.IMG_CMD
  s.onPage a p off fun s =>
    if s.imgOpen a p then s.imgCommit p load images version res else s.accErr a (p.addr + off) 2

/-- IMEM_DATA (R585). -/
def execImemData (by_ : Agent) (k : Nat) (v : Word) (s : State) : Host.Outcome State Fault Refusal :=
  .next (if k < 272 ∧ agTrusted by_ then s.imgData by_ (pgDbg k) v else s)
/-- IMEM_COMMIT (R566, R585): what the load lists, and whether the part finds its length right, come with it. -/
def execImemCommit (by_ : Agent) (k load : Nat) (images : List Nat) (version res : Nat) (s : State) :
    Host.Outcome State Fault Refusal :=
  .next (if k < 272 ∧ agTrusted by_ then s.imgCommitBy by_ (pgDbg k) load images version res else s)

/-- The part at a BAR0 offset that has an image window (R586). -/
def imgPage (pg : Nat) : Option Page :=
  match pageAt pg with
  | some p => if p.takesImage ∧ p.kind ≠ .coreCtl then some p else none
  | none => none

/-- IMG_DATA (R586). -/
def execImgData (by_ : Agent) (pg : Nat) (v : Word) (s : State) : Host.Outcome State Fault Refusal :=
  match imgPage pg with
  | some p => .next (if agTrusted by_ then s.imgData by_ p v else s)
  | none => .next s
/-- IMG_COMMIT (R586). -/
def execImgCommit (by_ : Agent) (pg version res : Nat) (s : State) : Host.Outcome State Fault Refusal :=
  match imgPage pg with
  | some p => .next (if agTrusted by_ then s.imgCommitBy by_ p 0 [] version res else s)
  | none => .next s

/-! ### The I3C target -/

/-- The register that an index names (R604). -/
def State.i3cReg (s : State) (index : Nat) : Word :=
  match index with
  | 0 => s.reg pgDevice Reg.DEV_MODE
  | 1 => s.reg pgTherm Reg.THM_TJ
  | 2 => s.reg pgTherm Reg.THM_CTRL
  | 3 => s.reg pgPower Reg.PWR_INPUT
  | 4 => s.reg pgWard Reg.WRD_BOOT
  | 5 => s.reg pgWard Reg.WRD_DEVICE_ID_LO
  | 6 => s.reg pgWard Reg.WRD_DEVICE_ID_HI
  | _ => 0

/-- Where the I3C target's bytes are recorded as sent. -/
def i3cPort : Nat := 0x300

/-- I3C_READ (R604): from 1 ms after the release of RESET_N; the four bytes, least significant first. -/
def execI3cRead (index : Nat) (s : State) : Host.Outcome State Fault Refusal :=
  .next (if s.pins.on ∧ s.pins.up ≥ 1966080 then s.send i3cPort (leBytes 4 (s.i3cReg index).toNat) else s)

end Sys2Proof.Machine
end

