-- ==== Sys2Proof/Machine/Dte.lean ====
section
/-!
DEFINITION. Sys2Proof/Machine/Dte.lean: the detection and matrix engine's commands, operation by operation in binary32
(R119, R169 to R180).
-/
namespace Sys2Proof.Machine

/-- Statuses of the DTE (R180). -/
def dteGeometry : Nat := 0x10
def dteModulation : Nat := 0x11

/-! ### binary32 and complex numbers -/

/-- A complex number: two binary32 patterns. -/
abbrev Cx := Nat × Nat

def cx0 : Cx := (0, 0)
def cx1 : Cx := (f32.one, 0)
def cxAdd (a b : Cx) : Cx := (fAdd f32 a.1 b.1, fAdd f32 a.2 b.2)
def cxSub (a b : Cx) : Cx := (fSub f32 a.1 b.1, fSub f32 a.2 b.2)
/-- The product of R119. -/
def cxMul (a b : Cx) : Cx :=
  (fSub f32 (fMul f32 a.1 b.1) (fMul f32 a.2 b.2), fAdd f32 (fMul f32 a.1 b.2) (fMul f32 a.2 b.1))
def cxConj (a : Cx) : Cx := (a.1, fNeg f32 a.2)
/-- Scaled and divided by a real. -/
def cxScale (a : Cx) (r : Nat) : Cx := (fMul f32 a.1 r, fMul f32 a.2 r)
def cxDiv (a : Cx) (r : Nat) : Cx := (fDiv f32 a.1 r, fDiv f32 a.2 r)
/-- Squared magnitude. -/
def cxAbs2 (a : Cx) : Nat := fAdd f32 (fMul f32 a.1 a.1) (fMul f32 a.2 a.2)

/-- A whole number, and v × 2^k, as binary32 (R169). -/
def fNat (n : Nat) : Nat := fOfScaled f32 n 0
def fPow2 (v k : Int) : Nat := fOfScaled f32 v k

/-- Sums in the order of the list, from +0 (R169). -/
def fSum (xs : List Nat) : Nat := xs.foldl (fAdd f32) 0
def cxSum (xs : List Cx) : Cx := xs.foldl cxAdd cx0

/-- A matrix as rows. -/
abbrev Mat := List (List Cx)

def mAt (m : Mat) (i j : Nat) : Cx := (m.getD i []).getD j cx0
def mMake (r c : Nat) (f : Nat → Nat → Cx) : Mat := (List.range r).map fun i => (List.range c).map (f i)

/-- a ≥ b in binary32; false when either is NaN (R170). -/
def fGe (a b : Nat) : Bool := !fIsNan f32 a && !fIsNan f32 b && !fLt f32 a b

/-! ### Factorization and substitution (R170) -/

/-- One column of chol; the flag tells that d was replaced. -/
def cholCol (n : Nat) (m : Mat) (low : Nat) (r : Mat × Bool) (k : Nat) : Mat × Bool :=
  let L := r.1
  let d := fSub f32 (mAt m k k).1 (fSum ((List.range k).map fun j => cxAbs2 (mAt L k j)))
  let ok := fGe d low
  let p := fSqrt f32 (if ok then d else low)
  let col (i : Nat) : Cx :=
    if i = k then (p, 0)
    else cxDiv (cxSub (mAt m i k) (cxSum ((List.range k).map fun j => cxMul (mAt L i j) (cxConj (mAt L k j))))) p
  ((List.range n).map fun i => if i < k then L.getD i [] else (L.getD i []).set k (col i), r.2 || !ok)

/-- chol of an n × n Hermitian matrix with EPS, and whether a pivot was replaced. -/
def chol (n eps : Nat) (m : Mat) : Mat × Bool :=
  let tr := fSum ((List.range n).map fun i => (mAt m i i).1)
  let low := fDiv f32 (fMul f32 eps tr) (fNat n)
  (List.range n).foldl (cholCol n m low) (mMake n n (fun _ _ => cx0), false)

/-- Forward substitution. -/
def fsolve (n : Nat) (L : Mat) (b : List Cx) : List Cx :=
  (List.range n).foldl
    (fun x i =>
      x ++ [cxDiv (cxSub (b.getD i cx0) (cxSum ((List.range i).map fun j => cxMul (mAt L i j) (x.getD j cx0))))
        (mAt L i i).1])
    []

/-- Back substitution with the conjugate transpose of L. -/
def bsolve (n : Nat) (L : Mat) (b : List Cx) : List Cx :=
  (List.range n).foldl
    (fun x k =>
      let i := n - 1 - k
      x.set i (cxDiv (cxSub (b.getD i cx0)
        (cxSum ((List.range (n - 1 - i)).map fun q =>
          cxMul (cxConj (mAt L (i + 1 + q) i)) (x.getD (i + 1 + q) cx0)))) (mAt L i i).1))
    (List.replicate n cx0)

/-- A column of a matrix with `n` rows. -/
def mCol (n : Nat) (m : Mat) (j : Nat) : List Cx := (List.range n).map fun i => mAt m i j

/-- A unit vector. -/
def unitVec (n l : Nat) : List Cx := (List.range n).map fun i => if i = l then cx1 else cx0

/-! ### Conversions -/

/-- A cq16 sample as binary32 (R169). -/
def cxOfCq (b : List Byte) (j : Nat) : Cx :=
  let c := cqAt b j
  (fPow2 c.1 (-15), fPow2 c.2 (-15))

/-- x × 2^k to the nearest integer of `n` bits, ties to even, saturated; what a NaN becomes is not stated, and is free
value number `fr` (R169; log entry 26). -/
def fToInt (n : Nat) (k : Int) (fr x : Nat) : Int × Bool :=
  match fDec f32 x with
  | .nan => (sx n (Config.freeValue n fr).toNat, false)
  | .inf s => if s then (-(2 ^ (n - 1)), true) else (2 ^ (n - 1) - 1, true)
  | _ =>
    match fFixed f32 x k with
    | some r => narrow false (rnd false r.1 r.2) n
    | none => (0, false)

/-- The cq16 form of a number (R169), with the free values from `fr` on. -/
def cxToCq (k : Int) (fr : Nat) (x : Cx) : List Byte × Nat :=
  let a := fToInt 16 k fr x.1
  let b := fToInt 16 k (fr + 1) x.2
  (cqBytes a.1 b.1, bit a.2 + bit b.2)

/-- An LLR as it is stored (R172): nearest, saturated to ±127. -/
def llrByte (fr x : Nat) : Byte × Bool :=
  let r := fToInt 8 0 fr x
  if r.1 = -128 then (BitVec.ofInt 8 (-127), !fIsNan f32 x) else (BitVec.ofInt 8 r.1, r.2)

/-! ### Demapping (R172) -/

/-- Bits of a modulation: 0 π/2-BPSK, 1 QPSK, 2 16QAM, 3 64QAM, 4 256QAM. -/
def modBits (md : Nat) : Nat := if md = 0 then 1 else 2 * md

/-- 1 or -1 for a bit. -/
def pm1 (v i : Nat) : Int := 1 - 2 * (bitsOf v i 1 : Int)

/-- The integer level of one axis of a square constellation of `h` bits per axis: bit `q`, and every second bit after it
(TS 38.211 clause 5.1). -/
def axisLevel : Nat → Nat → Nat → Int
  | 0, _, _ => 1
  | 1, v, q => pm1 v q
  | h + 1, v, q => pm1 v q * (2 ^ h - axisInner h v (q + 2))
where
  /-- The nested part below the sign bit. -/
  axisInner : Nat → Nat → Nat → Int
    | 0, _, _ => 0
    | 1, v, q => pm1 v q
    | h + 1, v, q => pm1 v q * (2 ^ h - axisInner h v (q + 2))

/-- Mean power of a square constellation's integer points. -/
def modPower (md : Nat) : Nat := [2, 2, 10, 42, 170].getD md 2

/-- An integer level over the square root of the power, as the nearest binary32 (log entry 27). -/
def levelF (md : Nat) (v : Int) : Nat :=
  let r := isqrt (v.natAbs ^ 2 * 2 ^ 100 / modPower md)
  fOfScaled f32 (if v < 0 then -(2 * r + 1 : Int) else 2 * r + 1) (-51)

/-- The constellation point of bits `v`, b0 the least significant, of symbol index `i` (TS 38.211 clause 5.1). -/
def modPoint (md i v : Nat) : Cx :=
  if md = 0 then
    let x := pm1 v 0
    if i % 2 = 0 then (levelF 0 x, levelF 0 x) else (levelF 0 (-x), levelF 0 x)
  else (levelF md (axisLevel md v 0), levelF md (axisLevel md v 1))

/-- The smaller of two numbers; a NaN loses. -/
def fMin2 (a b : Nat) : Nat := fMin f32 a b

/-- Distances of z to the points of a modulation. -/
def dists (md i : Nat) (z : Cx) : List (Nat × Nat) :=
  (List.range (2 ^ modBits md)).map fun v => (v, cxAbs2 (cxSub z (modPoint md i v)))

/-- The least of a list of numbers. -/
def fLeast : List Nat → Nat
  | [] => 0
  | x :: xs => xs.foldl fMin2 x

/-- The LLRs of one symbol, b0 first (R172). -/
def demap (md i : Nat) (z : Cx) (gamma : Nat) : List Nat :=
  let ds := dists md i z
  (List.range (modBits md)).map fun b =>
    let m1 := fLeast ((ds.filter fun d => bitOf d.1 b).map (·.2))
    let m0 := fLeast ((ds.filter fun d => !bitOf d.1 b).map (·.2))
    fMul f32 gamma (fSub f32 m1 m0)

/-! ### DETECT -/

/-- What a PRB of DETECT yields: z per layer and data RE, gamma per layer, singular, non-finite (R171). -/
structure DetPrb where
  z : List (List Cx)
  gamma : List Nat
  singular : Bool
  bad : Bool
deriving DecidableEq, Repr

/-- Is a pattern a NaN or an infinity? -/
def fBad (x : Nat) : Bool := !fIsFin f32 x

/-- One PRB of DETECT (R171): `h` NR × NL, `cn` NR × NR, and the data REs' stream vectors. -/
def detectPrb (nr nl eps : Nat) (h cn : Mat) (ys : List (List Cx)) : DetPrb :=
  if cn.any fun r => r.any fun x => fBad x.1 || fBad x.2 then
    ⟨ys.map fun _ => List.replicate nl cx0, List.replicate nl 0, false, true⟩
  else
    let lc := chol nr eps cn
    let cols := (List.range nl).map fun l => fsolve nr lc.1 (mCol nr h l)
    let hw (m l : Nat) : Cx := (cols.getD l []).getD m cx0
    let a := mMake nl nl fun i j =>
      let p := cxSum ((List.range nr).map fun m => cxMul (cxConj (hw m i)) (hw m j))
      if i = j then cxAdd p cx1 else p
    let la := chol nl eps a
    let bd := (List.range nl).map fun l => fSum ((fsolve nl la.1 (unitVec nl l)).map cxAbs2)
    let gm := bd.map fun b => fSub f32 (fDiv f32 f32.one b) f32.one
    let weak (g : Nat) : Bool := fIsNan f32 g || !fLt f32 0 g
    let gamma := gm.map fun g => if weak g then fPow2 1 (-24) else g
    let z := ys.map fun y =>
      let w := fsolve nr lc.1 y
      let u := (List.range nl).map fun l =>
        cxSum ((List.range nr).map fun m => cxMul (cxConj (hw m l)) (w.getD m cx0))
      let x := bsolve nl la.1 (fsolve nl la.1 u)
      (List.range nl).map fun l => cxDiv (x.getD l cx0) (fSub f32 f32.one (bd.getD l 0))
    ⟨z, gamma, lc.2 || la.2 || gm.any weak, false⟩

/-- Packed upper triangle of an n × n Hermitian matrix in cf32, row by row (R174, R179); `realDiag` drops the imaginary
parts of the diagonal. -/
def unpackUpper (n : Nat) (realDiag : Bool) (b : List Byte) : Mat :=
  let pos (i j : Nat) : Nat := i * n - i * (i - 1) / 2 + (j - i)
  let at' (p : Nat) : Cx := (bW b (8 * p), bW b (8 * p + 4))
  mMake n n fun i j =>
    if i = j then (if realDiag then ((at' (pos i i)).1, 0) else at' (pos i i))
    else if i < j then at' (pos i j)
    else cxConj (at' (pos j i))

/-- Bytes of one covariance of DETECT. -/
def cnBytes (irc nr : Nat) : Nat := if irc = 1 then nr * (nr + 1) / 2 * 8 else 4

/-- The data subcarriers of a mask. -/
def maskRes (m : Nat) : List Nat := (List.range 12).filter fun j => bitOf m j

/-- A user's entry of DETECT (R174). -/
def userFirst (b : List Byte) (u : Nat) : Nat := bF b (0x60 + 16 * u) 0 8
def userLayers (b : List Byte) (u : Nat) : Nat := bF b (0x60 + 16 * u) 8 8
def userMod (b : List Byte) (u : Nat) : Nat := bF b (0x60 + 16 * u) 16 4
def userOut (b : List Byte) (u : Nat) : Nat := bQ b (0x68 + 16 * u)

/-- A binary32 field from 0 to 1. -/
def unitF (x : Nat) : Bool := !fIsNan f32 x && !fLt f32 x 0 && !fLt f32 f32.one x

/-- Fields of DETECT within their ranges (R174, R180). -/
def detectOk (b : List Byte) : Bool :=
  let nu := bF b 0x48 16 4
  bAddr b 0x20 && bAddr b 0x28 && bAddr b 0x30 && bAddr b 0x38 && bAddr64 b 0x40 &&
    decide (1 ≤ bF b 0x48 0 8) && decide (bF b 0x48 0 8 ≤ 16) && decide (1 ≤ bF b 0x48 8 8) && decide (bF b 0x48 8 8 ≤ 16) &&
    decide (1 ≤ nu) && decide (nu ≤ 8) && bF b 0x48 23 9 == 0 && (bF b 0x48 22 1 == 1 || bZero b 0x38 8) &&
    decide (bF b 0x4C 0 9 ≤ 274) && bF b 0x4C 9 7 == 0 && decide (1 ≤ bF b 0x4C 16 9) && decide (bF b 0x4C 16 9 ≤ 275) &&
    bF b 0x4C 25 7 == 0 && bF b 0x54 12 20 == 0 && unitF (bW b 0x5C) && bZero b 0xE0 32 &&
    (List.range nu).all fun u =>
      bF b (0x60 + 16 * u) 20 12 == 0 && bZero b (0x64 + 16 * u) 4 && bAddr b (0x68 + 16 * u) &&
        decide (1 ≤ userLayers b u) && decide (userLayers b u ≤ 4)

/-- Geometry of DETECT (R176). -/
def detectGeom (b : List Byte) : Bool :=
  let nl := bF b 0x48 8 8
  let us := List.range (bF b 0x48 16 4)
  decide (nl ≤ bF b 0x48 0 8) && us.all (fun u => decide (userFirst b u + userLayers b u ≤ nl)) &&
    us.all (fun u => us.all fun v => u == v || decide (userFirst b u + userLayers b u ≤ userFirst b v) ||
      decide (userFirst b v + userLayers b v ≤ userFirst b u)) &&
    bF b 0x54 0 12 != 0 && decide (bF b 0x4C 0 9 + bF b 0x4C 16 9 ≤ 275)

/-- Bytes that a user's symbol takes in the output: Qm LLRs, or one cq16 (R175). -/
def symBytes (eq : Bool) (md : Nat) : Nat := if eq then 4 else modBits md

/-- Outputs of one layer's symbol, and saturations, from free value `fr` on. -/
def symOut (eq : Bool) (md scale : Nat) (bad : Bool) (fr : Nat) (z : Cx) (gamma : Nat) : List Byte × Nat :=
  if eq then cxToCq 13 fr z
  else if bad then (List.replicate (modBits md) 0, 0)
  else
    let ls := demap md 0 z gamma
    let r := (List.range ls.length).map fun i => llrByte (fr + i) (fMul f32 (ls.getD i 0) scale)
    (r.map (·.1), (r.filter (·.2)).length)

/-- What DETECT writes (R171, R175, R180). `fr` is the first free value; each symbol has eight of its own. -/
def detectCompute (b : List Byte) (fr : Nat) (data : List (List Byte)) : EngOut :=
  let nr := bF b 0x48 0 8
  let nl := bF b 0x48 8 8
  let irc := bF b 0x48 20 1
  let eq := bF b 0x48 21 1 == 1
  let num := bF b 0x4C 16 9
  let res := maskRes (bF b 0x54 0 12)
  let hB := data.getD nr []
  let cB := data.getD (nr + 1) []
  let prbs := (List.range num).map fun k =>
    let h := mMake nr nl fun r l => cxOfCq hB (k * nr * nl + r * nl + l)
    let cb := cB.drop (k * cnBytes irc nr)
    let cn := if irc = 1 then unpackUpper nr false cb
      else mMake nr nr fun i j => if i = j then (bW cb 0, 0) else cx0
    let ys := res.map fun j => (List.range nr).map fun r => cxOfCq (data.getD r []) (12 * k + j)
    detectPrb nr nl (bW b 0x5C) h cn ys
  let user (u : Nat) : List (List Byte × Nat) :=
    (List.range num).flatMap fun k =>
      let p := prbs.getD k ⟨[], [], false, false⟩
      (List.range res.length).flatMap fun j =>
        (List.range (userLayers b u)).map fun l =>
          let ly := userFirst b u + l
          symOut eq (userMod b u) (bW b 0x58) p.bad (fr + 8 * ((k * 12 + j) * 16 + ly))
            ((p.z.getD j []).getD ly cx0) (p.gamma.getD ly 0)
  let us := (List.range (bF b 0x48 16 4)).map fun u => (userOut b u, user u)
  let sat := us.foldl (fun a u => u.2.foldl (fun a x => a + x.2) a) 0
  let sing := (prbs.filter (·.singular)).length
  let bad := (prbs.filter (·.bad)).length
  let sinr := if bF b 0x48 22 1 = 1 then
      [(bQ b 0x38, prbs.flatMap fun p => p.gamma.flatMap fun g => leBytes 2 (fConv f32 f16 g))]
    else []
  { status := csOk
    writes := us.map (fun u => (u.1, u.2.flatMap (·.1))) ++ sinr ++
      recordOut (bQ b 0x40) [num * res.length * nl, sing, bad, sat]
    tallies := [(Reg.DTE_TALLY_SINGULAR, 0, 32, sing), (Reg.DTE_TALLY_NONFINITE, 0, 32, bad),
      (Reg.DTE_TALLY_SAT, 0, 32, sat)]
    used := 8 * 16 * 12 * num }

/-- DETECT (R171, R174 to R176). -/
def detectRun (i : Nat) (s : State) (b : List Byte) : State × Nat :=
  if !detectOk b then (s, csFormat)
  else if !detectGeom b then (s, dteGeometry)
  else if (List.range (bF b 0x48 16 4)).any (fun u => userMod b u == 0 || decide (userMod b u > 4)) then (s, dteModulation)
  else
    let nr := bF b 0x48 0 8
    let nl := bF b 0x48 8 8
    let num := bF b 0x4C 16 9
    let n := num * (maskRes (bF b 0x54 0 12)).length
    let eq := bF b 0x48 21 1 == 1
    let ins := ((List.range nr).map fun r => (bQ b 0x20 + r * bW b 0x50, 48 * num)) ++
      [(bQ b 0x28, num * nr * nl * 4), (bQ b 0x30, num * cnBytes (bF b 0x48 20 1) nr)]
    let outs := ((List.range (bF b 0x48 16 4)).map fun u =>
        (userOut b u, n * userLayers b u * symBytes eq (userMod b u))) ++
      (if bF b 0x48 22 1 = 1 then [(bQ b 0x38, 2 * num * nl)] else []) ++ recordRange (bQ b 0x40)
    s.engIo (engPage 2 i) ins outs (detectCompute b s.free)

def execDetect (inst : Nat) (s : State) : Host.Outcome State Fault Refusal :=
  .next (s.engRow 2 1 inst fun s _ b _ => detectRun inst s b)

/-! ### DEMAP -/

/-- What DEMAP writes (R172, R177). -/
def demapCompute (b : List Byte) (fr : Nat) (data : List (List Byte)) : EngOut :=
  let md := bF b 0x44 0 4
  let n := bF b 0x40 0 24
  let zB := data.getD 0 []
  let gB := data.getD 1 []
  let r := (List.range n).map fun k =>
    let c := cqAt zB k
    let z : Cx := (fPow2 c.1 (-13), fPow2 c.2 (-13))
    let g := fConv f16 f32 (ofLe ((gB.drop (2 * (k / bF b 0x44 16 16))).take 2))
    let ls := demap md (bF b 0x44 4 1 + k) z g
    (List.range ls.length).map fun i => llrByte (fr + 8 * k + i) (fMul f32 (ls.getD i 0) (bW b 0x48))
  let sat := r.foldl (fun a x => a + (x.filter (·.2)).length) 0
  { status := csOk
    writes := (bQ b 0x30, r.flatMap fun x => x.map (·.1)) :: recordOut (bQ b 0x38) [n, 0, 0, sat]
    tallies := [(Reg.DTE_TALLY_SAT, 0, 32, sat)]
    used := 8 * n }

/-- DEMAP (R177). -/
def demapRun (i : Nat) (s : State) (b : List Byte) : State × Nat :=
  let n := bF b 0x40 0 24
  let gr := bF b 0x44 16 16
  if !(bAddr b 0x20 && bAddr b 0x28 && bAddr b 0x30 && bAddr64 b 0x38 && decide (1 ≤ n) && bF b 0x40 24 8 == 0 &&
      decide (bF b 0x44 0 4 ≤ 4) && bF b 0x44 5 11 == 0 && decide (1 ≤ gr) && bZero b 0x4C 52) then (s, csFormat)
  else
    s.engIo (engPage 2 i) [(bQ b 0x20, 4 * n), (bQ b 0x28, 2 * ((n + gr - 1) / gr))]
      ((bQ b 0x30, n * modBits (bF b 0x44 0 4)) :: recordRange (bQ b 0x38)) (demapCompute b s.free)

def execDemap (inst : Nat) (s : State) : Host.Outcome State Fault Refusal :=
  .next (s.engRow 2 2 inst fun s _ b _ => demapRun inst s b)

/-! ### WEIGHT_CALC -/

/-- The unscaled weights of one group, A × K, and whether the factorization was regularized (R178). -/
def groupWeights (a k : Nat) (rzf : Bool) (lam : Nat) (h : Mat) : Mat × Bool :=
  if !rzf then (h, false)
  else
    let g := mMake k k fun i j =>
      let p := cxSum ((List.range a).map fun m => cxMul (cxConj (mAt h m i)) (mAt h m j))
      if i = j then (fAdd f32 p.1 lam, p.2) else p
    let l := chol k (fPow2 1 (-20)) g
    ((List.range a).map fun m =>
      (bsolve k l.1 (fsolve k l.1 ((List.range k).map fun j => cxConj (mAt h m j)))).map cxConj, l.2)

/-- The bytes of one group's matrix, saturations, and whether it was regularized (R178). -/
def groupOut (b : List Byte) (fr : Nat) (h : Mat) : List Byte × Nat × Bool :=
  let a := bF b 0x40 0 8
  let k := bF b 0x40 8 8
  let w := groupWeights a k (bF b 0x44 0 2 == 1) (bW b 0x48) h
  let p := fSum (w.1.flatMap fun r => r.map cxAbs2)
  let sc := fSqrt f32 (fDiv f32 (bW b 0x4C) p)
  let zero := fCanon f32 p == 0
  let el (m j : Nat) : Cx := if zero then cx0 else cxScale (mAt w.1 m j) sc
  let els := if bF b 0x44 2 1 = 1 then (List.range a).flatMap fun m => (List.range k).map fun j => el m j
    else (List.range k).flatMap fun j => (List.range a).map fun m => cxConj (el m j)
  let r := (List.range els.length).map fun i => cxToCq 15 (fr + 2 * i) (els.getD i cx0)
  (r.flatMap (·.1), r.foldl (fun x y => x + y.2) 0, w.2)

/-- What WEIGHT_CALC writes (R154, R178). -/
def weightCompute (b : List Byte) (fr : Nat) (data : List (List Byte)) : EngOut :=
  let a := bF b 0x40 0 8
  let k := bF b 0x40 8 8
  let n := bF b 0x40 16 9
  let hB := data.getD 0 []
  let gs := (List.range n).map fun g =>
    groupOut b (fr + 2 * g * a * k) (mMake a k fun m j => cxOfCq hB (g * a * k + m * k + j))
  let dims := if bF b 0x44 2 1 = 1 then a + 2 ^ 8 * k else k + 2 ^ 8 * a
  let head := wordBytes (([dims + 2 ^ 16 * n, bF b 0x44 8 8, bW b 0x38, bW b 0x3C, bW b 0x50] ++
    List.replicate 11 0).map w32)
  let sat := gs.foldl (fun x g => x + g.2.1) 0
  let sing := (gs.filter (·.2.2)).length
  { status := csOk
    writes := (bQ b 0x28, head ++ gs.flatMap (·.1)) :: recordOut (bQ b 0x30) [n, sing, 0, sat]
    tallies := [(Reg.DTE_TALLY_SINGULAR, 0, 32, sing), (Reg.DTE_TALLY_SAT, 0, 32, sat)]
    used := 2 * n * a * k }

/-- WEIGHT_CALC (R178). -/
def weightRun (i : Nat) (s : State) (b : List Byte) : State × Nat :=
  let a := bF b 0x40 0 8
  let k := bF b 0x40 8 8
  let n := bF b 0x40 16 9
  if !(bAddr b 0x20 && bAddr64 b 0x28 && bAddr64 b 0x30 && decide (1 ≤ a) && decide (a ≤ 64) && decide (1 ≤ k) &&
      decide (k ≤ 16) && decide (1 ≤ n) && decide (n ≤ 275) && bF b 0x40 25 7 == 0 && decide (bF b 0x44 0 2 ≤ 1) &&
      bF b 0x44 3 5 == 0 && decide (1 ≤ bF b 0x44 8 8) && bF b 0x44 16 16 == 0 && bF b 0x50 20 11 == 0 && bZero b 0x54 44)
  then (s, csFormat)
  else
    s.engIo (engPage 2 i) [(bQ b 0x20, 4 * n * a * k)] ((bQ b 0x28, 64 + 4 * n * a * k) :: recordRange (bQ b 0x30))
      (weightCompute b s.free)

def execWeightCalc (inst : Nat) (s : State) : Host.Outcome State Fault Refusal :=
  .next (s.engRow 2 3 inst fun s _ b _ => weightRun inst s b)

/-! ### HINV -/

/-- One matrix of HINV as bytes, and whether it was regularized (R179). -/
def hinvOne (n eps : Nat) (factor : Bool) (m : Mat) : List Byte × Bool :=
  let l := chol n eps m
  let el (x : Cx) : List Byte := leBytes 4 x.1 ++ leBytes 4 x.2
  if factor then ((List.range n).flatMap fun i => (List.range (i + 1)).flatMap fun j => el (mAt l.1 i j), l.2)
  else
    let cols := (List.range n).map fun j => bsolve n l.1 (fsolve n l.1 (unitVec n j))
    ((List.range n).flatMap fun i => (List.range (n - i)).flatMap fun q =>
      el ((cols.getD (i + q) []).getD i cx0), l.2)

/-- HINV (R179). -/
def hinvRun (i : Nat) (s : State) (b : List Byte) : State × Nat :=
  let n := bF b 0x38 0 5
  let cnt := bF b 0x38 16 16
  let sz := n * (n + 1) / 2 * 8
  if !(bAddr b 0x20 && bAddr b 0x28 && bAddr64 b 0x30 && decide (1 ≤ n) && decide (n ≤ 16) && bF b 0x38 5 3 == 0 &&
      decide (bF b 0x38 8 2 ≤ 1) && bF b 0x38 10 6 == 0 && decide (1 ≤ cnt) && unitF (bW b 0x3C)) then (s, csFormat)
  else
    s.engIo (engPage 2 i) [(bQ b 0x20, sz * cnt)] ((bQ b 0x28, sz * cnt) :: recordRange (bQ b 0x30)) fun data =>
      let r := (List.range cnt).map fun k =>
        hinvOne n (bW b 0x3C) (bF b 0x38 8 2 == 1) (unpackUpper n true ((data.getD 0 []).drop (k * sz)))
      let sing := (r.filter (·.2)).length
      { status := csOk
        writes := (bQ b 0x28, r.flatMap (·.1)) :: recordOut (bQ b 0x30) [cnt, sing, 0, 0]
        tallies := [(Reg.DTE_TALLY_SINGULAR, 0, 32, sing)]
        used := 0 }

def execHinv (inst : Nat) (s : State) : Host.Outcome State Fault Refusal :=
  .next (s.engRow 2 4 inst fun s _ b _ => hinvRun inst s b)

end Sys2Proof.Machine
end

