-- ==== Sys2Proof/Machine/Coding.lean ====
section
/-!
DEFINITION. Sys2Proof/Machine/Coding.lean: what the coding engines share: bit strings (R223), CRCs and the Gold sequence of the
3GPP documents that R226 names, soft values (R228, R236, R237), and the HARQ directory (R239 to R241, R244).
-/
namespace Sys2Proof.Machine

/-! ### Bit strings -/

/-- The first `n` bits of a string of bytes, most significant bit first (R223). -/
def bitsIn (n : Nat) (b : List Byte) : List Bool := ((b.flatMap fun x => (List.range 8).map fun i => bitOf x.toNat (7 - i))).take n

/-- Bits as a number, the first most significant. -/
def bitsNat (b : List Bool) : Nat := b.foldl (fun a x => 2 * a + bit x) 0

/-- Bits as bytes, most significant bit first; a last part of a byte is filled with zeros. -/
def bitsOut (b : List Bool) : List Byte :=
  (List.range ((b.length + 7) / 8)).map fun k =>
    BitVec.ofNat 8 (bitsNat ((List.range 8).map fun i => b.getD (8 * k + i) false))

/-- Bytes that `n` bits take. -/
def bitBytes (n : Nat) : Nat := (n + 7) / 8

/-- The remainder of a string of bits shifted through a CRC register of `n` bits (TS 38.212 clause 5.1). -/
def crcReg (n poly : Nat) (bits : List Bool) (init : Nat) : Nat :=
  bits.foldl
    (fun r x =>
      let top := bitOf r (n - 1) != x
      let r' := 2 * r % 2 ^ n
      if top then r' ^^^ poly else r')
    init

/-- The CRC bits of a string, first bit most significant. -/
def crcBits (n poly : Nat) (bits : List Bool) : List Bool :=
  let r := crcReg n poly bits 0
  (List.range n).map fun i => bitOf r (n - 1 - i)

/-- CRC lengths and polynomials of TS 38.212 clause 5.1 and TS 36.212 clause 5.1.1 (log entry 32). -/
def polyA : Nat := 0x864CFB
def polyB : Nat := 0x800063
def polyC : Nat := 0xB2B117
def poly16 : Nat := 0x1021
def poly11 : Nat := 0x621
def poly6 : Nat := 0x21

/-- Does a string end in its own CRC? -/
def crcPass (n poly : Nat) (bits : List Bool) : Bool := crcReg n poly bits 0 == 0

/-- Steps of the two registers of the Gold sequence (TS 38.211 clause 5.2.1), collecting bits from step 1,600 on. -/
def goldGo : Nat → Nat → Nat → Nat → List Bool
  | 0, _, _, _ => []
  | n + 1, skip, x1, x2 =>
    let c := bitOf x1 0 != bitOf x2 0
    let n1 := bit (bitOf x1 3 != bitOf x1 0)
    let n2 := bit ((bitOf x2 3 != bitOf x2 2) != (bitOf x2 1 != bitOf x2 0))
    let r := goldGo n (skip - 1) (x1 / 2 + n1 * 2 ^ 30) (x2 / 2 + n2 * 2 ^ 30)
    if skip = 0 then c :: r else r

/-- The first `n` bits of the scrambling sequence of an initialiser (R226). -/
def gold (cinit n : Nat) : List Bool := goldGo (1600 + n) 1600 1 (cinit % 2 ^ 31)

/-! ### Soft values -/

/-- An LLR as it is read (R223): -128 as -127. -/
def llrIn (x : Byte) : Int := if x.toInt = -128 then -127 else x.toInt

/-- Saturation to ±`m`, and whether it struck. -/
def satTo (m x : Int) : Int × Bool := if x > m then (m, true) else if x < -m then (-m, true) else (x, false)

/-- Magnitudes of the 4-bit code (R237). -/
def harqMag : List Int := [0, 2, 5, 10, 18, 32, 56, 100]

/-- A stored code as a soft value. -/
def harqDec (x : Nat) : Int := let m := harqMag.getD (x % 8) 0; if x % 16 ≥ 8 then -m else m

/-- A soft value as a stored code: the nearest magnitude, the smaller index on a tie. -/
def harqEnc (s : Int) : Nat :=
  let a : Int := s.natAbs
  let k := (List.range 8).foldl
    (fun b i => if (a - harqMag.getD i 0).natAbs < (a - harqMag.getD b 0).natAbs then i else b) 0
  if s < 0 ∧ k ≠ 0 then 8 + k else k

/-- Bytes of a soft buffer of `n` entries (R236). -/
def softBytes (comp : Bool) (n : Nat) : Nat := if comp then (n + 1) / 2 else n

/-- A soft buffer read; a byte of -128, which is never written, is read as an LLR is (R223, R228). -/
def softIn (comp : Bool) (n : Nat) (b : List Byte) : List Int :=
  (List.range n).map fun p =>
    if comp then harqDec ((b.getD (p / 2) 0).toNat / (if p % 2 = 0 then 1 else 16)) else llrIn (b.getD p 0)

/-- A soft buffer written. -/
def softOut (comp : Bool) (v : List Int) : List Byte :=
  if comp then
    (List.range ((v.length + 1) / 2)).map fun k =>
      BitVec.ofNat 8 (harqEnc (v.getD (2 * k) 0) + 16 * harqEnc (v.getD (2 * k + 1) 0))
  else v.map fun x => BitVec.ofInt 8 x

/-! ### The HARQ directory -/

/-- Address of a directory entry (R239, R258). -/
def State.hqAddr (s : State) (e : Nat) : Nat := s.reg64 pgHqd Reg.HQD_BASE_LO + 64 * e

/-- An entry's 16 words. -/
def State.hqEntry (s : State) (e : Nat) : Except Nat (List Word) :=
  match s.read (s.hqAddr e) 64 with
  | .ok b => .ok ((List.range 16).map fun i => w32 (bW b (4 * i)))
  | r => .error (rdStatus r)

/-- An entry written: both copies of the mirrored line (R239, R386). -/
def State.hqWrite (s : State) (e : Nat) (ws : List Word) : State := (s.write (s.hqAddr e) (wordBytes ws)).1

def hqValid (e : List Word) : Bool := wfld e 0 0 1 == 1
def hqLost (e : List Word) : Bool := wfld e 0 1 1 == 1
def hqOwner (e : List Word) : Nat := wfld e 0 4 6
/-- STORED bit of code block `r` (R239). -/
def hqStored (e : List Word) (r : Nat) : Bool := bitOf (e.getD (6 + r / 32) 0).toNat (r % 32)

/-- What a decode command says of its soft buffers (R232, R254). -/
structure HqUse where
  combine : Bool
  wb : Nat
  comp : Bool
  turbo : Bool
  entry : Nat
  addr : Nat
  stride : Nat
  notify : Nat
  c : Nat
deriving DecidableEq, Repr

/-- Does the command use HARQ storage (R232)? -/
def HqUse.on (u : HqUse) : Bool := u.combine || u.wb != 0

/-- Range and ownership of an entry (R240, R258): its words, or ACCESS. -/
def State.hqTake (s : State) (fn e : Nat) : Except Nat (List Word) :=
  if !s.ready pgHqd ∨ e ≥ s.fld pgHqd Reg.HQD_ENTRIES 0 17 then .error csAccess
  else
    match s.hqEntry e with
    | .error x => .error x
    | .ok ws => if (hqValid ws ∨ hqLost ws) ∧ hqOwner ws ≠ fn then .error csAccess else .ok ws

/-- HARQ_MISMATCH (R235, R240). -/
def hqMismatch : Nat := 0x11

/-- Does an entry agree with a combining command (R240)? -/
def hqAgrees (u : HqUse) (e : List Word) : Bool :=
  wfld e 1 0 8 == u.c && (e.getD 2 0).toNat + 2 ^ 32 * (e.getD 3 0).toNat == u.addr && (e.getD 4 0).toNat == u.stride &&
    (wfld e 0 2 1 == 1) == u.comp && (wfld e 0 3 1 == 1) == u.turbo

/-- The check of an entry before any data (R240): its words (zeros with no HARQ use), or the STATUS. -/
def State.hqCheck (s : State) (fn : Nat) (u : HqUse) : Except Nat (List Word) :=
  if !u.on then .ok (List.replicate 16 0)
  else
    match s.hqTake fn u.entry with
    | .error e => .error e
    | .ok ws => if u.combine ∧ hqValid ws ∧ !hqAgrees u ws then .error hqMismatch else .ok ws

/-- A mismatch is tallied at the directory (R258). -/
def State.hqTally (s : State) (status : Nat) : State :=
  if status = hqMismatch then s.tally pgHqd Reg.HQD_TALLY_MISMATCH 0 16 1 else s

/-- What the soft buffer of a code block gives (R240, R244). -/
inductive Soft where
  | values (v : List Int)
  /-- The stored data was lost. -/
  | lost
  /-- Nothing was stored. -/
  | empty
  /-- Not asked for. -/
  | fresh
  | fails (status : Nat)
deriving DecidableEq, Repr

/-- Stored soft values of code block `r`, `n` of them. -/
def State.softOf (s : State) (u : HqUse) (e : List Word) (r n : Nat) : Soft :=
  if !u.combine then .fresh
  else if hqValid e && hqStored e r then
    match s.read (u.addr + r * u.stride) (softBytes u.comp n) with
    | .ok b => .values (softIn u.comp n b)
    | .poison _ => .lost
    | .access => .fails csAccess
  else if hqLost e then .lost
  else .empty

/-- A code block as it came out of a decoder. -/
structure CbOut where
  r : Nat
  bits : List Bool
  pass : Bool
  synd : Bool
  iters : Nat
  /-- Soft values to write back, if any. -/
  soft : List Int
  lost : Bool
  empty : Bool
  sat : Nat
deriving DecidableEq, Repr

/-- Soft values written back (R241, R244): the state, whether they were stored, lost, or out of reach. -/
def State.softBack (s : State) (u : HqUse) (cb : CbOut) : State × Bool × Bool × Bool :=
  if u.wb = 0 ∨ (u.wb = 1 ∧ cb.pass) then (s, false, false, false)
  else
    let a := u.addr + cb.r * u.stride
    let w := s.write a (softOut u.comp cb.soft)
    if w.2 == .access then
      if (linesOf a (softBytes u.comp cb.soft.length)).any fun l => s.serve l == .no then (w.1, false, false, true)
      else (w.1, false, true, false)
    else (w.1, true, false, false)

/-- Write-back of every code block in order: stored blocks, lost blocks, and whether an address was out of reach. -/
def State.softBacks (s : State) (u : HqUse) (cbs : List CbOut) : State × List Nat × List Nat × Bool :=
  cbs.foldl
    (fun a cb =>
      let at_ := u.addr + cb.r * u.stride
      let s := if cb.lost then
          match (List.range (softBytes u.comp cb.soft.length)).find? fun i => a.1.readsBad (at_ + i) with
          | some i => a.1.noteBad (at_ + i) 2 true
          | none => a.1
        else a.1
      let w := s.softBack u cb
      (w.1, if w.2.1 then a.2.1 ++ [cb.r] else a.2.1, if w.2.2.1 then a.2.2.1 ++ [cb.r] else a.2.2.1, a.2.2.2 || w.2.2.2))
    (s, [], [], false)

/-- Five words of STORED bits. -/
def storedWords (f : Nat → Bool) : List Word :=
  (List.range 5).map fun i => w32 ((List.range 32).foldl (fun a k => a + bit (f (32 * i + k)) * 2 ^ k) 0)

/-- The directory entry after a command (R241): rewritten when something was stored; a combining command under WB = 1 also
clears the bits of the blocks that passed (log entry 33). -/
def State.hqUpdate (s : State) (fn : Nat) (u : HqUse) (e : List Word) (cbs : List CbOut) (stored : List Nat) : State :=
  let passed (r : Nat) : Bool := u.wb == 1 && cbs.any fun cb => cb.r == r && cb.pass
  let keep (r : Nat) : Bool := u.combine && hqValid e && hqStored e r
  let bits (r : Nat) : Bool := (keep r || stored.contains r) && !passed r
  if !stored.isEmpty then
    s.hqWrite u.entry ([w32 (1 + 4 * bit u.comp + 8 * bit u.turbo + 16 * fn), w32 u.c, w32 u.addr,
      w32 (u.addr / 2 ^ 32), w32 u.stride, w32 u.notify] ++ storedWords bits ++ List.replicate 5 0)
  else if u.combine ∧ hqValid e ∧ u.wb = 1 then
    s.hqWrite u.entry (e.take 6 ++ storedWords bits ++ List.replicate 5 0)
  else s

/-- A word with the bits of those of `cbs`, from block `first` on, that satisfy `f`. -/
def cbMap (first : Nat) (cbs : List CbOut) (f : CbOut → Bool) : Nat :=
  cbs.foldl (fun a cb => if f cb ∧ first ≤ cb.r ∧ cb.r < first + 32 then a + 2 ^ (cb.r - first) else a) 0

/-- The result words 0 to 8 of a decode command (R233). -/
def decodeWords (first : Nat) (cbs : List CbOut) (stored lost : List Nat) : List Nat :=
  [cbs.length, cbMap first cbs (·.pass), cbMap first cbs (·.synd), cbs.foldl (fun a c => a + c.iters) 0,
   cbs.foldl (fun a c => max a c.iters) 0, cbMap first cbs (fun c => c.lost || lost.contains c.r),
   cbMap first cbs (fun c => stored.contains c.r), cbs.foldl (fun a c => a + c.sat) 0, (cbs.filter (·.empty)).length]

/-- Tallies of a decode command (R257); the TCE's registers lie where the LDE's do. -/
def decodeTallies (cbs : List CbOut) (lost : List Nat) : List (Nat × Nat × Nat × Nat) :=
  [(Reg.LDE_TALLY_SAT, 0, 32, cbs.foldl (fun a c => a + c.sat) 0), (Reg.LDE_TALLY_CB, 0, 32, cbs.length),
   (Reg.LDE_TALLY_CBFAIL, 0, 32, (cbs.filter fun c => !c.pass).length),
   (Reg.LDE_TALLY_ITER, 0, 32, cbs.foldl (fun a c => a + c.iters) 0),
   (Reg.LDE_TALLY_HQLOST, 0, 16, (cbs.filter fun c => c.lost || lost.contains c.r).length),
   (Reg.LDE_TALLY_HQLOST, 16, 16, (cbs.filter (·.empty)).length)]

/-- Reads an element of an array of integers; 0 outside. -/
def arrAt (a : Array Int) (i : Nat) : Int := a.getD i 0

/-- The LLRs of one code block mapped to circular positions and added (R228 steps 4 and 5): `pos j` is the position of the
j-th LLR. The soft values, and saturations. -/
def combine (start : List Int) (pos : List Nat) (llrs : List Int) : List Int × Nat :=
  let r := (pos.zip llrs).foldl
    (fun (a : Array Int × Nat) x =>
      let v := satTo 127 (arrAt a.1 x.1 + x.2)
      (a.1.setIfInBounds x.1 v.1, a.2 + bit v.2))
    (start.toArray, 0)
  (r.1.toList, r.2)

/-- The first `n` of the positions `k0, k0 + 1, …` modulo `ncb` that are not skipped, with fuel. -/
def positions (ncb : Nat) (skip : Nat → Bool) : Nat → Nat → Nat → List Nat
  | 0, _, _ => []
  | fuel + 1, n, k =>
    if n = 0 then []
    else if skip (k % ncb) then positions ncb skip fuel n (k + 1)
    else (k % ncb) :: positions ncb skip fuel (n - 1) (k + 1)

/-- A loss scan of the directory (R243): entries with a stored code block in the channel are marked LOST and reported. -/
def State.harqScan (s : State) (ch : Nat) : State :=
  let n := s.fld pgHqd Reg.HQD_ENTRIES 0 17
  let s := s.setReg pgHqd Reg.HQD_SCAN (w32 (2 * (ch % 128)))
  (List.range n).foldl
    (fun s e =>
      match s.hqEntry e with
      | .error _ => s
      | .ok ws =>
        let a := (ws.getD 2 0).toNat + 2 ^ 32 * (ws.getD 3 0).toNat
        let hit := hqValid ws && (List.range 160).any fun r =>
          hqStored ws r && s.region (a + r * (ws.getD 4 0).toNat) == .hbmLocal ch
        if !hit then s
        else
          let w0 := setBits (ws.getD 0 0).toNat 0 2 2
          let s := s.hqWrite e ([w32 w0] ++ (ws.take 6).drop 1 ++ List.replicate 10 0)
          let s := s.count pgHqd Reg.HQD_TALLY_LOST 1
          if wfld ws 5 31 1 = 1 then s.postTo 0x19 0 (w32 (0x33 * 2 ^ 24 + e)) (wfld ws 5 0 20) else s)
    s

/-- HARQ_SCAN: the directory part marks what a lost pseudo-channel held (R243). It acts while the part is READY and the
channel is out of service. -/
def execHarqScan (channel : Nat) (s : State) : Host.Outcome State Fault Refusal :=
  .next (if s.ready pgHqd && decide (channel < 128) && !s.serving ⟨.hbmPc, channel⟩ then s.harqScan channel else s)

end Sys2Proof.Machine
end

