-- ==== Sys2Proof/Machine/CoreAlu.lean ====
section
/-!
DEFINITION. Sys2Proof/Machine/CoreAlu.lean: the meanings of the
slot A and slot B operations (R65 to R67, R79, R80, R57, R90). An operation joins the bundle that is
presented to its core; the bundle's last operation starts the issue, which Sys2Proof.Machine.CoreIssue defines.
-/
namespace Sys2Proof.Machine

/-- ADD (R67): Format T add: gd gets ga plus gb, modulo 2^32. -/
def execAdd (k : Nat) (b : Bool) (gd ga gb : GReg) (fin : Bool) (s : State) : Host.Outcome State Fault Refusal :=
  .next (present s k fin (.add k b gd ga gb fin))

/-- SUB (R67): Format T subtract: gd gets ga minus gb. -/
def execSub (k : Nat) (b : Bool) (gd ga gb : GReg) (fin : Bool) (s : State) : Host.Outcome State Fault Refusal :=
  .next (present s k fin (.sub k b gd ga gb fin))

/-- AND (R67): Format T bitwise AND. -/
def execAnd (k : Nat) (b : Bool) (gd ga gb : GReg) (fin : Bool) (s : State) : Host.Outcome State Fault Refusal :=
  .next (present s k fin (.and k b gd ga gb fin))

/-- OR (R67): Format T bitwise OR. -/
def execOr (k : Nat) (b : Bool) (gd ga gb : GReg) (fin : Bool) (s : State) : Host.Outcome State Fault Refusal :=
  .next (present s k fin (.or k b gd ga gb fin))

/-- XOR (R67): Format T bitwise XOR. -/
def execXor (k : Nat) (b : Bool) (gd ga gb : GReg) (fin : Bool) (s : State) : Host.Outcome State Fault Refusal :=
  .next (present s k fin (.xor k b gd ga gb fin))

/-- SHL (R67): Format T left shift by gb[4:0]. -/
def execShl (k : Nat) (b : Bool) (gd ga gb : GReg) (fin : Bool) (s : State) : Host.Outcome State Fault Refusal :=
  .next (present s k fin (.shl k b gd ga gb fin))

/-- SHR (R67): Format T logical right shift by gb[4:0]. -/
def execShr (k : Nat) (b : Bool) (gd ga gb : GReg) (fin : Bool) (s : State) : Host.Outcome State Fault Refusal :=
  .next (present s k fin (.shr k b gd ga gb fin))

/-- SAR (R67): Format T arithmetic right shift by gb[4:0]. -/
def execSar (k : Nat) (b : Bool) (gd ga gb : GReg) (fin : Bool) (s : State) : Host.Outcome State Fault Refusal :=
  .next (present s k fin (.sar k b gd ga gb fin))

/-- LT (R67): Format T signed less-than compare. -/
def execLt (k : Nat) (b : Bool) (gd ga gb : GReg) (fin : Bool) (s : State) : Host.Outcome State Fault Refusal :=
  .next (present s k fin (.lt k b gd ga gb fin))

/-- LTU (R67): Format T unsigned less-than compare. -/
def execLtu (k : Nat) (b : Bool) (gd ga gb : GReg) (fin : Bool) (s : State) : Host.Outcome State Fault Refusal :=
  .next (present s k fin (.ltu k b gd ga gb fin))

/-- MIN (R67): Format T signed minimum. -/
def execMin (k : Nat) (b : Bool) (gd ga gb : GReg) (fin : Bool) (s : State) : Host.Outcome State Fault Refusal :=
  .next (present s k fin (.min k b gd ga gb fin))

/-- MAX (R67): Format T signed maximum. -/
def execMax (k : Nat) (b : Bool) (gd ga gb : GReg) (fin : Bool) (s : State) : Host.Outcome State Fault Refusal :=
  .next (present s k fin (.max k b gd ga gb fin))

/-- MINU (R67): Format T unsigned minimum. -/
def execMinu (k : Nat) (b : Bool) (gd ga gb : GReg) (fin : Bool) (s : State) : Host.Outcome State Fault Refusal :=
  .next (present s k fin (.minu k b gd ga gb fin))

/-- MAXU (R67): Format T unsigned maximum. -/
def execMaxu (k : Nat) (b : Bool) (gd ga gb : GReg) (fin : Bool) (s : State) : Host.Outcome State Fault Refusal :=
  .next (present s k fin (.maxu k b gd ga gb fin))

/-- LZ (R67): Format T count of leading zeros of ga. -/
def execLz (k : Nat) (b : Bool) (gd ga : GReg) (fin : Bool) (s : State) : Host.Outcome State Fault Refusal :=
  .next (present s k fin (.lz k b gd ga fin))

/-- PICK (R67): Format T conditional move: gd gets ga if gb is non-zero, else keeps its value. -/
def execPick (k : Nat) (b : Bool) (gd ga gb : GReg) (fin : Bool) (s : State) : Host.Outcome State Fault Refusal :=
  .next (present s k fin (.pick k b gd ga gb fin))

/-- MUL (R67): Format T multiply, low 32 bits, with latency 3. -/
def execMul (k : Nat) (b : Bool) (gd ga gb : GReg) (fin : Bool) (s : State) : Host.Outcome State Fault Refusal :=
  .next (present s k fin (.mul k b gd ga gb fin))

/-- MULHI (R67): Format T signed multiply, high 32 bits. -/
def execMulhi (k : Nat) (b : Bool) (gd ga gb : GReg) (fin : Bool) (s : State) : Host.Outcome State Fault Refusal :=
  .next (present s k fin (.mulhi k b gd ga gb fin))

/-- MULHIU (R67): Format T unsigned multiply, high 32 bits. -/
def execMulhiu (k : Nat) (b : Bool) (gd ga gb : GReg) (fin : Bool) (s : State) : Host.Outcome State Fault Refusal :=
  .next (present s k fin (.mulhiu k b gd ga gb fin))

/-- ADD_K (R66): Add of a sign-extended 14-bit constant. -/
def execAddK (k : Nat) (b : Bool) (gd ga : GReg) (k14 : BitVec 14) (fin : Bool) (s : State) : Host.Outcome State Fault Refusal :=
  .next (present s k fin (.addK k b gd ga k14 fin))

/-- AND_K (R66): AND with a zero-extended constant. -/
def execAndK (k : Nat) (b : Bool) (gd ga : GReg) (k14 : BitVec 14) (fin : Bool) (s : State) : Host.Outcome State Fault Refusal :=
  .next (present s k fin (.andK k b gd ga k14 fin))

/-- OR_K (R66): OR with a zero-extended constant. -/
def execOrK (k : Nat) (b : Bool) (gd ga : GReg) (k14 : BitVec 14) (fin : Bool) (s : State) : Host.Outcome State Fault Refusal :=
  .next (present s k fin (.orK k b gd ga k14 fin))

/-- XOR_K (R66): XOR with a zero-extended constant. -/
def execXorK (k : Nat) (b : Bool) (gd ga : GReg) (k14 : BitVec 14) (fin : Bool) (s : State) : Host.Outcome State Fault Refusal :=
  .next (present s k fin (.xorK k b gd ga k14 fin))

/-- LT_K (R66): Signed compare with a sign-extended constant. -/
def execLtK (k : Nat) (b : Bool) (gd ga : GReg) (k14 : BitVec 14) (fin : Bool) (s : State) : Host.Outcome State Fault Refusal :=
  .next (present s k fin (.ltK k b gd ga k14 fin))

/-- LTU_K (R66): Unsigned compare with a zero-extended constant. -/
def execLtuK (k : Nat) (b : Bool) (gd ga : GReg) (k14 : BitVec 14) (fin : Bool) (s : State) : Host.Outcome State Fault Refusal :=
  .next (present s k fin (.ltuK k b gd ga k14 fin))

/-- SHL_K (R66): Left shift by a constant. -/
def execShlK (k : Nat) (b : Bool) (gd ga : GReg) (k14 : BitVec 14) (fin : Bool) (s : State) : Host.Outcome State Fault Refusal :=
  .next (present s k fin (.shlK k b gd ga k14 fin))

/-- SHR_K (R66): Logical right shift by a constant. -/
def execShrK (k : Nat) (b : Bool) (gd ga : GReg) (k14 : BitVec 14) (fin : Bool) (s : State) : Host.Outcome State Fault Refusal :=
  .next (present s k fin (.shrK k b gd ga k14 fin))

/-- SAR_K (R66): Arithmetic right shift by a constant. -/
def execSarK (k : Nat) (b : Bool) (gd ga : GReg) (k14 : BitVec 14) (fin : Bool) (s : State) : Host.Outcome State Fault Refusal :=
  .next (present s k fin (.sarK k b gd ga k14 fin))

/-- MUL_K (R66): Multiply by a sign-extended constant, low 32 bits. -/
def execMulK (k : Nat) (b : Bool) (gd ga : GReg) (k14 : BitVec 14) (fin : Bool) (s : State) : Host.Outcome State Fault Refusal :=
  .next (present s k fin (.mulK k b gd ga k14 fin))

/-- SETU (R66): Sets gd to k18 times 2^14. -/
def execSetu (k : Nat) (b : Bool) (gd : GReg) (k18 : BitVec 18) (fin : Bool) (s : State) : Host.Outcome State Fault Refusal :=
  .next (present s k fin (.setu k b gd k18 fin))

/-- B_EQ (R79): Branches if ga equals gb, after two delay slots. -/
def execBEq (k : Nat) (b : Bool) (ga gb : GReg) (disp : BitVec 15) (fin : Bool) (s : State) : Host.Outcome State Fault Refusal :=
  .next (present s k fin (.bEq k b ga gb disp fin))

/-- B_NE (R79): Branches if ga differs from gb. -/
def execBNe (k : Nat) (b : Bool) (ga gb : GReg) (disp : BitVec 15) (fin : Bool) (s : State) : Host.Outcome State Fault Refusal :=
  .next (present s k fin (.bNe k b ga gb disp fin))

/-- B_LT (R79): Branches on signed less-than. -/
def execBLt (k : Nat) (b : Bool) (ga gb : GReg) (disp : BitVec 15) (fin : Bool) (s : State) : Host.Outcome State Fault Refusal :=
  .next (present s k fin (.bLt k b ga gb disp fin))

/-- B_GE (R79): Branches on signed greater-or-equal. -/
def execBGe (k : Nat) (b : Bool) (ga gb : GReg) (disp : BitVec 15) (fin : Bool) (s : State) : Host.Outcome State Fault Refusal :=
  .next (present s k fin (.bGe k b ga gb disp fin))

/-- B_LTU (R79): Branches on unsigned less-than. -/
def execBLtu (k : Nat) (b : Bool) (ga gb : GReg) (disp : BitVec 15) (fin : Bool) (s : State) : Host.Outcome State Fault Refusal :=
  .next (present s k fin (.bLtu k b ga gb disp fin))

/-- B_GEU (R79): Branches on unsigned greater-or-equal. -/
def execBGeu (k : Nat) (b : Bool) (ga gb : GReg) (disp : BitVec 15) (fin : Bool) (s : State) : Host.Outcome State Fault Refusal :=
  .next (present s k fin (.bGeu k b ga gb disp fin))

/-- JMP_L (R66): Relative jump and link, with two delay slots. -/
def execJmpL (k : Nat) (b : Bool) (gd : GReg) (disp : BitVec 17) (fin : Bool) (s : State) : Host.Outcome State Fault Refusal :=
  .next (present s k fin (.jmpL k b gd disp fin))

/-- JMP_LR (R66): Indirect jump to ga and link; a bad target raises ACCESS_FAULT. -/
def execJmpLr (k : Nat) (b : Bool) (gd ga : GReg) (fin : Bool) (s : State) : Host.Outcome State Fault Refusal :=
  .next (present s k fin (.jmpLr k b gd ga fin))

/-- LOOP_I (R80): Hardware-loop setup with an immediate count. -/
def execLoopI (k : Nat) (b : Bool) (one rot : Bool) (count e : BitVec 12) (fin : Bool) (s : State) : Host.Outcome State Fault Refusal :=
  .next (present s k fin (.loopI k b one rot count e fin))

/-- LOOP_R (R80): Hardware-loop setup with the count taken from ga. -/
def execLoopR (k : Nat) (b : Bool) (one rot : Bool) (ga : GReg) (e : BitVec 12) (fin : Bool) (s : State) : Host.Outcome State Fault Refusal :=
  .next (present s k fin (.loopR k b one rot ga e fin))

/-- RDC (R57): Reads a control register into gd. -/
def execRdc (k : Nat) (b : Bool) (gd : GReg) (csel : BitVec 6) (fin : Bool) (s : State) : Host.Outcome State Fault Refusal :=
  .next (present s k fin (.rdc k b gd csel fin))

/-- WRC (R57): Writes a control register from ga; an RO register or an unlisted selector raises ILLEGAL. -/
def execWrc (k : Nat) (b : Bool) (csel : BitVec 6) (ga : GReg) (fin : Bool) (s : State) : Host.Outcome State Fault Refusal :=
  .next (present s k fin (.wrc k b csel ga fin))

/-- IE_OFF (R66): Clears IE and masks interrupts. -/
def execIeOff (k : Nat) (b : Bool) (fin : Bool) (s : State) : Host.Outcome State Fault Refusal :=
  .next (present s k fin (.ieOff k b fin))

/-- IE_ON (R66): Sets IE, except while EXL is 1. -/
def execIeOn (k : Nat) (b : Bool) (fin : Bool) (s : State) : Host.Outcome State Fault Refusal :=
  .next (present s k fin (.ieOn k b fin))

/-- ERET (R90): Returns from an exception: restores STAT from ESTAT and continues at EPC, or re-issues the V operation from VIDX. -/
def execEret (k : Nat) (b : Bool) (fin : Bool) (s : State) : Host.Outcome State Fault Refusal :=
  .next (present s k fin (.eret k b fin))

/-- TRAP (R66): Raises the TRAP exception with DETAIL k13. -/
def execTrap (k : Nat) (b : Bool) (k13 : BitVec 13) (fin : Bool) (s : State) : Host.Outcome State Fault Refusal :=
  .next (present s k fin (.trap k b k13 fin))

end Sys2Proof.Machine
end

