-- ==== Sys2Proof/Machine/CoreLoadStore.lean ====
section
/-!
DEFINITION. Sys2Proof/Machine/CoreLoadStore.lean: the meanings of the
scalar memory operations and control blocks of slot M (R68 to R77, R95). An operation joins the bundle that is
presented to its core; the bundle's last operation starts the issue, which Sys2Proof.Machine.CoreIssue defines.
-/
namespace Sys2Proof.Machine

/-- LD_B (R69): Loads a byte, sign-extended. -/
def execLdB (k : Nat) (rd base : GReg) (off16 : BitVec 16) (fin : Bool) (s : State) : Host.Outcome State Fault Refusal :=
  .next (present s k fin (.ldB k rd base off16 fin))

/-- LD_BU (R69): Loads a byte, zero-extended. -/
def execLdBu (k : Nat) (rd base : GReg) (off16 : BitVec 16) (fin : Bool) (s : State) : Host.Outcome State Fault Refusal :=
  .next (present s k fin (.ldBu k rd base off16 fin))

/-- LD_H (R69): Loads a halfword, sign-extended. -/
def execLdH (k : Nat) (rd base : GReg) (off16 : BitVec 16) (fin : Bool) (s : State) : Host.Outcome State Fault Refusal :=
  .next (present s k fin (.ldH k rd base off16 fin))

/-- LD_HU (R69): Loads a halfword, zero-extended. -/
def execLdHu (k : Nat) (rd base : GReg) (off16 : BitVec 16) (fin : Bool) (s : State) : Host.Outcome State Fault Refusal :=
  .next (present s k fin (.ldHu k rd base off16 fin))

/-- LD_W (R73): Loads a word; the access and its code check finish before the next bundle issues. -/
def execLdW (k : Nat) (rd base : GReg) (off16 : BitVec 16) (fin : Bool) (s : State) : Host.Outcome State Fault Refusal :=
  .next (present s k fin (.ldW k rd base off16 fin))

/-- ST_B (R69): Stores a byte. -/
def execStB (k : Nat) (rs base : GReg) (off16 : BitVec 16) (fin : Bool) (s : State) : Host.Outcome State Fault Refusal :=
  .next (present s k fin (.stB k rs base off16 fin))

/-- ST_H (R69): Stores a halfword. -/
def execStH (k : Nat) (rs base : GReg) (off16 : BitVec 16) (fin : Bool) (s : State) : Host.Outcome State Fault Refusal :=
  .next (present s k fin (.stH k rs base off16 fin))

/-- ST_W (R74): Stores a word, directly or through the store-gather buffer. -/
def execStW (k : Nat) (rs base : GReg) (off16 : BitVec 16) (fin : Bool) (s : State) : Host.Outcome State Fault Refusal :=
  .next (present s k fin (.stW k rs base off16 fin))

/-- LD_W_PM (R69): Loads a word, then adds the offset to the base. -/
def execLdWPm (k : Nat) (rd base : GReg) (off16 : BitVec 16) (fin : Bool) (s : State) : Host.Outcome State Fault Refusal :=
  .next (present s k fin (.ldWPm k rd base off16 fin))

/-- ST_W_PM (R69): Stores a word, then adds the offset to the base. -/
def execStWPm (k : Nat) (rs base : GReg) (off16 : BitVec 16) (fin : Bool) (s : State) : Host.Outcome State Fault Refusal :=
  .next (present s k fin (.stWPm k rs base off16 fin))

/-- LD_D (R69): Loads 64 bits into an f register. -/
def execLdD (k : Nat) (fd : FReg) (base : GReg) (off13 : BitVec 13) (fin : Bool) (s : State) : Host.Outcome State Fault Refusal :=
  .next (present s k fin (.ldD k fd base off13 fin))

/-- ST_D (R69): Stores 64 bits from an f register. -/
def execStD (k : Nat) (fs : FReg) (base : GReg) (off13 : BitVec 13) (fin : Bool) (s : State) : Host.Outcome State Fault Refusal :=
  .next (present s k fin (.stD k fs base off13 fin))

/-- LDF_W (R71): Far load of a word at a 48-bit device address. -/
def execLdfW (k : Nat) (rd base : GReg) (off16 : BitVec 16) (fin : Bool) (s : State) : Host.Outcome State Fault Refusal :=
  .next (present s k fin (.ldfW k rd base off16 fin))

/-- STF_W (R71): Far store of a word. -/
def execStfW (k : Nat) (rs base : GReg) (off16 : BitVec 16) (fin : Bool) (s : State) : Host.Outcome State Fault Refusal :=
  .next (present s k fin (.stfW k rs base off16 fin))

/-- LDF_D (R71): Far load of 64 bits into an f register. -/
def execLdfD (k : Nat) (fd : FReg) (base : GReg) (off13 : BitVec 13) (fin : Bool) (s : State) : Host.Outcome State Fault Refusal :=
  .next (present s k fin (.ldfD k fd base off13 fin))

/-- STF_D (R71): Far store of 64 bits. -/
def execStfD (k : Nat) (fs : FReg) (base : GReg) (off13 : BitVec 13) (fin : Bool) (s : State) : Host.Outcome State Fault Refusal :=
  .next (present s k fin (.stfD k fs base off13 fin))

/-- CSAVE (R95): Stores the selected control registers to a 64-byte control block. -/
def execCsave (k : Nat) (off5 : BitVec 5) (base : GReg) (mask16 : BitVec 16) (fin : Bool) (s : State) : Host.Outcome State Fault Refusal :=
  .next (present s k fin (.csave k off5 base mask16 fin))

/-- CREST (R95): Loads the selected control registers from a control block. -/
def execCrest (k : Nat) (off5 : BitVec 5) (base : GReg) (mask16 : BitVec 16) (fin : Bool) (s : State) : Host.Outcome State Fault Refusal :=
  .next (present s k fin (.crest k off5 base mask16 fin))

end Sys2Proof.Machine
end

