-- ==== Sys2Proof/Machine/CoreTask.lean ====
section
/-!
DEFINITION. Sys2Proof/Machine/CoreTask.lean: the meanings of the
settling, task, wait and push operations of slot M, and the events of a core (R76 to R105, R139 to R145). An operation joins the bundle that is
presented to its core; the bundle's last operation starts the issue, which Sys2Proof.Machine.CoreIssue defines.
-/
namespace Sys2Proof.Machine

/-- SETTLE (R76): Waits until all store-gather entries have landed, then drops the read-buffer lines. -/
def execSettle (k : Nat) (fin : Bool) (s : State) : Host.Outcome State Fault Refusal :=
  .next (present s k fin (.settle k fin))

/-- DONE (R99): Ends the task: completes all operations, settles, and reports completion with STATUS. -/
def execDone (k : Nat) (status : Byte) (fin : Bool) (s : State) : Host.Outcome State Fault Refusal :=
  .next (present s k fin (.done k status fin))

/-- WAIT_TASK (R96): The core idles until a dispatch arrives. -/
def execWaitTask (k : Nat) (fin : Bool) (s : State) : Host.Outcome State Fault Refusal :=
  .next (present s k fin (.waitTask k fin))

/-- WAIT_EV (R101): Waits until all or any of up to 4 match entries have matched, then issues with the match mask. -/
def execWaitEv (k : Nat) (rd rs : GReg) (imm11 : BitVec 11) (fin : Bool) (s : State) : Host.Outcome State Fault Refusal :=
  .next (present s k fin (.waitEv k rd rs imm11 fin))

/-- YIELD_PRE (R103): Suspends the pre-empted task and returns the core to idle for the pre-empting dispatch. -/
def execYieldPre (k : Nat) (fin : Bool) (s : State) : Host.Outcome State Fault Refusal :=
  .next (present s k fin (.yieldPre k fin))

/-- Q_PUSH (R100): Enqueues a 64-byte descriptor on a queue and returns ACCEPTED, DROPPED or REFUSED. -/
def execQPush (k : Nat) (rd rs rt : GReg) (imm11 : BitVec 11) (fin : Bool) (s : State) : Host.Outcome State Fault Refusal :=
  .next (present s k fin (.qPush k rd rs rt imm11 fin))

/-- EQ_PUSH (R139): Settles and pushes an engine command block, and returns a tag and a status. -/
def execEqPush (k : Nat) (rd rs rt : GReg) (imm11 : BitVec 11) (fin : Bool) (s : State) : Host.Outcome State Fault Refusal :=
  .next (present s k fin (.eqPush k rd rs rt imm11 fin))

/-- ESAVE (R145): Core operation that pushes the save of a resident engine context to memory. -/
def execEsave (k : Nat) (rd rs rt : GReg) (imm11 : BitVec 11) (fin : Bool) (s : State) : Host.Outcome State Fault Refusal :=
  .next (present s k fin (.esave k rd rs rt imm11 fin))

/-- EREST (R145): Core operation that pushes the load of a context image into an engine slot. -/
def execErest (k : Nat) (rd rs rt : GReg) (imm11 : BitVec 11) (fin : Bool) (s : State) : Host.Outcome State Fault Refusal :=
  .next (present s k fin (.erest k rd rs rt imm11 fin))

/-- LOOP_BACK_EDGE (R81): the bundle at LEk of an active loop issues, empty where nothing was presented; the loop's
count decrements and control goes back, or falls through at a count of 1. -/
def execLoopBackEdge (k : Nat) (s : State) : Host.Outcome State Fault Refusal :=
  let c := s.core k
  let at_ (lc le : Word) : Bool := lc != 0 && decide (c.pc = le.toNat)
  if issues c && !c.waiting && bitOf c.stat.toNat 2 && (at_ c.lc1 c.le1 || at_ c.lc0 c.le0) then
    .next (lateWait (issue (s.setCore k { c with bundle := [] }) k c.bundle) k)
  else .next s

/-- PREEMPT (R102): the core takes the pre-emption that the fabric has decided for it, at once where R84 and R88
allow, otherwise at the first boundary that does. -/
def execPreempt (k : Nat) (s : State) : Host.Outcome State Fault Refusal :=
  let c := s.core k
  if s.fab.preempting.any (fun p => p.2 == k) && c.run == .running then
    .next (boundary (s.setCore k { c with preempt := true }) k)
  else .next s

/-- MASK_OVERRUN (R94): a masked region has reached 4,096 Tc. -/
def execMaskOverrun (k : Nat) (s : State) : Host.Outcome State Fault Refusal :=
  let c := s.core k
  match c.maskSince with
  | some t => .next (if c.run == .running && decide (s.airtime ≥ t + 4096) then coreFail s k 0x21 0 else s)
  | none => .next s

/-- FETCH_POISON (R89, R567, R577): the fetch of the next bundle meets poison. The task is abandoned, to run once more or
to fail with cause 0x20; the core goes TENDING until it is reloaded. -/
def execFetchPoison (k : Nat) (s : State) : Host.Outcome State Fault Refusal :=
  let c := s.core k
  if issues c then
    let it := s.coreItem k
    let s := coreTerminal s k 0x20 (c.pc / 16)
    let s := s.setCore k { s.core k with reload := true }
    let s := match it with
      | some i => s.abandonTask i true
      | none => s
    .next (s.setPart (pgCore k) stTending)
  else .next s

/-- STORE_GATHER_DRAIN (R74): entry `i` of the store-gather buffer drains to its target. -/
def execStoreGatherDrain (k i : Nat) (s : State) : Host.Outcome State Fault Refusal := .next (sgDrain s k i)

end Sys2Proof.Machine
end

