-- ==== Sys2Proof/Machine/CoreVector.lean ====
section
/-!
DEFINITION. Sys2Proof/Machine/CoreVector.lean: the meanings of the
vector operations of slots V and M (R107 to R138). An operation joins the bundle that is
presented to its core; the bundle's last operation starts the issue, which Sys2Proof.Machine.CoreIssue defines.
-/
namespace Sys2Proof.Machine

/-- VLD_Q (R127): Loads 64 bytes into a group. -/
def execVldQ (k : Nat) (grp : Grp) (gb : GReg) (off16 : BitVec 16) (fin : Bool) (s : State) : Host.Outcome State Fault Refusal :=
  .next (present s k fin (.vldQ k grp gb off16 fin))

/-- VLD_Q_PM (R138): Loads 64 bytes into a group, with post-modify of the base. -/
def execVldQPm (k : Nat) (grp : Grp) (gb : GReg) (off16 : BitVec 16) (fin : Bool) (s : State) : Host.Outcome State Fault Refusal :=
  .next (present s k fin (.vldQPm k grp gb off16 fin))

/-- VST_Q (R127): Stores a group of 64 bytes. -/
def execVstQ (k : Nat) (grp : Grp) (gb : GReg) (off16 : BitVec 16) (fin : Bool) (s : State) : Host.Outcome State Fault Refusal :=
  .next (present s k fin (.vstQ k grp gb off16 fin))

/-- VST_Q_PM (R138): Stores a group, with post-modify of the base. -/
def execVstQPm (k : Nat) (grp : Grp) (gb : GReg) (off16 : BitVec 16) (fin : Bool) (s : State) : Host.Outcome State Fault Refusal :=
  .next (present s k fin (.vstQPm k grp gb off16 fin))

/-- VLD_V (R127): Loads 256 bytes into a long register. -/
def execVldV (k : Nat) (v : BitVec 3) (gb : GReg) (off16 : BitVec 16) (fin : Bool) (s : State) : Host.Outcome State Fault Refusal :=
  .next (present s k fin (.vldV k v gb off16 fin))

/-- VST_V (R127): Stores 256 bytes from a long register. -/
def execVstV (k : Nat) (v : BitVec 3) (gb : GReg) (off16 : BitVec 16) (fin : Bool) (s : State) : Host.Outcome State Fault Refusal :=
  .next (present s k fin (.vstV k v gb off16 fin))

/-- VLD_B (R127): Loads bfpN blocks into a long register, unpacking mantissas and exponents. -/
def execVldB (k : Nat) (v : BitVec 3) (gb : GReg) (off16 : BitVec 16) (fin : Bool) (s : State) : Host.Outcome State Fault Refusal :=
  .next (present s k fin (.vldB k v gb off16 fin))

/-- VLD_B_PM (R138): Loads bfp blocks with post-modify by the packed size. -/
def execVldBPm (k : Nat) (v : BitVec 3) (gb : GReg) (off16 : BitVec 16) (fin : Bool) (s : State) : Host.Outcome State Fault Refusal :=
  .next (present s k fin (.vldBPm k v gb off16 fin))

/-- VST_B (R127): Packs bfp blocks to memory, narrowing mantissas and setting SATF. -/
def execVstB (k : Nat) (v : BitVec 3) (gb : GReg) (off16 : BitVec 16) (fin : Bool) (s : State) : Host.Outcome State Fault Refusal :=
  .next (present s k fin (.vstB k v gb off16 fin))

/-- VST_B_PM (R138): Packs bfp blocks with post-modify. -/
def execVstBPm (k : Nat) (v : BitVec 3) (gb : GReg) (off16 : BitVec 16) (fin : Bool) (s : State) : Host.Outcome State Fault Refusal :=
  .next (present s k fin (.vstBPm k v gb off16 fin))

/-- VLDF_Q (R127): Far load of a group. -/
def execVldfQ (k : Nat) (grp : Grp) (gb : GReg) (off16 : BitVec 16) (fin : Bool) (s : State) : Host.Outcome State Fault Refusal :=
  .next (present s k fin (.vldfQ k grp gb off16 fin))

/-- VSTF_Q (R127): Far store of a group. -/
def execVstfQ (k : Nat) (grp : Grp) (gb : GReg) (off16 : BitVec 16) (fin : Bool) (s : State) : Host.Outcome State Fault Refusal :=
  .next (present s k fin (.vstfQ k grp gb off16 fin))

/-- VLDF_B (R127): Far load of bfp blocks. -/
def execVldfB (k : Nat) (v : BitVec 3) (gb : GReg) (off16 : BitVec 16) (fin : Bool) (s : State) : Host.Outcome State Fault Refusal :=
  .next (present s k fin (.vldfB k v gb off16 fin))

/-- VSTF_B (R127): Far store of bfp blocks. -/
def execVstfB (k : Nat) (v : BitVec 3) (gb : GReg) (off16 : BitVec 16) (fin : Bool) (s : State) : Host.Outcome State Fault Refusal :=
  .next (present s k fin (.vstfB k v gb off16 fin))

/-- MFR (R131): Copies 32 bits of an f register to a g register. -/
def execMfr (k : Nat) (gd : GReg) (fs : FReg) (h : Bool) (fin : Bool) (s : State) : Host.Outcome State Fault Refusal :=
  .next (present s k fin (.mfr k gd fs h fin))

/-- ASAVE (R132): Saves a 640-byte accumulator image to near memory. -/
def execAsave (k : Nat) (a : Bool) (gb : GReg) (off16 : BitVec 16) (fin : Bool) (s : State) : Host.Outcome State Fault Refusal :=
  .next (present s k fin (.asave k a gb off16 fin))

/-- AREST (R132): Restores an accumulator image from near memory. -/
def execArest (k : Nat) (a : Bool) (gb : GReg) (off16 : BitVec 16) (fin : Bool) (s : State) : Host.Outcome State Fault Refusal :=
  .next (present s k fin (.arest k a gb off16 fin))

/-- VADD (R120): Element-wise add. -/
def execVadd (k : Nat) (long : Bool) (vd va vb : Grp) (sc : Bool) (fin : Bool) (s : State) : Host.Outcome State Fault Refusal :=
  .next (present s k fin (.vadd k long vd va vb sc fin))

/-- VSUB (R120): Element-wise subtract. -/
def execVsub (k : Nat) (long : Bool) (vd va vb : Grp) (sc : Bool) (fin : Bool) (s : State) : Host.Outcome State Fault Refusal :=
  .next (present s k fin (.vsub k long vd va vb sc fin))

/-- VMUL (R120): Element-wise multiply, complex for cq16, cf32 and bfp. -/
def execVmul (k : Nat) (long : Bool) (vd va vb : Grp) (sc cj : Bool) (fin : Bool) (s : State) : Host.Outcome State Fault Refusal :=
  .next (present s k fin (.vmul k long vd va vb sc cj fin))

/-- VMIN (R120): Element-wise minimum. -/
def execVmin (k : Nat) (long : Bool) (vd va vb : Grp) (sc : Bool) (fin : Bool) (s : State) : Host.Outcome State Fault Refusal :=
  .next (present s k fin (.vmin k long vd va vb sc fin))

/-- VMAX (R120): Element-wise maximum. -/
def execVmax (k : Nat) (long : Bool) (vd va vb : Grp) (sc : Bool) (fin : Bool) (s : State) : Host.Outcome State Fault Refusal :=
  .next (present s k fin (.vmax k long vd va vb sc fin))

/-- VAND (R120): Element-wise bitwise AND. -/
def execVand (k : Nat) (long : Bool) (vd va vb : Grp) (sc : Bool) (fin : Bool) (s : State) : Host.Outcome State Fault Refusal :=
  .next (present s k fin (.vand k long vd va vb sc fin))

/-- VOR (R120): Element-wise bitwise OR. -/
def execVor (k : Nat) (long : Bool) (vd va vb : Grp) (sc : Bool) (fin : Bool) (s : State) : Host.Outcome State Fault Refusal :=
  .next (present s k fin (.vor k long vd va vb sc fin))

/-- VXOR (R120): Element-wise bitwise XOR. -/
def execVxor (k : Nat) (long : Bool) (vd va vb : Grp) (sc : Bool) (fin : Bool) (s : State) : Host.Outcome State Fault Refusal :=
  .next (present s k fin (.vxor k long vd va vb sc fin))

/-- VSRA (R120): Element-wise arithmetic right shift with rounding. -/
def execVsra (k : Nat) (long : Bool) (vd va : Grp) (t : BitVec 5) (fin : Bool) (s : State) : Host.Outcome State Fault Refusal :=
  .next (present s k fin (.vsra k long vd va t fin))

/-- VSLL (R120): Element-wise left shift with narrowing. -/
def execVsll (k : Nat) (long : Bool) (vd va : Grp) (t : BitVec 5) (fin : Bool) (s : State) : Host.Outcome State Fault Refusal :=
  .next (present s k fin (.vsll k long vd va t fin))

/-- VPOW (R120): Power of cq16 elements as i32. -/
def execVpow (k : Nat) (long : Bool) (vd va : Grp) (fin : Bool) (s : State) : Host.Outcome State Fault Refusal :=
  .next (present s k fin (.vpow k long vd va fin))

/-- VCVT (R121): Converts elements between types, bfp included. -/
def execVcvt (k : Nat) (long : Bool) (vd va : Grp) (tgt : BitVec 4) (fin : Bool) (s : State) : Host.Outcome State Fault Refusal :=
  .next (present s k fin (.vcvt k long vd va tgt fin))

/-- VBCST (R120): Broadcasts a scalar to every element. -/
def execVbcst (k : Nat) (long : Bool) (vd : Grp) (gb : GReg) (fin : Bool) (s : State) : Host.Outcome State Fault Refusal :=
  .next (present s k fin (.vbcst k long vd gb fin))

/-- VMOV (R120): Copies a whole operand. -/
def execVmov (k : Nat) (long : Bool) (vd va : Grp) (fin : Bool) (s : State) : Host.Outcome State Fault Refusal :=
  .next (present s k fin (.vmov k long vd va fin))

/-- VZERO (R120): Writes zero over a whole operand. -/
def execVzero (k : Nat) (long : Bool) (vd : Grp) (fin : Bool) (s : State) : Host.Outcome State Fault Refusal :=
  .next (present s k fin (.vzero k long vd fin))

/-- CMAC (R123): Complex multiply-accumulate into an accumulator, applying bfp exponents. -/
def execCmac (k : Nat) (long ad : Bool) (tb : BitVec 2) (cj : Bool) (va vb : Grp) (fin : Bool) (s : State) : Host.Outcome State Fault Refusal :=
  .next (present s k fin (.cmac k long ad tb cj va vb fin))

/-- CMUL (R123): Complex multiply into an accumulator. -/
def execCmul (k : Nat) (long ad : Bool) (tb : BitVec 2) (cj : Bool) (va vb : Grp) (fin : Bool) (s : State) : Host.Outcome State Fault Refusal :=
  .next (present s k fin (.cmul k long ad tb cj va vb fin))

/-- ACLR (R123): Clears every lane of an accumulator. -/
def execAclr (k : Nat) (ad : Bool) (fin : Bool) (s : State) : Host.Outcome State Fault Refusal :=
  .next (present s k fin (.aclr k ad fin))

/-- ARD_C (R124): Reads an accumulator into cq16 elements with shift and rounding. -/
def execArdC (k : Nat) (long : Bool) (vd : Grp) (a : Bool) (sh : BitVec 6) (fin : Bool) (s : State) : Host.Outcome State Fault Refusal :=
  .next (present s k fin (.ardC k long vd a sh fin))

/-- ARD_V (R124): Reads an accumulator into normalized bfp blocks. -/
def execArdV (k : Nat) (vd : Grp) (a : Bool) (sh : BitVec 6) (fin : Bool) (s : State) : Host.Outcome State Fault Refusal :=
  .next (present s k fin (.ardV k vd a sh fin))

/-- VMIN_IX (R125): Finds the minimum and the index of its first occurrence. -/
def execVminIx (k : Nat) (long : Bool) (fd : FReg) (src : Grp) (abs : Bool) (fin : Bool) (s : State) : Host.Outcome State Fault Refusal :=
  .next (present s k fin (.vminIx k long fd src abs fin))

/-- VMAX_IX (R125): Finds the maximum and the index of its first occurrence. -/
def execVmaxIx (k : Nat) (long : Bool) (fd : FReg) (src : Grp) (abs : Bool) (fin : Bool) (s : State) : Host.Outcome State Fault Refusal :=
  .next (present s k fin (.vmaxIx k long fd src abs fin))

/-- VMIN2_IX (R126): Finds min1, its index and min2 for min-sum. -/
def execVmin2Ix (k : Nat) (long : Bool) (fd : FReg) (src : Grp) (abs : Bool) (fin : Bool) (s : State) : Host.Outcome State Fault Refusal :=
  .next (present s k fin (.vmin2Ix k long fd src abs fin))

/-- VLDS (R128): Strided element load to near memory addresses. -/
def execVlds (k : Nat) (long : Bool) (vd : Grp) (base stride : GReg) (fin : Bool) (s : State) : Host.Outcome State Fault Refusal :=
  .next (present s k fin (.vlds k long vd base stride fin))

/-- VSTS (R128): Strided element store. -/
def execVsts (k : Nat) (long : Bool) (vs : Grp) (base stride : GReg) (fin : Bool) (s : State) : Host.Outcome State Fault Refusal :=
  .next (present s k fin (.vsts k long vs base stride fin))

/-- VGTH (R128): Indexed gather of elements. -/
def execVgth (k : Nat) (long : Bool) (vd : Grp) (base : GReg) (idx : Grp) (fin : Bool) (s : State) : Host.Outcome State Fault Refusal :=
  .next (present s k fin (.vgth k long vd base idx fin))

/-- VSCT (R128): Indexed scatter of elements. -/
def execVsct (k : Nat) (long : Bool) (vs : Grp) (base : GReg) (idx : Grp) (fin : Bool) (s : State) : Host.Outcome State Fault Refusal :=
  .next (present s k fin (.vsct k long vs base idx fin))

end Sys2Proof.Machine
end

