-- ==== Sys2Proof/Machine/DebugStep.lean ====
section
/-!
DEFINITION. Sys2Proof/Machine/DebugStep.lean: bundles as instruction memory holds them (R59, R65 to R69, R136 to R138), and the debug
page of a core (R585), which issues them one by one.
-/
namespace Sys2Proof.Machine

/-! ### Slots -/

def gAt (w lo : Nat) : GReg := BitVec.ofNat 5 (bitsOf w lo 5)

/-- A slot that holds no encoding of the tables. It stands for a constant shift out of range, a long-width accumulator
read shifted too far, or a block load whose unused field is not zero, each of which raises ILLEGAL with DETAIL 1. -/
def badScalar (k : Nat) (b : Bool) : Instr := .shlK k b 0 0 0x2000 true
def badV (k : Nat) : Instr := .ardC k true 0 false 63 true
def badM (k : Nat) : Instr := .vldBPm k 0 0 1 true

/-- Format T (R67). -/
def decodeT (k : Nat) (b : Bool) (w : Nat) : Instr :=
  let gd := gAt w 7
  let ga := gAt w 12
  let gb := gAt w 17
  if bitsOf w 0 7 ≠ 0 then badScalar k b
  else match bitsOf w 22 6 with
    | 0x00 => .add k b gd ga gb true
    | 0x01 => .sub k b gd ga gb true
    | 0x02 => .and k b gd ga gb true
    | 0x03 => .or k b gd ga gb true
    | 0x04 => .xor k b gd ga gb true
    | 0x05 => .shl k b gd ga gb true
    | 0x06 => .shr k b gd ga gb true
    | 0x07 => .sar k b gd ga gb true
    | 0x08 => .lt k b gd ga gb true
    | 0x09 => .ltu k b gd ga gb true
    | 0x0A => .min k b gd ga gb true
    | 0x0B => .max k b gd ga gb true
    | 0x0C => .minu k b gd ga gb true
    | 0x0D => .maxu k b gd ga gb true
    | 0x0E => if gb = 0 then .lz k b gd ga true else badScalar k b
    | 0x0F => .pick k b gd ga gb true
    | 0x10 => .mul k b gd ga gb true
    | 0x11 => .mulhi k b gd ga gb true
    | 0x12 => .mulhiu k b gd ga gb true
    | _ => badScalar k b

/-- Format K (R66). -/
def decodeK (k : Nat) (b : Bool) (w : Nat) : Instr :=
  let gd := gAt w 19
  let ga := gAt w 14
  let c : BitVec 14 := BitVec.ofNat 14 w
  match bitsOf w 24 4 with
  | 0x0 => .addK k b gd ga c true
  | 0x1 => .andK k b gd ga c true
  | 0x2 => .orK k b gd ga c true
  | 0x3 => .xorK k b gd ga c true
  | 0x4 => .ltK k b gd ga c true
  | 0x5 => .ltuK k b gd ga c true
  | 0x6 => .shlK k b gd ga c true
  | 0x7 => .shrK k b gd ga c true
  | 0x8 => .sarK k b gd ga c true
  | 0x9 => .mulK k b gd ga c true
  | _ => badScalar k b

/-- Format C (R66). -/
def decodeC (k : Nat) (b : Bool) (w : Nat) : Instr :=
  let ga := gAt w 20
  let gb := gAt w 15
  let d : BitVec 15 := BitVec.ofNat 15 w
  match bitsOf w 25 3 with
  | 0 => .bEq k b ga gb d true
  | 1 => .bNe k b ga gb d true
  | 2 => .bLt k b ga gb d true
  | 3 => .bGe k b ga gb d true
  | 4 => .bLtu k b ga gb d true
  | 5 => .bGeu k b ga gb d true
  | _ => badScalar k b

/-- Format X (R66). -/
def decodeX (k : Nat) (b : Bool) (w : Nat) : Instr :=
  let g := gAt w 19
  let csel : BitVec 6 := BitVec.ofNat 6 (bitsOf w 13 6)
  match bitsOf w 24 4 with
  | 0x0 => if bitsOf w 0 13 = 0 then .rdc k b g csel true else badScalar k b
  | 0x1 => if bitsOf w 0 13 = 0 then .wrc k b csel g true else badScalar k b
  | 0x2 => if bitsOf w 0 24 = 0 then .ieOff k b true else badScalar k b
  | 0x3 => if bitsOf w 0 24 = 0 then .ieOn k b true else badScalar k b
  | 0x4 => if bitsOf w 0 24 = 0 then .eret k b true else badScalar k b
  | 0x5 => if bitsOf w 13 11 = 0 then .trap k b (BitVec.ofNat 13 w) true else badScalar k b
  | _ => badScalar k b

/-- Slot A, or B with `b` (R65). -/
def decodeScalar (k : Nat) (b : Bool) (w : Nat) : Instr :=
  match bitsOf w 28 4 with
  | 0x0 => decodeT k b w
  | 0x1 => decodeK k b w
  | 0x2 => if bitsOf w 0 5 = 0 then .setu k b (gAt w 23) (BitVec.ofNat 18 (bitsOf w 5 18)) true else badScalar k b
  | 0x4 => decodeC k b w
  | 0x5 =>
    if bitsOf w 27 1 = 0 then
      if gAt w 17 = 0 then .jmpL k b (gAt w 22) (BitVec.ofNat 17 w) true else badScalar k b
    else if bitsOf w 0 17 = 0 then .jmpLr k b (gAt w 22) (gAt w 17) true
    else badScalar k b
  | 0x6 =>
    let one := bitOf w 27
    let rot := bitOf w 26
    let e : BitVec 12 := BitVec.ofNat 12 w
    if bitOf w 12 then badScalar k b
    else if !bitOf w 25 then .loopI k b one rot (BitVec.ofNat 12 (bitsOf w 13 12)) e true
    else if bitsOf w 13 7 = 0 then .loopR k b one rot (gAt w 20) e true
    else badScalar k b
  | 0x7 => decodeX k b w
  | _ => badScalar k b

/-- Format VV (R136, R137): a field that an operation does not use must be zero. -/
def decodeVV (k : Nat) (w : Nat) : Instr :=
  let l := bitOf w 25
  let vd : Grp := gAt w 20
  let va : Grp := gAt w 15
  let vb : Grp := gAt w 10
  let sc := bitOf w 9
  let fn := bitsOf w 0 8
  let plain : Bool := fn == 0
  let unary : Bool := vb == 0 && !sc
  if bitOf w 8 then badV k
  else match bitsOf w 26 6 with
    | 0x01 => if plain then .vadd k l vd va vb sc true else badV k
    | 0x02 => if plain then .vsub k l vd va vb sc true else badV k
    | 0x03 => if fn < 2 then .vmul k l vd va vb sc (fn == 1) true else badV k
    | 0x04 => if plain then .vmin k l vd va vb sc true else badV k
    | 0x05 => if plain then .vmax k l vd va vb sc true else badV k
    | 0x06 => if plain then .vand k l vd va vb sc true else badV k
    | 0x07 => if plain then .vor k l vd va vb sc true else badV k
    | 0x08 => if plain then .vxor k l vd va vb sc true else badV k
    | 0x09 => if unary ∧ fn < 32 then .vsra k l vd va (BitVec.ofNat 5 fn) true else badV k
    | 0x0A => if unary ∧ fn < 32 then .vsll k l vd va (BitVec.ofNat 5 fn) true else badV k
    | 0x0B => if unary ∧ plain then .vpow k l vd va true else badV k
    | 0x0C => if unary ∧ fn < 16 then .vcvt k l vd va (BitVec.ofNat 4 fn) true else badV k
    | 0x0D => if va = 0 ∧ sc ∧ plain then .vbcst k l vd vb true else badV k
    | 0x0E => if unary ∧ plain then .vmov k l vd va true else badV k
    | 0x0F => if va = 0 ∧ unary ∧ plain then .vzero k l vd true else badV k
    | _ => badV k

/-- Slot V that is not empty (R136, R137). -/
def decodeV (k : Nat) (w : Nat) : Instr :=
  let op := bitsOf w 26 6
  let l := bitOf w 25
  let x : Grp := gAt w 20
  let va : Grp := gAt w 15
  let vb : Grp := gAt w 10
  let low := bitsOf w 0 10
  let ad := bitOf w 24
  let tb : BitVec 2 := BitVec.ofNat 2 (bitsOf w 22 2)
  let cj := bitOf w 21
  let sh : BitVec 6 := BitVec.ofNat 6 (2 * bitsOf w 10 5 + bitsOf w 9 1)
  let fd : FReg := BitVec.ofNat 8 (bitsOf w 17 8)
  let src : Grp := gAt w 12
  let ixOk : Bool := bitsOf w 0 8 == 0 && decide (bitsOf w 8 4 < 2)
  let rdOk : Bool := bitsOf w 15 4 == 0 && bitsOf w 0 9 == 0
  if op < 0x10 then decodeVV k w
  else match op with
    | 0x10 => if low = 0 ∧ !bitOf w 20 then .cmac k l ad tb cj va vb true else badV k
    | 0x11 => if low = 0 ∧ !bitOf w 20 then .cmul k l ad tb cj va vb true else badV k
    | 0x12 => if bitsOf w 0 24 = 0 ∧ !l then .aclr k ad true else badV k
    | 0x18 => if rdOk then .ardC k l x (bitOf w 19) sh true else badV k
    | 0x19 => if rdOk ∧ l then .ardV k x (bitOf w 19) sh true else badV k
    | 0x20 => if ixOk then .vminIx k l fd src (bitOf w 8) true else badV k
    | 0x21 => if ixOk then .vmaxIx k l fd src (bitOf w 8) true else badV k
    | 0x22 => if ixOk then .vmin2Ix k l fd src (bitOf w 8) true else badV k
    | 0x28 => if low = 0 then .vlds k l x va vb true else badV k
    | 0x29 => if low = 0 then .vsts k l x va vb true else badV k
    | 0x2A => if low = 0 then .vgth k l x va vb true else badV k
    | 0x2B => if low = 0 then .vsct k l x va vb true else badV k
    | _ => badV k

/-- The vector and engine-context operations of slot M (R138). -/
def decodeMV (k : Nat) (w : Nat) : Instr :=
  let rd := gAt w 21
  let gb := gAt w 16
  let off : BitVec 16 := BitVec.ofNat 16 w
  let v : BitVec 3 := BitVec.ofNat 3 (bitsOf w 23 3)
  let vOk : Bool := bitsOf w 21 2 == 0
  let rt := gAt w 11
  let imm : BitVec 11 := BitVec.ofNat 11 w
  match bitsOf w 26 6 with
  | 0x20 => .vldQ k rd gb off true
  | 0x21 => .vldQPm k rd gb off true
  | 0x22 => .vstQ k rd gb off true
  | 0x23 => .vstQPm k rd gb off true
  | 0x24 => if vOk then .vldV k v gb off true else badM k
  | 0x25 => if vOk then .vstV k v gb off true else badM k
  | 0x26 => if vOk then .vldB k v gb off true else badM k
  | 0x27 => if vOk then .vldBPm k v gb off true else badM k
  | 0x28 => if vOk then .vstB k v gb off true else badM k
  | 0x29 => if vOk then .vstBPm k v gb off true else badM k
  | 0x2A => .vldfQ k rd gb off true
  | 0x2B => .vstfQ k rd gb off true
  | 0x2C => if vOk then .vldfB k v gb off true else badM k
  | 0x2D => if vOk then .vstfB k v gb off true else badM k
  | 0x2E => if bitsOf w 0 12 = 0 then .mfr k rd (BitVec.ofNat 8 (bitsOf w 13 8)) (bitOf w 12) true else badM k
  | 0x30 => .esave k rd gb rt imm true
  | 0x31 => .erest k rd gb rt imm true
  | 0x32 => if bitsOf w 21 4 = 0 then .asave k (bitOf w 25) gb off true else badM k
  | 0x33 => if bitsOf w 21 4 = 0 then .arest k (bitOf w 25) gb off true else badM k
  | _ => badM k

/-- Slot M that is not empty (R68, R69, R138). -/
def decodeM (k : Nat) (w : Nat) : Instr :=
  let op := bitsOf w 26 6
  let rd := gAt w 21
  let base := gAt w 16
  let off : BitVec 16 := BitVec.ofNat 16 w
  let f : FReg := BitVec.ofNat 8 (bitsOf w 18 8)
  let dbase := gAt w 13
  let off13 : BitVec 13 := BitVec.ofNat 13 w
  let rt := gAt w 11
  let imm : BitVec 11 := BitVec.ofNat 11 w
  let rest := bitsOf w 0 26
  if op ≥ 0x20 then decodeMV k w
  else match op with
    | 0x01 => .ldB k rd base off true
    | 0x02 => .ldBu k rd base off true
    | 0x03 => .ldH k rd base off true
    | 0x04 => .ldHu k rd base off true
    | 0x05 => .ldW k rd base off true
    | 0x06 => .stB k rd base off true
    | 0x07 => .stH k rd base off true
    | 0x08 => .stW k rd base off true
    | 0x09 => .ldWPm k rd base off true
    | 0x0A => .stWPm k rd base off true
    | 0x0B => .ldD k f dbase off13 true
    | 0x0C => .stD k f dbase off13 true
    | 0x10 => .ldfW k rd base off true
    | 0x11 => .stfW k rd base off true
    | 0x12 => .ldfD k f dbase off13 true
    | 0x13 => .stfD k f dbase off13 true
    | 0x14 => .csave k rd base off true
    | 0x15 => .crest k rd base off true
    | 0x18 => if rest = 0 then .settle k true else badM k
    | 0x19 => if rest < 256 then .done k (BitVec.ofNat 8 rest) true else badM k
    | 0x1A => if rest = 0 then .waitTask k true else badM k
    | 0x1B => if rt = 0 then .waitEv k rd base imm true else badM k
    | 0x1C => if rest = 0 then .yieldPre k true else badM k
    | 0x1D => .qPush k rd base rt imm true
    | 0x1E => .eqPush k rd base rt imm true
    | _ => badM k

/-- A bundle from its four words; a slot of zeros holds no operation (R59). -/
def decodeBundle (k a b v m : Nat) : List Instr :=
  let put (w : Nat) (op : Instr) : List Instr := if w = 0 then [] else [op]
  put a (decodeScalar k false a) ++ put b (decodeScalar k true b) ++ put v (decodeV k v) ++ put m (decodeM k m)

/-- The bundle at an address of a core's instruction memory. -/
def State.bundleAt (s : State) (k pc : Nat) : List Instr :=
  let word (i : Nat) : Nat := ofLe (memGets (s.core k).imem (pc / 16 % 4096 * 16 + 4 * i) 4)
  decodeBundle k (word 0) (word 1) (word 2) (word 3)

/-! ### GVI_DBG_CTRL -/

/-- A halted core issues one bundle: the one that waits, or the next of its instruction memory. -/
def State.debugIssue (s : State) (k : Nat) : State :=
  let c := s.core k
  let ops := if c.waiting then c.bundle else s.bundleAt k c.pc
  issue (s.setCore k { c with run := .running, bundle := [] }) k ops

/-- HALT stops the self-test at its next bundle boundary or lets it go on; STEP issues one bundle while it is halted. -/
def State.dbgCtrl (s : State) (k : Nat) (v : Nat) : State :=
  let halt := bitOf v 0
  let s := (s.setFld (pgDbg k) Reg.GVI_DBG_CTRL 0 1 (bit halt)).setCore k { s.core k with halted := halt }
  if halt ∧ bitOf v 1 then s.debugIssue k else s

/-- A write of GVI_DBG_CTRL: only Ward's, while the core is DOWN or TENDING. -/
def State.dbgCtrlBy (s : State) (a : Agent) (k v : Nat) : State :=
  s.onPage a (pgDbg k) Reg.GVI_DBG_CTRL fun s =>
    if s.imgOpen a (pgDbg k) then s.dbgCtrl k v else s.accErr a ((pgDbg k).addr + Reg.GVI_DBG_CTRL) 2

/-- DEBUG_STEP (R585): STEP written while the core is halted. -/
def execDebugStep (by_ : Agent) (k : Nat) (s : State) : Host.Outcome State Fault Refusal :=
  .next (if k < 272 ∧ agTrusted by_ ∧ (s.core k).halted then s.dbgCtrlBy by_ k 3 else s)

end Sys2Proof.Machine
end

