-- ==== Sys2Proof/Machine/Tfe.lean ====
section
/-!
DEFINITION. Sys2Proof/Machine/Tfe.lean: the sine table (R184) and the transform engine (R185 to R196). Exact values are
held as integers with 64 fraction bits, computed from a kernel of 128; an output is the correctly rounded value moved by
at most one, as R186 allows.
-/
namespace Sys2Proof.Machine

/-! ### Sines and cosines -/

/-- π ÷ 2 with 160 fraction bits, to the nearest integer. -/
def halfPi : Nat := 0x1921fb54442d18469898cc51701b839a252049c11

/-- Terms of a Taylor series in fixed point with `F` fraction bits: the term `t` of degree `d`, its sum so far. -/
def taylor (F : Nat) (x2 : Int) : Nat → Nat → Int → Int → Int
  | 0, _, _, acc => acc
  | n + 1, d, t, acc =>
    let t' := -(t * x2 / 2 ^ F) / ((d + 1) * (d + 2) : Int)
    taylor F x2 n (d + 2) t' (acc + t')

/-- cos and sin of (π ÷ 2) × (p ÷ q) for p ≤ q, with 160 fraction bits. -/
def quadCos (p q : Nat) : Int :=
  let x : Int := halfPi * p / q
  taylor 160 (x * x / 2 ^ 160) 30 0 (2 ^ 160) (2 ^ 160)
def quadSin (p q : Nat) : Int :=
  let x : Int := halfPi * p / q
  taylor 160 (x * x / 2 ^ 160) 30 1 x x

/-- cos and sin of 2π × n ÷ m with 128 fraction bits. -/
def kernel (n m : Nat) : Int × Int :=
  let r := 4 * (n % m)
  let k := r / m
  let p := r % m
  let c := rnd false (if p = 0 then 2 ^ 160 else quadCos p m) 32
  let s := rnd false (if p = 0 then 0 else quadSin p m) 32
  if k = 0 then (c, s) else if k = 1 then (-s, c) else if k = 2 then (-c, -s) else (s, -c)

/-- The table T of R184: angle index a of 2^18 to Q1.17. -/
def sineTable (a : Nat) : Int × Int :=
  let x := kernel (a % 2 ^ 18) (2 ^ 18)
  (rnd false (131071 * x.1) 128, rnd false (131071 * x.2) 128)

/-! ### Parameters of a TRANSFORM (R192) -/

def tfOp (b : List Byte) : Nat := bF b 0x38 0 3
def tfCp (b : List Byte) : Bool := bF b 0x38 3 1 == 1
def tfPhase (b : List Byte) : Bool := bF b 0x38 4 1 == 1
def tfHalf (b : List Byte) : Bool := bF b 0x38 5 1 == 1
def tfDc (b : List Byte) : Bool := bF b 0x38 6 1 == 1
def tfIn (b : List Byte) : Nat := bF b 0x38 7 1
def tfOut (b : List Byte) : Nat := bF b 0x38 8 1
def tfW (b : List Byte) : Nat := bF b 0x38 9 5
def tfScale (b : List Byte) : Nat := bF b 0x38 14 4
def tfN (b : List Byte) : Nat := bF b 0x3C 0 13
def tfSyms (b : List Byte) : Nat := bF b 0x3C 16 4
def tfK (b : List Byte) : Nat := bF b 0x40 0 12
def tfKOff (b : List Byte) : Int := sx 12 (bF b 0x40 16 12)
/-- CP length of symbol `l` as sent, whether or not CP = 1 (R188, R189). -/
def tfCpLen (b : List Byte) (l : Nat) : Nat := if l = 0 then bF b 0x44 0 12 else bF b 0x44 16 12
def tfTcs (b : List Byte) : Nat := bF b 0x50 0 8

/-- Numbers 12 × 2^a × 3^b × 5^c up to 3,276 (R185). -/
def dftSize (m : Nat) : Bool :=
  decide (12 ≤ m) && decide (m ≤ 3276) && m % 12 == 0 &&
    (List.range 9).any fun a => (List.range 6).any fun b => (List.range 4).any fun c =>
      m == 12 * 2 ^ a * 3 ^ b * 5 ^ c

/-- Fields within their ranges (R192). -/
def tfeOk (b : List Byte) : Bool :=
  let bfp := tfIn b == 1 || tfOut b == 1
  let sides := (tfIn b == 0 || tfOp b == 0) && (tfOut b == 0 || tfOp b == 1 || tfOp b == 2)
  bAddr b 0x20 && bAddr b 0x28 && bAddr64 b 0x30 && decide (tfOp b ≤ 3) && sides &&
    (if bfp then decide (1 ≤ tfW b) && decide (tfW b ≤ 16) else tfW b == 0) &&
    decide (tfScale b ≤ (if tfOp b ≤ 1 then 12 else 7)) && bF b 0x38 18 14 == 0 &&
    bF b 0x3C 13 3 == 0 && decide (1 ≤ tfSyms b) && decide (tfSyms b ≤ 14) && bF b 0x3C 20 12 == 0 &&
    decide (1 ≤ tfK b) && decide (tfK b ≤ 3300) && bF b 0x40 12 4 == 0 && bF b 0x40 28 4 == 0 &&
    bF b 0x44 12 4 == 0 && bF b 0x44 28 4 == 0 && decide (bF b 0x4C 0 21 < 1966080) && bF b 0x4C 21 11 == 0 &&
    bF b 0x50 8 24 == 0 && (tfPhase b || tfTcs b == 0) && bZero b 0x5C 36

/-- The conditions of R195. -/
def tfeGeom (b : List Byte) : Bool :=
  let fft := decide (tfOp b ≤ 1)
  let n := tfN b
  (if fft then [128, 256, 512, 1024, 1536, 2048, 3072, 4096].contains n else dftSize n) &&
    decide (tfK b ≤ n - bit (tfDc b)) && ((tfIn b == 0 && tfOut b == 0) || tfK b % 12 == 0) &&
    (fft || (tfK b == n && tfKOff b == 0 && !tfDc b && !tfCp b)) && !(tfPhase b && tfHalf b) &&
    !(tfPhase b && tfTcs b == 0)

/-- FFT bin of grid subcarrier `k` (R187). -/
def tfBin (b : List Byte) (k : Nat) : Nat :=
  let h := tfK b / 2
  ((((k : Int) - h + tfKOff b + (if tfDc b ∧ k ≥ h then 1 else 0)) % (tfN b : Int))).toNat

/-- Angle index of symbol `l` (R189). -/
def tfPhaseIx (b : List Byte) (l : Nat) : Nat :=
  let before := (List.range l).foldl (fun a i => a + (tfN b + tfCpLen b i) * tfTcs b) 0
  let n := (bF b 0x4C 0 21 + before + tfCpLen b l * tfTcs b) % 1966080
  let x := ((-(bW b 0x48 * n : Int)) % 786432).toNat
  (2 * x + 3) / 6 % 2 ^ 18

/-- Angle index of the half-subcarrier shift at n′ (R190). -/
def tfHalfIx (b : List Byte) (n' : Int) : Nat :=
  let y := 2 * n' * 2 ^ 17
  let q := y / (2 * tfN b : Int)
  let r := y % (2 * tfN b : Int)
  let up := r > tfN b ∨ (r = tfN b ∧ q % 2 = 1)
  ((if up then q + 1 else q) % 2 ^ 18).toNat

/-! ### Exact values -/

/-- An exact value in fixed point: real and imaginary part. -/
abbrev Fx := Int × Int

/-- Complex product of two fixed-point values, the second with `f` fraction bits. -/
def fxMul (a b : Fx) (f : Nat) : Fx := ((a.1 * b.1 - a.2 * b.2) / 2 ^ f, (a.1 * b.2 + a.2 * b.1) / 2 ^ f)

/-- One output of a transform kernel: Σ x_i × e^{±j2π i n / m}, 128 fraction bits. -/
def fxSum (inv : Bool) (m n : Nat) (xs : List (Nat × Fx)) : Fx :=
  xs.foldl
    (fun a x =>
      let w := kernel (x.1 * n) m
      let k : Fx := if inv then w else (w.1, -w.2)
      (a.1 + (x.2.1 * k.1 - x.2.2 * k.2), a.2 + (x.2.1 * k.2 + x.2.2 * k.1)))
    (0, 0)

/-- 1 ÷ √m with 128 fraction bits. -/
def invSqrt (m : Nat) : Int := isqrtGo 130 (2 ^ 256 / m) 0

/-- A rotation by angle index `a`: multiplication by (c + j·s) ÷ 2^17 (R184). -/
def fxRot (a : Nat) (x : Fx) : Fx := fxMul x (sineTable a) 17

/-- 128 fraction bits brought to 64: sums that are exact stay exact. -/
def fxSnap (x : Fx) : Fx := (rnd false x.1 64, rnd false x.2 64)

/-- Input components of symbol `l` as integers (R186). -/
def tfInput (b : List Byte) (raw : List Byte) (count : Nat) : List Fx :=
  if tfIn b = 0 then (List.range count).map (cqAt raw)
  else (List.range (count / 12)).flatMap fun k =>
    let xs := prbInts 1 (tfW b) ((raw.drop (k * prbBytes 1 (tfW b))).take (prbBytes 1 (tfW b)))
    (List.range 12).map fun j => (xs.getD (2 * j) 0, xs.getD (2 * j + 1) 0)

/-- The exact outputs of one symbol with 64 fraction bits (R185 to R190, R194). -/
def tfSymbol (b : List Byte) (l : Nat) (x : List Fx) : List Fx :=
  let n := tfN b
  let cp := tfCpLen b l
  let scale (v : Fx) : Fx := if tfOp b ≤ 1 then (v.1 / 2 ^ tfScale b, v.2 / 2 ^ tfScale b)
    else fxMul (v.1 * 2 ^ tfScale b, v.2 * 2 ^ tfScale b) (invSqrt n, 0) 128
  if tfOp b = 0 then
    let bins := (List.range x.length).map fun k => (tfBin b k, x.getD k (0, 0))
    let body := (List.range n).map fun i =>
      let v := scale (fxSum true n i bins)
      let v := if tfHalf b then fxRot (tfHalfIx b i) v else v
      fxSnap (if tfPhase b then fxRot (tfPhaseIx b l) v else v)
    if tfCp b ∧ cp ≤ n then
      -- with HALF the CP is rotated by its own position, n′ below 0
      let pre := (List.range cp).map fun i =>
        let v := scale (fxSum true n (n - cp + i) bins)
        let v := if tfHalf b then fxRot (tfHalfIx b ((i : Int) - cp)) v else v
        fxSnap (if tfPhase b then fxRot (tfPhaseIx b l) v else v)
      pre ++ body
    else body
  else if tfOp b = 1 then
    let y := if tfCp b then x.drop cp else x
    let y := (List.range n).map fun i =>
      let v := y.getD i (0, 0)
      (i, if tfHalf b then fxRot ((2 ^ 18 - tfHalfIx b i) % 2 ^ 18) (v.1 * 2 ^ 64, v.2 * 2 ^ 64)
        else (v.1 * 2 ^ 64, v.2 * 2 ^ 64))
    (List.range (tfK b)).map fun k =>
      let v := fxSum false n (tfBin b k) y
      let v := scale (v.1 / 2 ^ 64, v.2 / 2 ^ 64)
      fxSnap (if tfPhase b then fxRot ((2 ^ 18 - tfPhaseIx b l) % 2 ^ 18) v else v)
  else
    let xs := (List.range x.length).map fun k => (k, x.getD k (0, 0))
    (List.range n).map fun i => fxSnap (scale (fxSum (tfOp b == 3) n i xs))

/-! ### Outputs -/

/-- A correctly rounded component moved by what this device adds (R186): the value, and whether it saturated. -/
def tfRound (dev : Fin 3) (y : Int) (w : Nat) : Int × Bool :=
  let r := narrow false y w
  ((narrow false (r.1 + dev.val - 1) w).1, r.2)

/-- The bytes of one symbol and the saturated components; `dev` gives the departure of component `n` of the symbol. -/
def tfPack (b : List Byte) (dev : Nat → Fin 3) (xs : List Fx) : List Byte × Nat :=
  if tfOut b = 0 then
    let r := (List.range xs.length).map fun i =>
      let v := xs.getD i (0, 0)
      (tfRound (dev (2 * i)) (rnd false v.1 64) 16, tfRound (dev (2 * i + 1)) (rnd false v.2 64) 16)
    (r.flatMap fun v => cqBytes v.1.1 v.2.1, r.foldl (fun a v => a + bit v.1.2 + bit v.2.2) 0)
  else
    let r := (List.range (xs.length / 12)).map fun k =>
      let cs := (List.range 12).flatMap fun j =>
        let v := xs.getD (12 * k + j) (0, 0)
        [v.1, v.2]
      let m := bfpNorm false false (tfW b) cs 64
      let ms := (List.range 24).map fun i => (tfRound (dev (24 * k + i)) (m.2.1.getD i 0) (tfW b)).1
      ((bfpPack false (tfW b) m.1 ms).1,
       if m.2.2 then ((bfpTry false cs 64 15).filter fun y => (narrow false y (tfW b)).2).length else 0)
    (r.flatMap (·.1), r.foldl (fun a v => a + v.2) 0)

/-- Input bytes of symbol `l`, and where it begins (R188, R192). -/
def tfInLen (b : List Byte) (l : Nat) : Nat :=
  if tfOp b = 1 then 4 * (tfN b + (if tfCp b then tfCpLen b l else 0))
  else if tfIn b = 0 then 4 * tfK b else tfK b / 12 * prbBytes 1 (tfW b)
def tfInAt (b : List Byte) (l : Nat) : Nat :=
  if tfOp b = 1 then (List.range l).foldl (fun a i => a + tfInLen b i) (bQ b 0x20) else bQ b 0x20 + l * bW b 0x54

/-- Output bytes of symbol `l`, and where it begins. -/
def tfOutLen (b : List Byte) (l : Nat) : Nat :=
  if tfOp b = 0 then 4 * (tfN b + (if tfCp b then tfCpLen b l else 0))
  else if tfOut b = 0 then 4 * tfK b else tfK b / 12 * prbBytes 1 (tfW b)
def tfOutAt (b : List Byte) (l : Nat) : Nat :=
  if tfOp b = 0 then (List.range l).foldl (fun a i => a + tfOutLen b i) (bQ b 0x28) else bQ b 0x28 + l * bW b 0x58

/-- Samples of an input symbol. -/
def tfCount (b : List Byte) (l : Nat) : Nat := if tfOp b = 1 then tfInLen b l / 4 else tfK b

/-- The bytes of a cyclic prefix longer than the symbol, which is open (log entry 28); none for any other. -/
def tfLongPrefix (b : List Byte) (params : List Nat) (input : List Byte) (l : Nat) : List Byte :=
  if tfOp b = 0 ∧ tfCp b ∧ tfCpLen b l > tfN b then
    (List.range (4 * tfCpLen b l)).map fun k => Config.tfePrefix params input (16384 * l + k)
  else []

/-- What TRANSFORM writes once its inputs are read (R185 to R195). -/
def tfeCompute (b : List Byte) (data : List (List Byte)) : EngOut :=
  let params := (List.range 7).map fun i => bW b (0x38 + 4 * i)
  let input := data.flatMap fun x => x
  let r := (List.range (tfSyms b)).map fun l =>
    tfPack b (fun n => Config.tfeDev params input (16384 * l + n)) (tfSymbol b l (tfInput b (data.getD l []) (tfCount b l)))
  let sat := r.foldl (fun a x => a + x.2) 0
  { status := csOk
    writes := ((List.range (tfSyms b)).map fun l => (tfOutAt b l, tfLongPrefix b params input l ++ (r.getD l ([], 0)).1)) ++
      recordOut (bQ b 0x30) [tfSyms b, sat]
    tallies := [(Reg.TFE_TALLY_SAT, 0, 32, sat)]
    used := 0 }

/-- TRANSFORM (R185, R192, R195). -/
def tfeRun (i : Nat) (s : State) (b : List Byte) : State × Nat :=
  if !tfeOk b then (s, csFormat)
  else if !tfeGeom b then (s, 0x10)
  else
    let ls := List.range (tfSyms b)
    s.engIo (engPage 3 i) (ls.map fun l => (tfInAt b l, tfInLen b l))
      ((ls.map fun l => (tfOutAt b l, tfOutLen b l)) ++ recordRange (bQ b 0x30)) (tfeCompute b)

def execTransform (inst : Nat) (s : State) : Host.Outcome State Fault Refusal :=
  .next (s.engRow 3 1 inst fun s _ b _ => tfeRun inst s b)

end Sys2Proof.Machine
end

