-- ==== Sys2Proof/Machine/Fdc.lean ====
section
/-!
DEFINITION. Sys2Proof/Machine/Fdc.lean: the filter and decimation chain: its stages sample by sample (R197 to R207), slices
(R211, R215), and its commands (R213 to R218).
-/
namespace Sys2Proof.Machine

/-! ### A channel's configuration (R209) -/

def fcTx (c : Ctx) : Bool := c.bitAt 0 0
def fcDcb (c : Ctx) : Nat := bitsOf (c.w 0) 1 2
def fcNco (c : Ctx) : Bool := c.bitAt 0 3
def fcHb (c : Ctx) : Nat := bitsOf (c.w 0) 4 3
def fcFarrow (c : Ctx) : Bool := c.bitAt 0 7
def fcTaps (c : Ctx) : Nat := bitsOf (c.w 0) 8 8
def fcRate (c : Ctx) : Nat := bitsOf (c.w 0) 16 4
def fcShift (c : Ctx) : Nat := bitsOf (c.w 0) 20 5

/-- Is a configuration within its ranges (R209)? -/
def fdcConfigOk (w : Nat → Nat) : Bool :=
  let tx := bitOf (w 0) 0
  let dcb := bitsOf (w 0) 1 2
  let sh := bitsOf (w 0) 20 5
  let far := bitOf (w 0) 7
  decide (dcb ≤ 2) && decide (bitsOf (w 0) 4 3 ≤ 4) && decide (1 ≤ bitsOf (w 0) 8 8) && decide (bitsOf (w 0) 8 8 ≤ 128) &&
    decide (1 ≤ bitsOf (w 0) 16 4) && decide (bitsOf (w 0) 16 4 ≤ 8) && bitsOf (w 0) 25 7 == 0 &&
    (dcb == 0 || (decide (8 ≤ sh) && decide (sh ≤ 20) && !tx)) &&
    (!far || (decide (w 4 < 0x40000000) &&
      (if tx then decide (0x20000001 ≤ w 3) && decide (w 3 ≤ 0x40000000)
       else decide (0x40000000 ≤ w 3) && decide (w 3 ≤ 0x7FFFFFFF)))) &&
    bitsOf (w 6) 20 12 == 0

/-- An FDC context image is in range (R208, R209). -/
def fdcImageOk (size : Nat) (b : List Byte) : Bool :=
  size == 2048 && fdcConfigOk (fun i => bW b (4 * i)) && bZero b 28 36 && bF b 0x50 7 25 == 0 && bF b 0x54 8 24 == 0 &&
    bF b 0x68 4 28 == 0 && bZero b 0x6C 20 && bZero b 0x740 0xC0

/-! ### A channel's moving state (R208) -/

/-- What a channel carries from sample to sample. The Farrow position is the position of the next output less the number of
samples taken since the reset, modulo 4 (log entry 29). -/
structure FdcChan where
  p : Nat
  d : Fx
  pos : Nat
  hbPh : Nat
  firPh : Nat
  left : Nat
  outIx : Nat
  pSum : Nat
  pN : Nat
  /-- History of HB7, HB11, HB15, HB19, newest first. -/
  hb : List (List Fx)
  fir : List Fx
  far : List Fx
  /-- Saturations since the slice began. -/
  sat : Nat
deriving DecidableEq, Repr

/-- Lengths and offsets of the history lines (R208). -/
def fdcLines : List (Nat × Nat) := [(0, 7), (7, 11), (18, 15), (33, 19), (52, 128), (180, 4)]

/-- One history line of a context. -/
def fdcLine (c : Ctx) (i : Nat) : List Fx :=
  let l := fdcLines.getD i (0, 0)
  (List.range l.2).map fun k =>
    (sx 32 (c.w (0x180 + 8 * (l.1 + k))), sx 32 (c.w (0x184 + 8 * (l.1 + k))))

def fdcLoad (c : Ctx) : FdcChan where
  p := c.w 0x40
  d := (sx 32 (c.w 0x44), sx 32 (c.w 0x48))
  pos := c.w 0x4C
  hbPh := bitsOf (c.w 0x50) 0 4
  firPh := bitsOf (c.w 0x50) 4 3
  left := bitsOf (c.w 0x54) 0 8
  outIx := c.q 0x58
  pSum := c.q 0x60
  pN := bitsOf (c.w 0x68) 0 4
  hb := (List.range 4).map (fdcLine c)
  fir := fdcLine c 4
  far := fdcLine c 5
  sat := 0

/-- The moving state put back into the image. -/
def fdcStore (c : Ctx) (x : FdcChan) : Ctx :=
  let dyn := [x.p, pat 32 x.d.1, pat 32 x.d.2, x.pos, x.hbPh + 16 * x.firPh, x.left, x.outIx, x.outIx / 2 ^ 32, x.pSum,
    x.pSum / 2 ^ 32, x.pN]
  let hist := (x.hb.flatMap fun l => l) ++ x.fir ++ x.far
  (c.put 0x40 (wordBytes (dyn.map w32))).put 0x180
    (hist.flatMap fun v => leBytes 4 (pat 32 v.1) ++ leBytes 4 (pat 32 v.2))

/-- The outputs to be flagged after a reset (R207). -/
def fdcSettle (c : Ctx) : Nat :=
  let dec (t d : Nat) : Nat := if fcTx c then t else (t + d - 1) / d
  let hbs := ([7, 11, 15, 19].drop (4 - fcHb c)).foldl (fun a t => a + dec t 2) 0
  hbs + dec (fcTaps c) (fcRate c) + (if fcFarrow c then 4 else 0)

/-- The synchronizing reset of R206; D is kept. -/
def fdcSync (c : Ctx) : Ctx :=
  let x := fdcLoad c
  fdcStore c
    { x with
        p := c.w 8
        pos := c.w 16
        hbPh := 0
        firPh := 0
        left := fdcSettle c
        outIx := 0
        pSum := 0
        pN := 0
        hb := x.hb.map fun l => l.map fun _ => (0, 0)
        fir := x.fir.map fun _ => (0, 0)
        far := x.far.map fun _ => (0, 0) }

/-! ### Stages -/

/-- Both components narrowed after a shift; the channel counts what saturates (R198). -/
def fxNarrow (x : FdcChan) (v : Fx) (t n : Nat) : FdcChan × Fx :=
  let a := narrow false (rnd false v.1 t) n
  let b := narrow false (rnd false v.2 t) n
  ({ x with sat := x.sat + bit a.2 + bit b.2 }, (a.1, b.1))

/-- Coefficients of the half-band stages from the outermost tap to the centre (R201). -/
def hbHalf (j : Nat) : List Int :=
  [[-4096, 0, 36864, 65536], [768, 0, -6400, 0, 38400, 65536], [-160, 0, 1568, 0, -7840, 0, 39200, 65536],
   [35, 0, -405, 0, 2268, 0, -8820, 0, 39690, 65536]].getD j []

/-- All coefficients of a symmetric filter of `n` taps from its first half. -/
def mirrored (n : Nat) (half : List Int) : List Int :=
  (List.range n).map fun t => half.getD (if 2 * t < n then t else n - 1 - t) 0

def hbCoef (j : Nat) : List Int := mirrored (7 + 4 * j) (hbHalf j)

/-- The programmable coefficients (R202). -/
def firCoef (c : Ctx) : List Int :=
  mirrored (fcTaps c) ((List.range 64).map fun t => sx 18 (c.w (0x80 + 4 * t)))

/-- A filter sum over a history, newest first. -/
def fxDot (cs : List Int) (h : List Fx) : Fx :=
  (cs.zip h).foldl (fun a t => (a.1 + t.1 * t.2.1, a.2 + t.1 * t.2.2)) (0, 0)

/-- A sample pushed into a line of fixed length. -/
def fxPush (v : Fx) (l : List Fx) : List Fx := (v :: l).take l.length

/-- The half-band stages a channel runs, by number: 0 HB7 to 3 HB19 (R201). -/
def hbStages (c : Ctx) : List Nat := (List.range 4).drop (4 - fcHb c)

/-- The DC block (R199); `hold` is GLOBAL_FREEZE (R218). -/
def fdcDc (c : Ctx) (hold : Bool) (x : FdcChan) (v : Fx) : FdcChan × Fx :=
  if fcDcb c = 0 then (x, v)
  else
    let r := fxNarrow x (v.1 - rnd false x.d.1 13, v.2 - rnd false x.d.2 13) 0 18
    let upd (d y : Int) : Int := d + rnd false (2 ^ 13 * y - d) (fcShift c)
    if fcDcb c = 1 ∧ !hold then ({ r.1 with d := (upd x.d.1 v.1, upd x.d.2 v.2) }, r.2) else r

/-- The NCO (R200). -/
def fdcNco (c : Ctx) (x : FdcChan) (v : Fx) : FdcChan × Fx :=
  if !fcNco c then (x, v)
  else
    let w := sineTable (x.p / 2 ^ 14)
    let r := fxNarrow x (v.1 * w.1 - v.2 * w.2, v.1 * w.2 + v.2 * w.1) 17 18
    ({ r.1 with p := (x.p + c.w 4) % 2 ^ 32 }, r.2)

/-- Nearest integer to acc ÷ 6, ties to even (R203). -/
def rnd6 (a : Int) : Int :=
  let q := a / 6
  let r := a % 6
  if r > 3 ∨ (r = 3 ∧ q % 2 = 1) then q + 1 else q

/-- The Farrow output of one component from its four samples, newest first (R203). -/
def farrowOne (mu : Int) (x2 x1 x0 xm1 : Int) : Int :=
  let c3 := -xm1 + 3 * x0 - 3 * x1 + x2
  let c2 := 3 * xm1 - 6 * x0 + 3 * x1
  let c1 := -2 * xm1 - 3 * x0 + 6 * x1 - x2
  let a := rnd false (c3 * mu) 16 + c2
  let a := rnd false (a * mu) 16 + c1
  rnd6 (rnd false (a * mu) 16 + 6 * x0)

/-- Is an output of the resampler due? -/
def farrowDue (x : FdcChan) : Bool := x.pos / 2 ^ 30 == 1

/-- An output of the resampler, its position moved on. -/
def farrowOut (c : Ctx) (x : FdcChan) : FdcChan × Fx :=
  let mu : Int := bitsOf x.pos 14 16
  let h := fun k => x.far.getD k (0, 0)
  let y := (farrowOne mu (h 0).1 (h 1).1 (h 2).1 (h 3).1, farrowOne mu (h 0).2 (h 1).2 (h 2).2 (h 3).2)
  let r := fxNarrow x y 0 18
  ({ r.1 with pos := (x.pos + c.w 12) % 2 ^ 32 }, r.2)

/-- A sample taken by the resampler. -/
def farrowIn (x : FdcChan) (v : Fx) : FdcChan :=
  { x with far := fxPush v x.far, pos := (x.pos + 3 * 2 ^ 30) % 2 ^ 32 }

/-! ### Receive: one input sample, at most one output -/

/-- The half-band cascade in receive; `none` where a stage completes no output. -/
def rxHb : List Nat → FdcChan → Fx → FdcChan × Option Fx
  | [], x, v => (x, some v)
  | j :: js, x, v =>
    let h := fxPush v (x.hb.getD j [])
    let ph := bitOf x.hbPh j
    let x := { x with hb := x.hb.set j h, hbPh := setBits x.hbPh j 1 (bit (!ph)) }
    if ph then (x, none)
    else
      let r := fxNarrow x (fxDot (hbCoef j) h) 17 18
      rxHb js r.1 r.2

/-- A receive channel takes one cq16 sample (R197 to R203). -/
def rxStep (c : Ctx) (hold : Bool) (x : FdcChan) (v : Fx) : FdcChan × Option Fx :=
  let r := fdcDc c hold x (4 * v.1, 4 * v.2)
  let r := fdcNco c r.1 r.2
  match rxHb (hbStages c) r.1 r.2 with
  | (x, none) => (x, none)
  | (x, some v) =>
    let h := fxPush v x.fir
    let ph := x.firPh
    let x := { x with fir := h, firPh := if ph + 1 ≥ fcRate c then 0 else ph + 1 }
    if ph ≠ 0 then (x, none)
    else
      let r := fxNarrow x (fxDot (firCoef c) h) 17 18
      if !fcFarrow c then
        let e := fxNarrow r.1 r.2 2 16
        (e.1, some e.2)
      else
        let x := farrowIn r.1 r.2
        if farrowDue x then
          let f := farrowOut c x
          let e := fxNarrow f.1 f.2 2 16
          (e.1, some e.2)
        else (x, none)

/-! ### Transmit: one output, from as many inputs as it needs -/

/-- The resampler in transmit, with fuel; `none` where the input runs out. -/
def txFar (c : Ctx) : Nat → FdcChan → List Fx → FdcChan × List Fx × Option Fx
  | 0, x, ins => (x, ins, none)
  | n + 1, x, ins =>
    if !fcFarrow c then
      match ins with
      | [] => (x, [], none)
      | v :: t => (x, t, some (4 * v.1, 4 * v.2))
    else if farrowDue x then
      let r := farrowOut c x
      (r.1, ins, some r.2)
    else
      match ins with
      | [] => (x, [], none)
      | v :: t => txFar c n (farrowIn x (4 * v.1, 4 * v.2)) t

/-- The interpolating FIR (R202). -/
def txFir (c : Ctx) (x : FdcChan) (ins : List Fx) : FdcChan × List Fx × Option Fx :=
  let go (x : FdcChan) (ins : List Fx) (v : Fx) : FdcChan × List Fx × Option Fx :=
    let h := fxPush v x.fir
    let x := { x with fir := h, firPh := if x.firPh + 1 ≥ fcRate c then 0 else x.firPh + 1 }
    let r := fxNarrow x (fxDot (firCoef c) h) 17 18
    (r.1, ins, some r.2)
  if x.firPh = 0 then
    match txFar c 8 x ins with
    | (x, ins, some v) => go x ins v
    | r => r
  else go x ins (0, 0)

/-- The half-band cascade in transmit, the last stage first (R201). -/
def txHb (c : Ctx) : List Nat → FdcChan → List Fx → FdcChan × List Fx × Option Fx
  | [], x, ins => txFir c x ins
  | j :: js, x, ins =>
    let go (x : FdcChan) (ins : List Fx) (v : Fx) : FdcChan × List Fx × Option Fx :=
      let h := fxPush v (x.hb.getD j [])
      let x := { x with hb := x.hb.set j h, hbPh := setBits x.hbPh j 1 (bit (!bitOf x.hbPh j)) }
      let r := fxNarrow x (fxDot (hbCoef j) h) 16 18
      (r.1, ins, some r.2)
    if bitOf x.hbPh j then go x ins (0, 0)
    else
      match txHb c js x ins with
      | (x, ins, some v) => go x ins v
      | r => r

/-- One output of a transmit channel. -/
def txStep (c : Ctx) (x : FdcChan) (ins : List Fx) : FdcChan × List Fx × Option Fx :=
  match txHb c (hbStages c) x ins with
  | (x, ins, some v) =>
    let r := fdcNco c x v
    let e := fxNarrow r.1 r.2 2 16
    (e.1, ins, some e.2)
  | r => r

/-! ### Slices -/

/-- What a slice yields: outputs with their UNSETTLED flags, power words, samples consumed. -/
structure FdcSlice where
  chan : FdcChan
  outs : List (Fx × Bool)
  pws : List Nat
  used : Nat
deriving DecidableEq, Repr

/-- A sample joins the power path (R204). -/
def fdcPower (r : FdcSlice) (v : Fx) : FdcSlice :=
  let x := r.chan
  let sum := x.pSum + (v.1 * v.1 + v.2 * v.2).toNat
  if x.pN = 15 then { r with chan := { x with pSum := 0, pN := 0 }, pws := r.pws ++ [sum / 16] }
  else { r with chan := { x with pSum := sum, pN := x.pN + 1 } }

/-- An output leaves the chain: flagged, and counted (R206, R215). -/
def fdcEmit (r : FdcSlice) (v : Fx) : FdcSlice :=
  let x := r.chan
  { r with
      chan := { x with left := x.left - 1, outIx := (x.outIx + 1) % 2 ^ 64 }
      outs := r.outs ++ [(v, decide (x.left > 0))] }

/-- A slice of a receive channel: until 128 outputs or the end of the input (R211). -/
def rxSlice (c : Ctx) (hold : Bool) : List Fx → FdcSlice → FdcSlice
  | [], r => r
  | v :: t, r =>
    if r.outs.length ≥ 128 then r
    else
      let r := fdcPower { r with used := r.used + 1 } v
      let y := rxStep c hold r.chan v
      let r := { r with chan := y.1 }
      rxSlice c hold t (match y.2 with
        | some o => fdcEmit r o
        | none => r)

/-- A slice of a transmit channel, with fuel. -/
def txSlice (c : Ctx) (total : Nat) : Nat → List Fx → FdcSlice → FdcSlice
  | 0, _, r => r
  | n + 1, ins, r =>
    if r.outs.length ≥ 128 then r
    else
      let y := txStep c r.chan ins
      let r := { r with chan := y.1, used := total - y.2.1.length }
      match y.2.2 with
      | some o => txSlice c total n y.2.1 (fdcEmit (fdcPower r o) o)
      | none => r

/-- A slice over the samples at hand. -/
def fdcSliceRun (c : Ctx) (hold : Bool) (x : FdcChan) (ins : List Fx) : FdcSlice :=
  let r : FdcSlice := ⟨{ x with sat := 0 }, [], [], 0⟩
  if fcTx c then txSlice c ins.length 129 ins r else rxSlice c hold ins r

/-- Samples that the next slice consumes: which ones depends on positions only, never on values. -/
def fdcDemand (c : Ctx) (x : FdcChan) (left : Nat) : Nat :=
  (fdcSliceRun c false x (List.replicate (min left (128 * 256 + 256)) (0, 0))).used

/-! ### Commands -/

def pgFdc (i : Nat) : Page := engPage 4 i

/-- The FILTER in progress on a channel. -/
def State.fdcJob (s : State) (i fn id : Nat) : Option FdcJob :=
  s.fdcJobs.find? fun j => j.inst == i && j.fn == fn && j.ctx == id

/-- A block of this opcode whose turn has come at its channel, and what the instance finds. -/
def State.fdcTurn (s : State) (i sn op : Nat) : Option (Item × Begin) :=
  match s.engTurn 4 i sn with
  | some it => if it.kind != .block then none else some (it, s.engBegin 4 i it op)
  | none => none

/-- Fields of FILTER within their ranges (R214). -/
def filterOk (b : List Byte) : Bool :=
  bAddr b 0x20 && bQ b 0x20 % 4 == 0 && bAddr b 0x28 && bQ b 0x28 % 4 == 0 && bAddr b 0x30 && bQ b 0x30 % 32 == 0 &&
    bAddr b 0x38 && bQ b 0x38 % 4 == 0 && bAddr64 b 0x40 && decide (1 ≤ bF b 0x48 0 24) && bF b 0x48 25 7 == 0 &&
    bF b 0x4C 24 8 == 0 && bF b 0x50 3 29 == 0 && bZero b 0x54 44

/-- A FILTER is taken up at its channel's turn; its slices follow (R206, R214). -/
def fdcBegin (s : State) (i sn : Nat) : State :=
  match s.fdcTurn i sn 1 with
  | none => s
  | some (_, .other) => s
  | some (it, .ends st) => s.engEnd it 4 i st
  | some (it, .go b (some c)) =>
    if !filterOk b then s.engEnd it 4 i csFormat
    else
      let sync := bF b 0x48 24 1 == 1
      let s := if sync then (s.setCtx (fdcSync c)).count (pgFdc i) Reg.FDC_TALLY_SYNC 1 else s
      let j : FdcJob :=
        { sn := sn, inst := i, fn := it.fn, ctx := c.ctx, blk := b, inN := 0, outN := 0, cutN := 0, sat := 0, pwrN := 0,
          high := false, sync := sync, recs := 0, reqWait := false }
      { s with fdcJobs := s.fdcJobs ++ [j] }.updItem sn fun x => { x with started := true }
  | some (it, .go _ none) => s.engEnd it 4 i csFormat

/-- FILTER: input samples queued for processing in slices (R214). -/
def execFilter (inst sn : Nat) (s : State) : Host.Outcome State Fault Refusal := .next (fdcBegin s inst sn)

/-- Ends a FILTER (R217). -/
def fdcEnd (s : State) (j : FdcJob) (status : Nat) : State :=
  let s := { s with fdcJobs := s.fdcJobs.filter fun x => x.sn != j.sn }
  match s.item? j.sn with
  | some it => s.engEnd it 4 j.inst status
  | none => s

/-- The result record of a FILTER or CONTROL (R217). -/
def fdcRecord (addr : Nat) (j : FdcJob) (outIx : Nat) : List (Nat × List Byte) :=
  recordOut addr [j.inN, j.outN, j.cutN, j.sat, j.pwrN, bit j.high + 2 * bit j.sync, outIx, outIx / 2 ^ 32]

/-- Is there a slice still to run: samples to take, or outputs of a transmit channel that the samples taken complete (R214)? -/
def fdcMore (j : FdcJob) (c : Ctx) : Bool :=
  decide (j.inN < bF j.blk 0x48 0 24) || (fcTx c && (txStep c (fdcLoad c) []).2.2.isSome)

/-- Every output written and every request taken: the command completes (R214, R217). -/
def fdcFinish (s : State) (j : FdcJob) (c : Ctx) : State :=
  let outIx := c.q 0x58
  if fdcMore j c ∨ j.reqWait then
    { s with fdcJobs := s.fdcJobs.map fun x => if x.sn = j.sn then j else x }
  else
    let w := s.emit (fdcRecord (bQ j.blk 0x40) j outIx)
    if w.2 then fdcEnd w.1 j (if j.cutN > 0 then 0x10 else csOk)
    else fdcEnd (w.1.scribble (recordRange (bQ j.blk 0x40))) j csAccess

/-- A slice that met poison or an address out of reach: what it would have written, and the channel's samples and
positions, are open (log entry 23). -/
def fdcSpoil (s : State) (j : FdcJob) (c : Ctx) (outs : Nat) (status : Nat) : State :=
  let s := s.scribble ([(bQ j.blk 0x28 + 4 * j.outN, 4 * outs)] ++ recordRange (bQ j.blk 0x40))
  let h := s.freshBytes (8 * 184)
  let d := h.2.freshBytes 16
  let c := (c.put 0x180 h.1).put 0x40 d.1
  fdcEnd (d.2.setCtx c) j status

/-- One slice of a channel (R204, R211, R214, R215). -/
def fdcServe (s : State) (j : FdcJob) (c : Ctx) : State :=
  let b := j.blk
  let x := fdcLoad c
  let hold := s.fld (pgFdc j.inst) Reg.FDC_DCB_CTRL 0 1 == 1
  let n := fdcDemand c x (bF b 0x48 0 24 - j.inN)
  let a := bQ b 0x20 + 4 * j.inN
  let dry := (fdcSliceRun c hold x (List.replicate n (0, 0))).outs.length
  match s.read a (4 * n) with
  | .ok raw =>
    let s := s.mirrorFix a (4 * n)
    let r := fdcSliceRun c hold x ((List.range n).map (cqAt raw))
    let room := bF b 0x4C 0 24 - j.outN
    let kept := min room r.outs.length
    let bits := ((List.range r.outs.length).filter fun k => (r.outs.getD k ((0, 0), false)).2).foldl
      (fun m k => m + 2 ^ k) 0
    let rec_ := if bQ b 0x30 = 0 ∨ r.outs.isEmpty then []
      else [(bQ b 0x30 + 32 * j.recs, leBytes 16 bits ++
        leBytes 4 (r.outs.length + 256 * min r.chan.sat 255) ++ leBytes 8 x.outIx ++ leBytes 4 0)]
    let pw := if bQ b 0x38 = 0 then []
      else (List.range r.pws.length).map fun k => (bQ b 0x38 + 4 * (j.pwrN + k), leBytes 4 (r.pws.getD k 0))
    let w := s.emit ([(bQ b 0x28 + 4 * j.outN, (r.outs.take kept).flatMap fun o => cqBytes o.1.1 o.1.2)] ++ rec_ ++ pw)
    if !w.2 then fdcSpoil w.1 j c kept csAccess
    else
      let th := c.w 20
      let high := th != 0 && r.pws.any fun p => decide (p > th)
      let s := w.1.setCtx (fdcStore c r.chan)
      let s := s.count (pgFdc j.inst) Reg.FDC_TALLY_SAT r.chan.sat
      let s := if high && !j.high then
          s.postTo 0x14 j.inst (w32 (0x32 * 2 ^ 24 + c.ctx)) (bitsOf (c.w 24) 0 20)
        else s
      let q := if bF b 0x50 2 1 = 1 ∧ kept > 0 then s.raiseLine (136 + 4 * j.inst + bF b 0x50 0 2) DmaReq.plain
        else (s, true)
      let j' : FdcJob :=
        { j with
            inN := j.inN + n
            outN := j.outN + kept
            cutN := j.cutN + (r.outs.length - kept)
            sat := j.sat + r.chan.sat
            pwrN := j.pwrN + pw.length
            high := j.high || high
            recs := j.recs + bit (!r.outs.isEmpty)
            reqWait := !q.2 }
      fdcFinish q.1 j' (fdcStore c r.chan)
  | r => fdcSpoil s j c (min dry (bF b 0x4C 0 24 - j.outN)) (rdStatus r)

/-- The channel whose turn it is: the next slot with work after the last one served (R211). -/
def State.fdcNext (s : State) (i : Nat) : Option (FdcJob × Ctx) :=
  let last := lookupD 63 i s.fdcLast
  let work := (s.fdcJobs.filter fun j => j.inst == i).filterMap fun j => (s.ctxHere 4 i j.fn j.ctx).map fun c => (j, c)
  ((List.range 64).findSome? fun k => work.find? fun w => w.2.slot == (last + 1 + k) % 64)

/-- FDC_SLICE: the instance serves the next channel in rotation (R211, R397). -/
def fdcSlice (s : State) (i : Nat) : State :=
  if !s.engOn 4 i then s
  else
    match s.fdcNext i with
    | none => s
    | some (j, c) =>
      let s := { s with fdcLast := insertKey i c.slot s.fdcLast }
      if j.reqWait then
        let q := s.raiseLine (136 + 4 * i + bF j.blk 0x50 0 2) DmaReq.plain
        if !q.2 then q.1
        else if fdcMore j c then fdcServe q.1 { j with reqWait := false } c
        else fdcFinish q.1 { j with reqWait := false } c
      else fdcServe s j c

def execFdcSlice (inst : Nat) (s : State) : Host.Outcome State Fault Refusal := .next (fdcSlice s inst)

/-- What CONTROL changes, in SET bit order, the reset last (R210, R216). -/
def fdcChange (c : Ctx) (b coef : List Byte) : Ctx × Bool :=
  let set (i : Nat) : Bool := bF b 0x30 i 1 == 1
  let c := if set 0 then c.putW 0 (setBits (c.w 0) 1 2 (bF b 0x34 0 2)) else c
  let c := if set 1 then (c.putW 0x44 (bW b 0x40)).putW 0x48 (bW b 0x44) else c
  let c := if set 2 then c.putW 4 (bW b 0x38) else c
  let c := if set 3 then c.putW 0x40 (bW b 0x3C) else c
  let retap := set 4 && fcTaps c != bF b 0x48 0 8
  let c := if set 4 then (c.put 0x80 coef).putW 0 (setBits (c.w 0) 8 8 (bF b 0x48 0 8)) else c
  let c := if set 6 then c.putW 20 (bW b 0x4C) else c
  if retap || set 5 then (fdcSync c, true) else (c, false)

/-- Fields of CONTROL within their ranges for the channel (R199, R216). -/
def controlOk (b : List Byte) (c : Ctx) : Bool :=
  let set (i : Nat) : Bool := bF b 0x30 i 1 == 1
  bAddr64 b 0x28 && bF b 0x30 7 25 == 0 && bZero b 0x50 48 && (!set 4 || bAddr b 0x20) &&
    (!set 0 || (bF b 0x34 2 30 == 0 && decide (bF b 0x34 0 2 ≤ 2) &&
      (bF b 0x34 0 2 == 0 || (!fcTx c && decide (8 ≤ fcShift c) && decide (fcShift c ≤ 20))))) &&
    (!set 4 || (decide (1 ≤ bF b 0x48 0 8) && decide (bF b 0x48 0 8 ≤ 128) && bF b 0x48 8 24 == 0))

/-- CONTROL at its channel's turn (R211, R216). -/
def fdcControl (s : State) (i sn : Nat) : State :=
  match s.fdcTurn i sn 2 with
  | none => s
  | some (_, .other) => s
  | some (it, .ends st) => s.engEnd it 4 i st
  | some (it, .go b (some c)) =>
    if !controlOk b c then s.engEnd it 4 i csFormat
    else
      match s.gather (if bF b 0x30 4 1 = 1 then [(bQ b 0x20, 256)] else []) with
      | .error e => (s.scribble (recordRange (bQ b 0x28))).engEnd it 4 i e
      | .ok cs =>
        let r := fdcChange c b (cs.flatMap fun x => x)
        let s := s.setCtx r.1
        let s := if r.2 then s.count (pgFdc i) Reg.FDC_TALLY_SYNC 1 else s
        let w := s.emit (recordOut (bQ b 0x28) [0, 0, 0, 0, 0, 2 * bit r.2, r.1.w 0x58, r.1.w 0x5C])
        if w.2 then w.1.engEnd it 4 i csOk
        else (w.1.scribble (recordRange (bQ b 0x28))).engEnd it 4 i csAccess
  | some (it, .go _ none) => s.engEnd it 4 i csFormat

def execControl (inst sn : Nat) (s : State) : Host.Outcome State Fault Refusal := .next (fdcControl s inst sn)

end Sys2Proof.Machine
end

