-- ==== Sys2Proof/Machine/EngineCtx.lean ====
section
/-!
DEFINITION. Sys2Proof/Machine/EngineCtx.lean: contexts saved and restored (R145 to R147, R166, R208), and engine commands shed
before they start (R142, R284).
-/
namespace Sys2Proof.Machine

/-- ENGINE_ESAVE: the image of the context that header word 0 names is written; its slot is freed unless KEEP (R145). -/
def engEsave (s : State) (it : Item) (cls i : Nat) (keep : Bool) : State × Nat :=
  let a := dCmdAddr it.words
  if ctxSlots cls = 0 then (s, csFormat)
  else
    match s.read a 4 with
    | .ok h =>
      match s.ctxHere cls i it.fn (bF h 0 0 16) with
      | none => (s, csCtxLost)
      | some c =>
        let head := leBytes 4 (c.ctx + 2 ^ 16 * cls) ++ leBytes 4 (c.size / 64) ++ leBytes 56 0
        let w := s.emit [(a, head ++ memGets c.img 0 c.size)]
        if w.2 then (if keep then w.1 else w.1.dropCtx c, csOk)
        else (w.1.scribble [(a + 4, c.size + 60)], csAccess)
    | r => (s, rdStatus r)

/-- Is a state of a class in range (R167, R209)? -/
def imageOk (cls size : Nat) (b : List Byte) : Bool := if cls = 1 then bfeImageOk size b else fdcImageOk size b

/-- ENGINE_EREST: an image is loaded into a free slot, or the slot that already holds its CTX_ID (R145, R166). -/
def engErest (s : State) (it : Item) (cls i : Nat) : State × Nat :=
  let a := dCmdAddr it.words
  if ctxSlots cls = 0 then (s, csFormat)
  else
    match s.read a 64 with
    | .ok h =>
      let size := 64 * bW h 4
      if bF h 0 16 4 ≠ cls ∨ bF h 0 20 12 ≠ 0 ∨ !bZero h 8 56 ∨ size > 64 + 64 * 65536 then (s, csFormat)
      else
        match s.read (a + 64) size with
        | .ok b =>
          if !imageOk cls size b then (s, csFormat)
          else
            let id := bF h 0 0 16
            let c : Ctx := ⟨cls, i, s.ctxSlot cls i it.fn id, it.fn, id, size, memPuts [] 0 b⟩
            let s := s.mirrorFix a (size + 64)
            ({ s with ctxs := (s.ctxs.filter fun d => !d.same c) ++ [c] }, csOk)
        | r => (s, rdStatus r)
    | r => (s, rdStatus r)

/-- A save or restore whose turn has come, shed if its deadline has passed (R284). -/
def State.ctxRow (s : State) (cls i sn : Nat) (run : State → Item → Option (State × Nat)) : State :=
  match s.engTurn cls i sn with
  | none => s
  | some it =>
    if it.kind == .block then s
    else if s.passed (dDeadline it.words) then s.engEnd it cls i csShed
    else
      match run s it with
      | some r => r.1.engEnd it cls i r.2
      | none => s

def execEngineEsave (cls inst sn : Nat) (s : State) : Host.Outcome State Fault Refusal :=
  .next (s.ctxRow cls inst sn fun s it => match it.kind with
    | .esave keep => some (engEsave s it cls inst keep)
    | _ => none)

def execEngineErest (cls inst sn : Nat) (s : State) : Host.Outcome State Fault Refusal :=
  .next (s.ctxRow cls inst sn fun s it => match it.kind with
    | .erest => some (engErest s it cls inst)
    | _ => none)

/-- CMD_SHED: a command in a window that has not started, or an erest that still waits for room, passes its deadline and
completes with SHED (R142, R145, R284). -/
def cmdShed (s : State) (sn : Nat) : State :=
  match s.item? sn with
  | none => s
  | some it =>
    if dKind it.words ≠ 1 ∨ it.started ∨ !(s.passed (dDeadline it.words)) then s
    else
      match it.phase, it.exec with
      | .dispatched, some (.engine cls i) => s.engEnd it cls i csShed
      | .ready, _ => if it.kind == .erest then (s.cmdEvent it 0 csShed).endTask sn true csShed else s
      | _, _ => s

def execCmdShed (sn : Nat) (s : State) : Host.Outcome State Fault Refusal := .next (cmdShed s sn)

end Sys2Proof.Machine
end

