-- ==== Sys2Proof/Machine/FabricCmds.lean ====
section
/-!
DEFINITION. Sys2Proof/Machine/FabricCmds.lean: the meanings of the commands of the task fabric and of Tilth's own decisions
(R265 to R301, R315, R325 to R329). A choice that the rules leave to the hardware is an operand; where the rules do not
allow it the state stays as it is.
-/
namespace Sys2Proof.Machine

/-- A descriptor as exactly 16 words. -/
def desc16 (ws : List Word) : List Word := (ws ++ List.replicate 16 0).take 16

/-- Does the state change only if a condition holds? -/
def whenOk (c : Bool) (s t : State) : Host.Outcome State Fault Refusal := .next (if c then t else s)

/-- ENQUEUE (R265, R266, R281): a descriptor arrives at a queue from a producer that can be held. -/
def execEnqueue (q fn : Nat) (desc : List Word) (s : State) : Host.Outcome State Fault Refusal :=
  whenOk s.fabOn s (s.enqueue q fn (desc16 desc) .notify .block .other true).1

/-- STALL_END (R283). -/
def execStallEnd (q : Nat) (s : State) : Host.Outcome State Fault Refusal := whenOk s.fabOn s (s.stallEnd q)

/-- WG_OPEN (R296). -/
def execWgOpen (fn group sup : Nat) (ext : Bool) (s : State) : Host.Outcome State Fault Refusal :=
  whenOk s.fabOn s (s.wgOpenOp fn (group % 65536) (sup % 2 ^ 20) ext)

/-- WG_CLOSE (R296). -/
def execWgClose (fn group : Nat) (s : State) : Host.Outcome State Fault Refusal :=
  whenOk s.fabOn s (s.wgCloseOp fn (group % 65536))

/-- POST (R287, R295). -/
def execPost (fn : Nat) (core : Option Nat) (payload : Word) (s : State) : Host.Outcome State Fault Refusal :=
  whenOk s.fabOn s (s.postOp fn core payload)

/-- ABORT (R286). -/
def execAbort (fn : Nat) (taskid : Word) (s : State) : Host.Outcome State Fault Refusal :=
  whenOk s.fabOn s (s.abortOp fn taskid)

/-- EVENT (R287, R288): event `i` of those on their way arrives; events of one source to one destination arrive in their
order. -/
def execEvent (i : Nat) (s : State) : Host.Outcome State Fault Refusal :=
  match s.fab.evs[i]? with
  | none => .next s
  | some e =>
    let src (x : Ev) : Nat := bitsOf x.word.toNat 44 20
    let same (x : Ev) : Bool := src x == src e && x.dest == e.dest
    if s.fabOn && !((s.fab.evs.take i).any same) then
      .next ({ s with fab := { s.fab with evs := s.fab.evs.eraseIdx i } }.deliver e)
    else .next s

/-- DISPATCH (R269 to R273, R305, R309 to R324): the item `sn` goes to executor `x` with a TASKID, a save area and an
address for each handle it binds, if that is what the fabric and Tilth would decide. -/
def execDispatch (x : Exec) (sn : Nat) (taskid : Word) (save : Nat) (places : List Nat) (s : State) :
    Host.Outcome State Fault Refusal :=
  match s.item? sn with
  | none => .next s
  | some it =>
    if !(s.fabOn && s.tilthOn && s.freeTid taskid && !s.quiet) then .next s
    else if s.failsPinned it then .next (s.malformed it taskid)
    else
      let saveOk := match x with
        | .core k => !(dKind it.words == 0 && dPreemptible it.words) ||
            (decide (save < 4) && !(s.savesUsed k).contains save)
        | _ => true
      if s.selected it x && s.chosen it x && saveOk then
        .next ((s.recordHolds it x).dispatchTo it x taskid save places)
      else .next s

/-- TASK_RELEASE (R276): the resources of a completed task are freed; where no chained enqueue is due, its events, note
and record follow at once. -/
def execTaskRelease (taskid : Word) (s : State) : Host.Outcome State Fault Refusal :=
  match s.task? taskid with
  | none => .next s
  | some it =>
    if s.fabOn && s.mayRelease it && !it.freed then
      let s := s.releaseRes it
      .next (if it.chains then s else s.releaseEnd it)
    else .next s

/-- CHAINED_ENQUEUE (R277): step 2 of a release, then the rest of it. -/
def execChainedEnqueue (taskid : Word) (s : State) : Host.Outcome State Fault Refusal :=
  match s.task? taskid with
  | none => .next s
  | some it =>
    whenOk (s.fabOn && it.phase == .completed && it.freed && it.chains && !(s.fab.held.any fun h => h.who == .chain it.sn))
      s (s.chainStep it)

/-- The running task of a core that a pre-emption may displace, and how long it has run (R278, R285). -/
def State.victimOf (s : State) (it : Item) (k : Nat) : Option (Nat × Nat) :=
  match s.coreItem k with
  | none => none
  | some v =>
    let x := Exec.core k
    let gone := s.updItem v.sn fun i => { i with phase := .completed }
    if dKind v.words = 0 ∧ dPreemptible v.words ∧ s.itemLevel v > s.itemLevel it ∧ (s.core k).suspended.length < 3 ∧
        gone.eligible it x ∧ !(s.fab.preempting.any fun p => p.2 == k) then
      some (s.itemLevel v, v.runTc + (s.airtime - v.tStart))
    else none

/-- PREEMPT_DECISION (R278, R309). -/
def execPreemptDecision (sn victim : Nat) (s : State) : Host.Outcome State Fault Refusal :=
  match s.item? sn with
  | none => .next s
  | some it =>
    let c := s.qcb it.q
    let head := it.phase == .ready && !it.blocked && c.cls == 0 && c.preempts &&
      (s.readyItems 0).all fun j => !(s.before j it)
    let noFree := (classExecs 0).all fun x => !(s.execFree x && s.eligible it x)
    let best := match s.victimOf it victim with
      | none => false
      | some v => (List.range 272).all fun k =>
          match s.victimOf it k with
          | none => true
          | some w => decide (w.1 < v.1) || (w.1 == v.1 && decide (w.2 ≤ v.2))
    if s.fabOn && s.tilthOn && !s.quiet && head && noFree && best && !(s.fab.preempting.any fun p => p.1 == sn) then
      let s := { s with fab := { s.fab with preempting := s.fab.preempting ++ [(sn, victim)] } }
      .next (s.traceItem 0x03 { it with exec := some (.core victim) } 0)
    else .next s

/-- The suspended task that a free core resumes (R279): the highest level, then the earliest suspended. -/
def State.bestSuspended (s : State) (k : Nat) : Option Item :=
  let l := s.suspendedOn k
  l.find? fun i => l.all fun j => decide (s.itemLevel i ≤ s.itemLevel j)

/-- TASK_RESUME (R279, R96, R104, R105). -/
def execTaskResume (k : Nat) (s : State) : Host.Outcome State Fault Refusal :=
  match s.bestSuspended k with
  | none => .next s
  | some it =>
    let x := Exec.core k
    let better := (s.readyItems 0).any fun j => decide (s.itemLevel j < s.itemLevel it) && s.eligible j x
    if s.fabOn && !s.quiet && s.serving (pgCore k) && s.execFree x && !better then
      let it' : Item := { it with phase := .dispatched, tStart := s.airtime }
      let s := s.updItem it.sn fun _ => it'
      let s := s.unsuspend k it.taskid
      let bufs := it.handles.map fun h =>
        match s.hEntry h with
        | some e => (eAddr e, eMcls e)
        | none => (0, 0)
      let s := (s.count pgFabric Reg.TFB_TALLY_DISPATCH 1).traceItem 0x04 it' 0
      .next (s.startCore it' k bufs true)
    else .next s

/-- SHED_QUEUED (R282): the test while a descriptor waits in a ready list. -/
def execShedQueued (sn : Nat) (s : State) : Host.Outcome State Fault Refusal :=
  match s.item? sn with
  | none => .next s
  | some it =>
    whenOk (s.fabOn && it.phase == .ready && !it.rerun && (s.qcb it.q).overflow == 2 && s.late it.words) s
      (s.shed it shedLateQueued 0x08 0)

/-- EXPIRED (R268): an armed descriptor at its deadline. -/
def execExpired (sn : Nat) (s : State) : Host.Outcome State Fault Refusal :=
  match s.item? sn with
  | none => .next s
  | some it =>
    if s.fabOn && it.phase == .armed && dDeadline it.words != 0 && decide (s.airtime ≥ dDeadline it.words) then
      let s := s.traceItem 0x09 it 0
      let s := s.count pgFabric Reg.TFB_TALLY_EXPIRED 1
      .next (((s.noteItem 0x44 0 it.q it.words 0 0).delItem sn).refresh it.q)
    else .next s

/-- Has a task's deadline been reached (R284)? -/
def State.pastDeadline (s : State) (it : Item) : Bool :=
  dKind it.words == 0 && dDeadline it.words != 0 && decide (s.airtime ≥ dDeadline it.words)

/-- DEADLINE_WAIT (R284). -/
def execDeadlineWait (taskid : Word) (s : State) : Host.Outcome State Fault Refusal :=
  match s.task? taskid with
  | none => .next s
  | some it => whenOk (s.fabOn && it.phase == .dispatched && it.inWait && s.pastDeadline it) s (s.abortTask it 0x0031)

/-- DEADLINE_RUN (R284, R279). -/
def execDeadlineRun (taskid : Word) (s : State) : Host.Outcome State Fault Refusal :=
  match s.task? taskid with
  | none => .next s
  | some it =>
    whenOk (s.fabOn && (s.qcb it.q).abortLate && s.pastDeadline it &&
        ((it.phase == .dispatched && !it.inWait) || it.phase == .suspended)) s (s.abortTask it 0x0032)

/-- WATCHDOG (R285): the task is aborted and its executor reported to Ward. -/
def execWatchdog (taskid : Word) (s : State) : Host.Outcome State Fault Refusal :=
  match s.task? taskid with
  | none => .next s
  | some it =>
    let lim := dRunLimit it.words
    if s.fabOn && it.phase == .dispatched && dKind it.words == 0 && lim != 0 &&
        decide (it.runTc + (s.airtime - it.tStart) ≥ 1024 * lim) then
      let s := s.abortTask it 0x0033
      .next (match it.exec.bind execPage with
        | some p => s.hardpan p 0x02 it.taskid.toNat
        | none => s)
    else .next s

/-- DEADLOCK (R297, R298): the supervisor is noted once. -/
def execDeadlock (fn group : Nat) (s : State) : Host.Outcome State Fault Refusal :=
  match s.fab.groups.find? fun g => g.fn == fn && g.group == group with
  | none => .next s
  | some g =>
    if s.fabOn && !g.reported && s.deadlocked g then
      let ms := s.members g
      let waiting := (ms.filter (·.inWait)).length
      let armed := (ms.filter fun m => m.phase == .armed).length
      let c := s.qcb g.sup
      let s := s.trace ⟨0x0C, c.level, c.cls, g.sup, fn, 0, 0, 15, 0, 0, w32 group⟩
      let s := s.count pgFabric Reg.TFB_TALLY_DEADLOCK 1
      let s := s.fabNote g.sup 0x45 group 0 0 0 0 (w32 waiting) (w32 armed)
      .next { s with fab := { s.fab with groups := s.fab.groups.map fun h =>
        if h.fn = fn ∧ h.group = group then { h with reported := true } else h } }
    else .next s

/-! ### Host paths -/

/-- Offsets of the configuration of descriptor ring `n` (R512). -/
def ringCfg (n : Nat) : Nat := Reg.HIF_FN_RING_CFG + 16 * n

/-- Is the function window of `f` within reach: the host interface READY and the function up (R486, R562)? -/
def State.winUp (s : State) (f : Nat) : Bool := decide (f < 64) && s.hostUp && s.fnUp f

/-- A doorbell (R494, R562): a new TAIL; one at or above SIZE is discarded and sets ERROR; while the fabric is not READY it is
discarded. -/
def State.doorbell (s : State) (f n v : Nat) : State :=
  if s.ready pgFabric then
    let w := s.win f
    let r := lookupD FnRing.reset n w.rings
    let size := 2 ^ s.fld ⟨.fnPage, f⟩ (ringCfg n) 20 5
    let t := v % 65536
    let r' : FnRing := if t ≥ size then { r with err := true } else { r with tail := t }
    s.setWin f { w with rings := insertKey n r' w.rings }
  else s

/-- HFW_DB (R494, R562). -/
def execHfwDb (f n : Nat) (v : Word) (s : State) : Host.Outcome State Fault Refusal :=
  .next (if s.winUp f ∧ n < 64 then s.doorbell f n v.toNat else s)

/-- RING_FETCH (R300, R494): the fabric fetches the next descriptor of a ring, which holds `data` in host memory, and
enqueues it; a held one pauses the ring. -/
def execRingFetch (f n : Nat) (data : List Word) (s : State) : Host.Outcome State Fault Refusal :=
  let p : Page := ⟨.fnPage, f⟩
  let w := s.win f
  let r := lookupD FnRing.reset n w.rings
  let size := 2 ^ s.fld p (ringCfg n) 20 5
  if s.fabOn && !s.quiet && decide (f < 64) && decide (n < 64) && s.fld p (ringCfg n) 25 1 == 1 && r.next != r.tail && s.bme f &&
      !(s.fab.held.any fun h => h.who == .ring f n) then
    let s := s.setWin f { w with rings := insertKey n { r with next := (r.next + 1) % size } w.rings }
    match s.enqueue (s.fld p (ringCfg n) 0 20) f (desc16 data) .notify .block (.ring f n) true with
    | (s', .refused) => .next (s'.ringRefused f)
    | (s', _) => .next s'
  else .next s

/-- Where a function's window lies in its BAR0 (R487, R492). -/
def winBase (f : Nat) : Nat := if f = 0 then 0x100000 else 0

/-- A push (R301, R493, R495, R520): one enqueue; one that is not whole, to a disabled slot, to a full queue, or in REST and its
entry is discarded and tallied. -/
def State.pushSlot (s : State) (f sl : Nat) (data : List Word) (whole : Bool) : State :=
  let p : Page := ⟨.fnPage, f⟩
  let off := Reg.HIF_FN_PUSH + 4 * sl
  let drop (s : State) : State := s.count pgFabric Reg.TFB_TALLY_PUSHDROP 1
  if !whole then (drop s).accErr (.fn f) (winBase f + 0x1000 + 64 * sl) 0
  else if s.quiet then drop s
  else if s.fabOn then
    let q := s.fld p off 0 20
    let ws := desc16 data
    let c := s.qcb q
    if s.fld p off 20 1 != 1 then drop s
    else if !isSvc q && c.enabled && c.owner == f && kindAccepted c.cls (dKind ws) && s.fullFor q ws then
      (drop s).noteItem 0x43 0 q ws 0 0
    else (s.enqueue q f ws .notify .block .other false).1
  else s

/-- PUSH_SLOT (R301, R495). -/
def execPushSlot (f sl : Nat) (data : List Word) (whole : Bool) (s : State) : Host.Outcome State Fault Refusal :=
  .next (if s.winUp f ∧ sl < 64 then s.pushSlot f sl data whole else s)

/-- The host completes the staged host task with a STATUS (R498). -/
def State.doneHi (s : State) (f v : Nat) : State :=
  if s.fabOn then
    let bad := s.count ⟨.fnPage, f⟩ Reg.HIF_FN_TALLY_BADDONE 1
    match s.task? (s.win f).doneLo with
    | none => bad
    | some it =>
      let host := match it.exec with
        | some (.host g _) => g == f
        | _ => false
      if host && it.phase == .dispatched then s.endTask it.sn true (v % 256) else bad
  else s

/-- HFW_DONE_HI (R498). -/
def execHfwDoneHi (f : Nat) (v : Word) (s : State) : Host.Outcome State Fault Refusal :=
  .next (if s.winUp f then s.doneHi f v.toNat else s)

/-! ### Tilth's own decisions -/

/-- Copies storage line by line; a poisoned line is copied as POISON (R325, R378). -/
def State.copyLines (s : State) (src dst n : Nat) : State :=
  (List.range ((n + 63) / 64)).foldl
    (fun s j =>
      let a := src + 64 * j
      let bs := memGets s.mem.cells a 64
      let bad := (List.range 64).filter fun i => s.readsBad (a + i)
      let s := match bad with
        | [] => s
        | i :: _ => s.noteBad (a + i) 6 true
      let s := (s.write (dst + 64 * j) bs).1
      bad.foldl (fun s i => s.mark (dst + 64 * j + i) true) s)
    s

/-- Is the part behind an address DRAINING (R326)? -/
def State.drainingAt (s : State) (a : Nat) : Bool :=
  match (s.region a).page with
  | some p => s.part p == stDraining
  | none => false

/-- MIGRATE (R325, R326): a migration of an idle buffer starts, or its copy has landed and it commits. -/
def execMigrate (handle : Word) (start : Bool) (place : Nat) (s : State) : Host.Outcome State Fault Refusal :=
  if !(s.tilthOn && s.hNamed handle) then .next s
  else
    match s.hEntry handle with
    | none => .next s
    | some e =>
      let p := hPool handle
      if start then
        let drain := s.drainingAt (eAddr e)
        let locs := (List.range 16).map Loc.clodMem ++ (List.range 8).map (fun o => Loc.deepAt (stopDB o)) ++ [Loc.hbm]
        match (allowedLocs e none locs).find? fun l =>
            s.locEver p l && s.locRoom p l (eSize e) && s.locAt p false l (eSize e) place with
        | some l =>
          if eState e = 1 ∧ eRefs e = 0 ∧ (drain ∨ (!eNoMove e ∧ s.fld pgTilth Reg.TLT_MIGRATE_CTRL 0 1 = 1)) ∧
              eMcls e ≠ 0 ∧ !(s.tilth.migr.any fun m => m.handle == handle) then
            let n := roundUp (eSize e) (granule l.mcls)
            let dst : Alloc := ⟨handle, place, n, l.mcls⟩
            let s := { s with tilth := { s.tilth with
              allocs := s.tilth.allocs ++ [dst], migr := s.tilth.migr ++ [(⟨handle, dst⟩ : Migration)] } }
            .next (s.setEntry handle (eBind e (eAddr e) (eMcls e) 2 (eLeft e) (eBinder e) 0))
          else .next s
        | none => .next s
      else
        match s.tilth.migr.find? fun m => m.handle == handle with
        | some m =>
          if eState e = 2 then
            let s := s.copyLines (eAddr e) m.dst.addr (eSize e)
            let s := s.setEntry handle (eBind e m.dst.addr m.dst.mcls 1 (eLeft e) (eBinder e) (eRefs e))
            let s := s.give handle (eAddr e)
            .next ((s.count pgTilth Reg.TLT_TALLY_MIGRATE 1).traceHandle 0x22 none handle m.dst.addr m.dst.mcls)
          else .next s
        | none => .next s

/-- Work ahead of an item in its class, of pools that share an executor with its own (R329). -/
def State.workAhead (s : State) (it : Item) : Nat :=
  let c := s.qcb it.q
  let mine := poolSet (s.pool c.pool) c.cls
  ((s.fab.items.filter fun j => j.phase == .ready && (s.qcb j.q).cls == c.cls).filter fun j =>
    s.before j it && (mine.any fun n => poolHas (s.pool (s.qcb j.q).pool) c.cls n)).foldl
    (fun a j => a + 64 * dRunEst j.words) 0

/-- Executors of a pool's set that run tasks picked out by a test. -/
def State.occupied (s : State) (p cls : Nat) (f : Item → Bool) : Nat :=
  (s.fab.items.filter fun i =>
    i.phase == .dispatched && f i &&
      (match i.exec.bind s.logical with
       | some n => poolHas (s.pool p) cls n
       | none => false)).length

/-- The estimate of R329 against the deadline: the overrun in Tc, if any. The present occupancy and pace stand for their
averages (log entry 13). -/
def State.slackOverrun (s : State) (it : Item) : Option Nat :=
  let c := s.qcb it.q
  let r := s.pool c.pool
  let lv := c.level
  let E := poolSet r c.cls
  let clods := if c.cls = 0 then ((List.range 16).filter fun d => wfld r 0 (16 + d) 1 == 1).length else 1
  let higher := s.occupied c.pool c.cls fun i => decide (s.itemLevel i < lv)
  let others := s.occupied c.pool c.cls fun i => decide (s.itemLevel i ≥ lv) && (s.qcb i.q).pool != c.pool
  let N : Int := (E.length : Int) - max (s.reserve c.cls * clods) higher - others
  let A := s.workAhead it
  let xs := (classExecs c.cls).filter fun x =>
    match s.logical x with
    | some n => E.contains n
    | none => false
  let pace := xs.foldl (fun a x => a + (s.paceOf x).1) 0
  let floor := xs.foldl (fun a x => a + (s.paceOf x).2) 0
  let run := if pace = 0 then 64 * dRunEst it.words else 64 * dRunEst it.words * floor / pace
  let limit := dDeadline it.words + 64 * poolShedMargin r
  if A > 0 ∧ N ≤ 0 then some (2 ^ 38)
  else
    let est := s.airtime + (if A = 0 then 0 else A / N.toNat) + run
    if est > limit then some (est - limit) else none

/-- SHED_SLACK (R329). -/
def execShedSlack (sn : Nat) (s : State) : Host.Outcome State Fault Refusal :=
  match s.item? sn with
  | none => .next s
  | some it =>
    let c := s.qcb it.q
    if s.tilthOn && s.fabOn && it.phase == .ready && !it.rerun && decide (c.level ≥ 4) && c.overflow == 2 &&
        poolShedEn (s.pool c.pool) && dDeadline it.words != 0 then
      match s.slackOverrun it with
      | some d =>
        let s := s.count pgTilth Reg.TLT_TALLY_SHED 1
        let n := lookupD 0 c.pool s.tilth.sheds
        let s := { s with tilth := { s.tilth with sheds := insertKey c.pool (satAdd 32 n 1) s.tilth.sheds } }
        .next (s.shed it shedTilth 0x25 (w32 (min ((d + 63) / 64) (2 ^ 32 - 1))))
      | none => .next s
    else .next s

/-- REPLACE (R315): a command not started moves to an instance that can meet its slack. -/
def execReplace (sn inst : Nat) (s : State) : Host.Outcome State Fault Refusal :=
  match s.item? sn with
  | none => .next s
  | some it =>
    match it.exec with
    | some (.engine cls i) =>
      let x := Exec.engine cls inst
      let dl := dDeadline it.words
      let ahead := (s.window cls i).takeWhile (· != sn)
      let fin := ((ahead.filterMap s.item?).foldl (fun a j => a + s.estRun j (.engine cls i)) 0) +
        s.estRun it (.engine cls i)
      if s.tilthOn && it.phase == .dispatched && !it.started && inst != i && dl != 0 &&
          decide (s.airtime + fin > dl) && s.eligible it x && s.execFree x && decide (s.airtime + s.estFinish it x ≤ dl) &&
          (decide (s.airtime ≥ s.tilth.replaceAt + 4096) || s.airtime == s.tilth.replaceAt) then
        let s := s.setWindow cls i ((s.window cls i).filter (· != sn))
        let s := s.setWindow cls inst (s.window cls inst ++ [sn])
        let s := s.updItem sn fun j => { j with exec := some x }
        let s := { s with tilth := { s.tilth with replaceAt := s.airtime } }
        let s := s.count pgTilth Reg.TLT_TALLY_REPLACE 1
        .next (s.traceItem 0x28 { it with exec := some x } (w32 i))
      else .next s
    | _ => .next s

/-- The lowest free slot of an instance. -/
def State.freeSlot (s : State) (cls i : Nat) : Nat :=
  ((List.range 64).find? fun n => (s.ctxOn cls i).all fun c => c.slot != n).getD 0

/-- CTX_MOVE (R326): a resident context of a draining instance, its window empty, moves to another. -/
def execCtxMove (cls src ctx fn dst : Nat) (s : State) : Host.Outcome State Fault Refusal :=
  match s.ctxs.find? fun c => c.cls == cls && c.inst == src && c.ctx == ctx && c.fn == fn with
  | none => .next s
  | some c =>
    if s.part ⟨engKind cls, src⟩ == stDraining && (s.window cls src).isEmpty && s.ready ⟨engKind cls, dst⟩ &&
        s.tilthOn && decide (1 ≤ cls) && decide (cls ≤ 8) && s.ctxRoom cls dst c.size && dst != src then
      let slot := s.freeSlot cls dst
      let s := { s with ctxs := s.ctxs.map fun d => if d = c then { d with inst := dst, slot := slot } else d }
      .next (s.trace ⟨0x2C, 0, cls, 0, fn, 0, dst, 15, 0, 0, w32 (ctx % 65536 + src * 65536)⟩)
    else .next s

/-- The handles that an abandoned attempt bound are bound again to fresh storage, each once (R327). BINDER names the new attempt
from its dispatch on. -/
def rebind (it : Item) : List Word → List Nat → State → Option State
  | [], _, s => some s
  | h :: hs, places, s =>
    match s.hEntry h with
    | none => rebind it hs places s
    | some e =>
      if eState e = 1 ∧ eBinder e = it.taskid then
        let s1 := s.give h (eAddr e)
        let pin := if dPinMem it.words then some (dPinCls it.words) else none
        match s1.judge h e pin it.avoid it (places.headD 0) with
        | .at_ a m =>
          let s2 := s1.take h a (eSize e) m (eHint e == 2)
          let s2 := s2.setEntry h (eBind e a m 1 (eLeft e) (eBinder e) (eRefs e))
          rebind it hs (places.drop 1) ((s2.count pgTilth Reg.TLT_TALLY_BIND 1).traceHandle 0x2A (some it) h a m)
        | _ => none
      else rebind it hs places s

/-- RERUN_PLACE (R327, R577): an abandoned task or command returns to the head of its level, its outputs bound to fresh
storage, if it can still finish by its deadline; otherwise it fails, or completes with SHED. -/
def execRerunPlace (sn : Nat) (places : List Nat) (s : State) : Host.Outcome State Fault Refusal :=
  match s.item? sn with
  | none => .next s
  | some it =>
    if !(s.fabOn && s.tilthOn && it.phase == .abandoned) then .next s
    else if dDeadline it.words ≠ 0 ∧ s.airtime + 64 * dRunEst it.words > dDeadline it.words then
      if dKind it.words = 1 then
        .next (s.completeCmd it (match it.avoid with
          | some x => Exec.num x
          | none => 0) 0x05)
      else .next (s.endTask sn false (if it.fetchEnded then 0x20 else 0x22))
    else
      match rebind it it.handles.eraseDups places s with
      | none => .next s
      | some s' =>
        let first := s'.fab.items.foldl (fun m i => min m i.readyAt) 0
        let s' := s'.updItem sn fun i => { i with phase := .ready, readyAt := first - 1, exec := none, started := false }
        .next (s'.traceItem 0x29 it (w32 (match it.avoid with
          | some x => Exec.num x
          | none => 0)))

end Sys2Proof.Machine
end

