-- ==== Sys2Proof/Machine/Kaolin.lean ====
section
/-!
DEFINITION. Sys2Proof/Machine/Kaolin.lean: the security block: its lock and users (R558, R559), key derivation (R555, R556), the four
operations (R557, R560) and its registers (R587).
-/
namespace Sys2Proof.Machine

/-- A user of Kaolin as KLN_LOCK.HOLDER codes it: 1 and 2 Ward's pairs, of which the active one accesses, 3 the PF (R558). -/
def State.klnUser (s : State) (a : Agent) : Nat := if agWard a then 1 + s.fld pgWard Reg.WRD_PAIRS 0 1 else 3

/-- KLN_LOCK.HOLDER; 0 free. -/
def State.klnHolder (s : State) : Nat := s.fld pgKaolin Reg.KLN_LOCK 2 2

/-- Bytes of consecutive registers of the page. -/
def State.klnBytes (s : State) (off n : Nat) : List Byte :=
  ((List.range (n / 4)).flatMap fun i => leBytes 4 (s.reg pgKaolin (off + 4 * i)).toNat)

/-- Bytes put into consecutive registers of the page. -/
def State.klnPut (s : State) (off : Nat) (bs : List Byte) : State :=
  (List.range (bs.length / 4)).foldl (fun s i => s.setReg pgKaolin (off + 4 * i) (w32 (ofLe ((bs.drop (4 * i)).take 4)))) s

/-- What KLN_CMD says: its fields, and the label. -/
structure KlnCmd where
  op : Nat
  owner : Bool
  slot : Nat
  unit : Nat
  labelLen : Nat
  sram : Bool
  label : List Nat
  len : Nat
deriving DecidableEq, Repr

def State.klnCmd (s : State) : KlnCmd where
  op := s.fld pgKaolin Reg.KLN_CMD 0 3
  owner := s.fld pgKaolin Reg.KLN_CMD 3 1 == 1
  slot := s.fld pgKaolin Reg.KLN_CMD 4 2
  unit := if s.fld pgKaolin Reg.KLN_CMD 6 1 = 1 then 4096 else 512
  labelLen := s.fld pgKaolin Reg.KLN_CMD 7 6
  sram := s.fld pgKaolin Reg.KLN_CMD 13 1 == 1
  label := (natBytes (s.klnBytes Reg.KLN_LABEL 32)).take (s.fld pgKaolin Reg.KLN_CMD 7 6)
  len := s.fld pgKaolin Reg.KLN_LEN 0 20

/-- Does a label begin with one that is reserved to Ward (R560)? -/
def labelReserved (l : List Nat) : Bool :=
  [labelImg, labelCfg, labelOwner].any fun r => l.take r.length == r

/-- May the command run (R557, R560, R587)? The data lie wholly in the window, or in Ward's SRAM. -/
def State.klnValid (s : State) (user : Nat) (c : KlnCmd) : Bool :=
  let isXts := c.op == 1 || c.op == 2
  decide (1 ≤ c.op) && decide (c.op ≤ 4) && decide (c.labelLen ≤ 32) && (!isXts || c.len % c.unit == 0) &&
    (user != 3 || (!c.sram && !labelReserved c.label)) && (!isXts || c.unit == 512 || c.sram) &&
    (if c.sram then decide (s.fld pgKaolin Reg.KLN_SRAM_ADDR 0 20 + c.len ≤ 0x100000) else decide (c.len ≤ 0x800))

/-- The data of a command, and results put in their place. -/
def State.klnData (s : State) (c : KlnCmd) : List Byte :=
  if c.sram then memGets s.ward.sram (s.fld pgKaolin Reg.KLN_SRAM_ADDR 0 20) c.len
  else (s.klnBytes Reg.KLN_DATA 0x800).take c.len
def State.klnStore (s : State) (c : KlnCmd) (bs : List Byte) : State :=
  if c.sram then s.setWard { s.ward with sram := memPuts s.ward.sram (s.fld pgKaolin Reg.KLN_SRAM_ADDR 0 20) bs }
  else s.klnPut Reg.KLN_DATA bs

/-- A command ends: its RESULT, and DONE. -/
def State.klnEnds (s : State) (r : Nat) : State :=
  (s.setReg pgKaolin Reg.KLN_STATUS (w32 (2 * r))).irq pgKaolin 2

/-- The holder's command runs (R556, R557): 0 OK, 2 INVALID, 3 TAG_MISMATCH, 4 NO_OWNER_ROOT. -/
def State.klnRun (s : State) (user : Nat) : State :=
  let c := s.klnCmd
  if !s.klnValid user c then s.klnEnds 2
  else
    match (if c.owner then s.ownerRoot c.slot else some s.deviceRoot) with
    | none => s.klnEnds 4
    | some root =>
      let data := natBytes (s.klnData c)
      if c.op = 1 ∨ c.op = 2 then
        let key := kdf root c.label 1 512
        (s.klnStore c (byteNats (xts (c.op == 1) key c.unit (s.reg64 pgKaolin Reg.KLN_TWEAK_LO) data))).klnEnds 0
      else
        let tag := byteNats (cmac (kdf root c.label 2 256) data)
        if c.op = 3 then (s.klnPut Reg.KLN_TAG tag).klnEnds 0
        else if tag = s.klnBytes Reg.KLN_TAG 16 then s.klnEnds 0 else s.klnEnds 3

/-- A register write or command of a user (R558): the holder's counts as activity; another user's is discarded. -/
def State.klnAsHolder (s : State) (a : Agent) (k : State → State) : State :=
  let u := s.klnUser a
  if s.klnHolder = u then k (s.setWard { s.ward with klnAt := s.airtime })
  else s.setWard { s.ward with klnDenied := insertNat u s.ward.klnDenied }

/-- KLN_LOCK written (R558). The user that takes the lock no longer sees NOT_HOLDER. -/
def State.klnLock (s : State) (a : Agent) (v : Nat) : State :=
  let u := s.klnUser a
  if bitOf v 0 ∧ s.klnHolder = 0 then
    (s.setFld pgKaolin Reg.KLN_LOCK 2 2 u).setWard
      { s.ward with klnAt := s.airtime, klnDenied := s.ward.klnDenied.filter (· != u) }
  else if bitOf v 1 ∧ s.klnHolder = u then s.setFld pgKaolin Reg.KLN_LOCK 2 2 0
  else s

/-- A write to a register of the page (R558, R587); a 64-bit value comes whole. -/
def State.klnWrite (s : State) (a : Agent) (off v : Nat) (pair : Bool) : State :=
  if off = Reg.KLN_LOCK then s.klnLock a v
  else s.klnAsHolder a fun s =>
    if off = Reg.KLN_GO then (if bitOf v 0 then s.klnRun (s.klnUser a) else s)
    else if off = Reg.KLN_SRAM_ADDR ∧ !agWard a then s.accErr a (pgKaolin.addr + off) 2
    else s.plainWrite a pgKaolin off v pair

/-- What the page shows one user (R558, R587). -/
def State.klnView (s : State) (a : Agent) (off : Nat) : Option Word :=
  let u := s.klnUser a
  if off = Reg.KLN_LOCK then some (w32 (s.klnHolder * 4 + bit (s.klnHolder == u) * 16))
  else if off = Reg.KLN_STATUS ∧ s.ward.klnDenied.contains u then some (w32 (2 * 1))
  else none

/-- An operation: the user writes KLN_CMD with OP, the other fields from `cmd`, and then KLN_GO. Ward and the PF are the
users (R558). -/
def State.klnOp (s : State) (a : Agent) (op cmd : Nat) : State :=
  if !agTrusted a then s
  else s.onPage a pgKaolin Reg.KLN_CMD fun s =>
    (s.klnWrite a Reg.KLN_CMD (setBits cmd 0 3 op) false).klnWrite a Reg.KLN_GO 1 false

/-- KLN_ACQUIRE (R558). -/
def execKlnAcquire (by_ : Agent) (s : State) : Host.Outcome State Fault Refusal :=
  .next (if agTrusted by_ then s.onPage by_ pgKaolin Reg.KLN_LOCK fun s => s.klnLock by_ 1 else s)
/-- KLN_RELEASE (R558). -/
def execKlnRelease (by_ : Agent) (s : State) : Host.Outcome State Fault Refusal :=
  .next (if agTrusted by_ then s.onPage by_ pgKaolin Reg.KLN_LOCK fun s => s.klnLock by_ 2 else s)
/-- XTS_ENC (R557). -/
def execXtsEnc (by_ : Agent) (cmd : Nat) (s : State) : Host.Outcome State Fault Refusal := .next (s.klnOp by_ 1 cmd)
/-- XTS_DEC (R557). -/
def execXtsDec (by_ : Agent) (cmd : Nat) (s : State) : Host.Outcome State Fault Refusal := .next (s.klnOp by_ 2 cmd)
/-- CMAC_GEN (R557). -/
def execCmacGen (by_ : Agent) (cmd : Nat) (s : State) : Host.Outcome State Fault Refusal := .next (s.klnOp by_ 3 cmd)
/-- CMAC_CHECK (R557). -/
def execCmacCheck (by_ : Agent) (cmd : Nat) (s : State) : Host.Outcome State Fault Refusal := .next (s.klnOp by_ 4 cmd)

/-- LOCK_LOST (R559): the holder issued no command and wrote no register for 10 ms. -/
def execLockLost (s : State) : Host.Outcome State Fault Refusal :=
  if s.klnHolder = 0 ∨ s.airtime < s.ward.klnAt + 19660800 then .next s
  else
    let s := s.setFld pgKaolin Reg.KLN_LOCK 2 2 0
    let s := (s.klnPut Reg.KLN_DATA (List.replicate 0x800 0)).klnPut Reg.KLN_TAG (List.replicate 16 0)
    .next ((s.count pgKaolin Reg.KLN_TALLY_LOCKLOST 1).irq pgKaolin 1)

end Sys2Proof.Machine
end

