-- ==== Sys2Proof/Machine/Ldpc.lean ====
section
/-!
DEFINITION. Sys2Proof/Machine/Ldpc.lean: the LDPC decoder and encoder: parameters (R226, R227), DECODE (R228 to R233), TBCRC
(R234) and ENCODE (R246 to R249).
-/
namespace Sys2Proof.Machine

/-! ### Parameters (R226) -/

/-- The 51 lifting sizes with their sets (TS 38.212 clause 5.3.2; log entry 32). -/
def liftSizes : List (Nat × Nat) :=
  [(0, 2, 8), (1, 3, 8), (2, 5, 7), (3, 7, 6), (4, 9, 6), (5, 11, 6), (6, 13, 5), (7, 15, 5)].flatMap fun t =>
    (List.range t.2.2).map fun j => (t.2.1 * 2 ^ j, t.1)

/-- Parameters of a transport block. -/
structure Ldpc where
  /-- Base graph 1 or 2. -/
  bg : Nat
  /-- Bits with the transport-block CRC, and that CRC's length. -/
  b : Nat
  ltb : Nat
  c : Nat
  /-- K′, Z_c, its set, K, N, N_cb. -/
  kp : Nat
  z : Nat
  set : Nat
  k : Nat
  n : Nat
  ncb : Nat
deriving DecidableEq, Repr

/-- Steps 1 to 4 of R226. -/
def ldpcParams (a r lbrm : Nat) : Ldpc :=
  let ltb := if a ≤ 3824 then 16 else 24
  let b := a + ltb
  let bg2 := a ≤ 292 ∨ (a ≤ 3824 ∧ 100 * r ≤ 67 * 1024) ∨ 4 * r ≤ 1024
  let kcb := if bg2 then 3840 else 8448
  let c := if b ≤ kcb then 1 else (b + kcb - 25) / (kcb - 24)
  let bp := if c = 1 then b else b + 24 * c
  let kp := if bp % c = 0 then bp / c else Config.oddBlock b c
  let kb := if bg2 then (if b > 640 then 10 else if b > 560 then 9 else if b > 192 then 8 else 6) else 22
  let best := liftSizes.foldl
    (fun (m : Nat × Nat) t => if kb * t.1 ≥ kp ∧ (m.1 = 0 ∨ t.1 < m.1) then t else m) (0, 0)
  let z := best.1
  let k := (if bg2 then 10 else 22) * z
  let n := (if bg2 then 50 else 66) * z
  { bg := if bg2 then 2 else 1, b := b, ltb := ltb, c := c, kp := kp, z := z, set := best.2, k := k, n := n
    ncb := if lbrm = 0 then n else min n (lbrm * 3 / (2 * c)) }

/-- E_r (step 5). -/
def ldpcE (p : Ldpc) (g nl qm r : Nat) : Nat :=
  let m := g / (nl * qm)
  nl * qm * (if r + m % p.c < p.c then m / p.c else (m + p.c - 1) / p.c)

/-- Σ E over the code blocks before `r`. -/
def ldpcStart (p : Ldpc) (g nl qm r : Nat) : Nat := (List.range r).foldl (fun a i => a + ldpcE p g nl qm i) 0

/-- k0 (step 5, TS 38.212 clause 5.4.2.1). -/
def ldpcK0 (p : Ldpc) (rv : Nat) : Nat :=
  let t := (if p.bg = 1 then [0, 17, 33, 56] else [0, 13, 25, 43]).getD rv 0
  t * p.ncb / p.n * p.z

/-- The circular positions of fillers, which rate matching skips. -/
def ldpcFiller (p : Ldpc) (k : Nat) : Bool := decide (p.kp - 2 * p.z ≤ k) && decide (k < p.k - 2 * p.z)

/-- The circular positions that the first `n` selected bits use (R226, R228 step 4). -/
def ldpcPositions (p : Ldpc) (rv n : Nat) : List Nat :=
  positions p.ncb (ldpcFiller p) (n * 2 + 2 * p.k + p.n) n (ldpcK0 p rv)

/-- Index in e of bit `t` as sent (step 6). -/
def ldpcDeint (e qm t : Nat) : Nat := t % qm * (e / qm) + t / qm

/-- The conditions of R227 for a codeword of G bits. -/
def ldpcGeom (p : Ldpc) (g nl qm : Nat) : Bool :=
  g % (nl * qm) == 0 && (List.range p.c).all (fun r => ldpcE p g nl qm r != 0) && decide (p.ncb ≥ p.k - 2 * p.z) &&
    decide (p.c ≤ 152)

/-- The code-block CRC length. -/
def ldpcLcb (p : Ldpc) : Nat := if p.c > 1 then 24 else 0

/-- The code-block check (R231). -/
def ldpcCheck (p : Ldpc) (bits : List Bool) : Bool :=
  if p.c > 1 then crcPass 24 polyB (bits.take p.kp)
  else if p.ltb = 24 then crcPass 24 polyA (bits.take p.b) else crcPass 16 poly16 (bits.take p.b)

/-! ### The decoder (R229, R230) -/

def ldpcRows (p : Ldpc) : Nat := if p.bg = 1 then 46 else 42
def ldpcCols (p : Ldpc) : Nat := if p.bg = 1 then 68 else 52

/-- Columns of row `m` of the lifted matrix, ascending. -/
def ldpcRow (p : Ldpc) (m : Nat) : List Nat :=
  (List.range (ldpcCols p)).filterMap fun j =>
    (Config.ldpcShift p.bg p.set (m / p.z) j).map fun v => j * p.z + (m % p.z + v) % p.z

/-- Sign of a value, 0 as +. -/
def sgn (x : Int) : Int := if x < 0 then -1 else 1

/-- The row update: new messages of a row, and the new values of its columns. -/
def rowUpdate (isFill : Nat → Bool) (cols : List Nat) (q : Array Int) (r : List Int) : Array Int × List Int :=
  let t := (List.range cols.length).map fun i => (satTo 511 (arrAt q (cols.getD i 0) - r.getD i 0)).1
  let a := t.map fun x => min (x.natAbs : Int) 63
  let idx := (List.range a.length).foldl (fun b i => if a.getD i 0 < a.getD b 0 then i else b) 0
  let min1 := a.getD idx 0
  let min2 := ((List.range a.length).filter (· != idx)).foldl (fun m i => min m (a.getD i 0)) 63
  let s := t.foldl (fun m x => m * sgn x) 1
  let r' := (List.range cols.length).map fun i =>
    let v := rnd false (3 * (if i = idx then min2 else min1)) 2
    if s * sgn (t.getD i 0) < 0 then -v else v
  ((List.range cols.length).foldl
    (fun q i =>
      let n := cols.getD i 0
      if isFill n then q else q.setIfInBounds n (satTo 511 (t.getD i 0 + r'.getD i 0)).1)
    q, r')

/-- One iteration over all rows. -/
def ldpcIter (p : Ldpc) (isFill : Nat → Bool) (st : Array Int × Array (List Int)) : Array Int × Array (List Int) :=
  (List.range (ldpcRows p * p.z)).foldl
    (fun st m =>
      let u := rowUpdate isFill (ldpcRow p m) st.1 (st.2.getD m [])
      (u.1, st.2.setIfInBounds m u.2))
    st

/-- Hard decisions. -/
def hard (q : Array Int) : List Bool := q.toList.map fun x => decide (x < 0)

/-- Are all parity checks satisfied? -/
def ldpcSynd (p : Ldpc) (q : Array Int) : Bool :=
  (List.range (ldpcRows p * p.z)).all fun m =>
    ((ldpcRow p m).filter fun n => decide (arrAt q n < 0)).length % 2 == 0

/-- Iterations until a stop (R230), with those left: the values, and iterations run. -/
def ldpcRun (p : Ldpc) (isFill : Nat → Bool) (et : Nat) : Nat → Nat → Array Int × Array (List Int) → Array Int × Nat
  | 0, done, st => (st.1, done)
  | n + 1, done, st =>
    let st := ldpcIter p isFill st
    let stop := (et == 1 && ldpcSynd p st.1) || (et == 2 && ldpcCheck p (hard st.1))
    if stop then (st.1, done + 1) else ldpcRun p isFill et n (done + 1) st

/-- Decodes the soft values of a code block: hard decisions, check, syndrome, iterations. -/
def ldpcDecode (p : Ldpc) (et maxIter : Nat) (soft : List Int) : List Bool × Bool × Bool × Nat :=
  let cols := ldpcCols p * p.z
  let isFill (n : Nat) : Bool := decide (p.kp ≤ n) && decide (n < p.k)
  let q : Array Int := ((List.range cols).map fun n =>
    if isFill n then 511 else if n < 2 * p.z then 0 else soft.getD (n - 2 * p.z) 0).toArray
  let r := ldpcRun p isFill et maxIter 0 (q, (List.replicate (ldpcRows p * p.z) []).toArray)
  let bits := hard r.1
  (bits, ldpcCheck p bits, ldpcSynd p r.1, r.2)

/-! ### DECODE -/

def dcA (b : List Byte) : Nat := bF b 0x40 0 21
def dcR (b : List Byte) : Nat := bF b 0x40 21 10
def dcG (b : List Byte) : Nat := bF b 0x44 0 24
def dcNl (b : List Byte) : Nat := bF b 0x44 24 4
def dcQm (b : List Byte) : Nat := bF b 0x44 28 4
def dcFirst (b : List Byte) : Nat := bF b 0x48 0 8
def dcNum (b : List Byte) : Nat := bF b 0x48 8 8
def dcRv (b : List Byte) : Nat := bF b 0x48 16 2
def dcIter (b : List Byte) : Nat := bF b 0x48 18 6
def dcEt (b : List Byte) : Nat := bF b 0x48 24 2

def dcHq (b : List Byte) (turbo : Bool) (c : Nat) : HqUse where
  combine := bF b 0x54 0 1 == 1
  wb := bF b 0x54 1 2
  comp := bF b 0x54 3 1 == 1
  turbo := turbo
  entry := bF b 0x54 16 16
  addr := bQ b 0x30
  stride := bW b 0x58
  notify := bW b 0x5C
  c := c

/-- Fields that DECODE and TURBO_DEC share, within their ranges (R227, R232). -/
def decodeFieldsOk (b : List Byte) (hq : HqUse) (s : Nat) : Bool :=
  bAddr b 0x20 && bAddr b 0x28 && bAddr64 b 0x38 && bF b 0x40 31 1 == 0 &&
    decide (24 ≤ dcA b) && decide (dcA b ≤ 1277992) && [2, 4, 6, 8].contains (dcQm b) && decide (1 ≤ dcNl b) &&
    decide (dcNl b ≤ 4) && decide (1 ≤ dcIter b) && bF b 0x48 26 6 == 0 && bF b 0x4C 31 1 == 0 && decide (hq.wb ≤ 2) &&
    bZero b 0x60 32 &&
    (!hq.on || (bAddr b 0x30 && hq.stride % 64 == 0 && decide (hq.stride ≥ softBytes hq.comp s) && bF b 0x5C 20 11 == 0))

/-- Fields of DECODE within their ranges (R227, R232). -/
def ldeOk (b : List Byte) (p : Ldpc) : Bool :=
  decodeFieldsOk b (dcHq b false p.c) p.ncb && decide (1 ≤ dcR b) && decide (dcR b ≤ 1023) && decide (1 ≤ dcNum b) &&
    decide (dcNum b ≤ 32) && decide (dcIter b ≤ 32) && decide (dcEt b ≤ 2) && bF b 0x50 22 10 == 0 && bF b 0x54 4 12 == 0

/-- One code block of DECODE (R228): its LLRs and what its soft buffer gave. -/
def ldeBlock (b : List Byte) (p : Ldpc) (r : Nat) (llr : List Byte) (soft : Soft) : CbOut :=
  let g := dcG b
  let qm := dcQm b
  let e := ldpcE p g (dcNl b) qm r
  let at0 := ldpcStart p g (dcNl b) qm r
  let seq := (gold (bF b 0x4C 0 31) (at0 + e)).drop at0
  let raw := (llr.zip seq).map fun x => if x.2 then -(llrIn x.1) else llrIn x.1
  -- bit t as sent is e_{ldpcDeint t}
  let es := ((List.range e).foldl (fun (a : Array Int) t => a.setIfInBounds (ldpcDeint e qm t) (raw.getD t 0))
    (List.replicate e 0).toArray).toList
  let start := match soft with
    | .values v => (List.range p.ncb).map fun k => if ldpcFiller p k then 0 else v.getD k 0
    | _ => List.replicate p.ncb 0
  let cmb := combine start (ldpcPositions p (dcRv b) e) es
  let d := ldpcDecode p (dcEt b) (dcIter b) cmb.1
  { r := r, bits := d.1.take (p.kp - ldpcLcb p), pass := d.2.1, synd := d.2.2.1, iters := d.2.2.2, soft := cmb.1,
    lost := soft == .lost, empty := soft == .empty, sat := cmb.2 }

/-- Where a code block's bits go, and how many bytes (R231). -/
def ldeOut (b : List Byte) (p : Ldpc) (r : Nat) : Nat × Nat :=
  (bQ b 0x28 + r * p.b / (8 * p.c), bitBytes (p.kp - ldpcLcb p))

/-- The soft buffers of the blocks, or the STATUS of one that cannot be reached. -/
def State.softs (s : State) (u : HqUse) (e : List Word) (n : Nat) : List Nat → Except Nat (List Soft)
  | [] => .ok []
  | r :: rs =>
    match s.softOf u e r n with
    | .fails st => .error st
    | x =>
      match s.softs u e n rs with
      | .ok xs => .ok (x :: xs)
      | .error st => .error st

/-- The end of a decode command: outputs, soft buffers, directory, record (R233, R241). `extra` adds result words. -/
def decodeFinish (s : State) (cls i fn : Nat) (u : HqUse) (e : List Word) (cbs : List CbOut)
    (writes : List (Nat × List Byte)) (rec_ : Nat) (words : List Nat → List Nat → List Nat) : State × Nat :=
  let w := s.emit writes
  let outs := writes.map fun x => (x.1, x.2.length)
  if !w.2 then (w.1.scribble (outs ++ recordRange rec_), csAccess)
  else
    let k := w.1.softBacks u cbs
    if k.2.2.2 then (k.1.scribble (outs ++ recordRange rec_), csAccess)
    else
      let s := k.1.hqUpdate fn u e cbs k.2.1
      let s := s.addTallies (engPage cls i) (decodeTallies cbs k.2.2.1)
      let w := s.emit (recordOut rec_ (words k.2.1 k.2.2.1))
      if w.2 then (w.1, csOk) else (w.1.scribble (recordRange rec_), csAccess)

/-- DECODE (R228 to R233, R240, R241). -/
def ldeRun (i : Nat) (s : State) (it : Item) (b : List Byte) : State × Nat :=
  let p := ldpcParams (dcA b) (dcR b) (bF b 0x50 0 22)
  let g := dcG b
  if !ldeOk b p ∨ dcFirst b + dcNum b > p.c then (s, csFormat)
  else if !ldpcGeom p g (dcNl b) (dcQm b) then (s, 0x10)
  else
    let u := dcHq b false p.c
    match s.hqCheck it.fn u with
    | .error st => (s.hqTally st, st)
    | .ok e =>
      let rs := (List.range (dcNum b)).map (dcFirst b + ·)
      let outs := rs.map (ldeOut b p) ++ recordRange (bQ b 0x38)
      match s.gather (rs.map fun r => (bQ b 0x20 + ldpcStart p g (dcNl b) (dcQm b) r, ldpcE p g (dcNl b) (dcQm b) r)) with
      | .error st => (s.scribble outs, st)
      | .ok llrs =>
        match s.softs u e p.ncb rs with
        | .error st => (s.scribble outs, st)
        | .ok sfs =>
          let cbs := (List.range rs.length).map fun k => ldeBlock b p (rs.getD k 0) (llrs.getD k []) (sfs.getD k .fresh)
          let writes := cbs.map fun cb => ((ldeOut b p cb.r).1, bitsOut cb.bits)
          decodeFinish s 5 i it.fn u e cbs writes (bQ b 0x38) (decodeWords (dcFirst b) cbs)

def execDecode (inst : Nat) (s : State) : Host.Outcome State Fault Refusal :=
  .next (s.engRow 5 1 inst fun s it b _ => ldeRun inst s it b)

/-! ### TBCRC (R234) -/

def tbcrcRun (i : Nat) (s : State) (it : Item) (b : List Byte) : State × Nat :=
  let a := bF b 0x30 0 21
  let ltb := if a ≤ 3824 then 16 else 24
  let rel := bF b 0x34 0 1 == 1
  let en := bF b 0x34 16 16
  if !(bAddr b 0x20 && bAddr64 b 0x28 && decide (24 ≤ a) && decide (a ≤ 1277992) && bF b 0x30 21 11 == 0 &&
      bF b 0x34 1 15 == 0 && bZero b 0x38 8) then (s, csFormat)
  else
    match (if rel then s.hqTake it.fn en else .ok []) with
    | .error st => (s, st)
    | .ok _ =>
      let n := bitBytes (a + ltb)
      s.engIo (engPage 5 i) [(bQ b 0x20, n)] (recordRange (bQ b 0x28)) fun data =>
        let bits := bitsIn (a + ltb) (data.getD 0 [])
        let pass := if ltb = 24 then crcPass 24 polyA bits else crcPass 16 poly16 bits
        { status := csOk
          writes := (if rel && pass then [(s.hqAddr en, wordBytes (List.replicate 16 0))] else []) ++
            recordOut (bQ b 0x28) [bit pass]
          tallies := []
          used := 0 }

def execTbcrc (inst : Nat) (s : State) : Host.Outcome State Fault Refusal :=
  .next (s.engRow 5 2 inst fun s it b _ => tbcrcRun inst s it b)

/-! ### The encoder -/

/-- Elimination over GF(2): each row is a number whose bit `n` is its right side; for unknown `j` a row that holds it is
found and taken out of the others. -/
def gf2Step (j : Nat) (st : List (Nat × Nat) × List Nat) : List (Nat × Nat) × List Nat :=
  match st.2.find? fun r => bitOf r j with
  | none => st
  | some p =>
    let red (r : Nat) : Nat := if bitOf r j then r ^^^ p else r
    (st.1.map (fun x => (x.1, red x.2)) ++ [(j, p)], (st.2.erase p).map red)

/-- A solution of `n` unknowns; unknowns no row fixes are 0. -/
def gf2Solve (n : Nat) (rows : List Nat) : List Bool :=
  let r := (List.range n).foldl (fun st j => gf2Step j st) ([], rows)
  (List.range n).map fun j => match r.1.find? fun x => x.1 == j with
    | some x => bitOf x.2 n
    | none => false

/-- The parity bits of a code block: those that satisfy every check (R226, TS 38.212 clause 5.3.2). -/
def ldpcParity (p : Ldpc) (c : List Bool) : List Bool :=
  let n := ldpcCols p * p.z - p.k
  gf2Solve n ((List.range (ldpcRows p * p.z)).map fun m =>
    (ldpcRow p m).foldl
      (fun a j => if j < p.k then (if c.getD j false then a ^^^ 2 ^ n else a) else a ^^^ 2 ^ (j - p.k)) 0)

/-- The code blocks of a transport block with their CRCs, fillers as zeros (R226, R246). -/
def ldpcSegments (p : Ldpc) (tb : List Bool) : List (List Bool) :=
  let b := tb ++ (if p.ltb = 24 then crcBits 24 polyA tb else crcBits 16 poly16 tb)
  let len := p.kp - ldpcLcb p
  (List.range p.c).map fun r =>
    let x := (b.drop (r * len)).take len
    let x := if p.c > 1 then x ++ crcBits 24 polyB x else x
    x ++ List.replicate (p.k - p.kp) false

/-- The rate-matched and interleaved bits of a code block (R226 steps 5 and 6). -/
def ldpcSent (p : Ldpc) (rv e qm : Nat) (c : List Bool) : List Bool :=
  let d := ((c ++ ldpcParity p c).drop (2 * p.z)).toArray
  let es := ((ldpcPositions p rv e).map fun k => d.getD k false).toArray
  (List.range e).map fun t => es.getD (ldpcDeint e qm t) false

/-- Scrambled bits. -/
def scramble (cinit : Nat) (x : List Bool) : List Bool := (x.zip (gold cinit x.length)).map fun v => v.1 != v.2

/-! ### The layer grid (R247, R248) -/

def enQm (b : List Byte) : Nat := bF b 0x44 0 4
def enNl (b : List Byte) : Nat := bF b 0x44 4 4
def enRv (b : List Byte) : Nat := bF b 0x44 8 2
def enLayer (b : List Byte) : Nat := bF b 0x44 12 4
def enSym (b : List Byte) : Nat := bF b 0x44 16 4
def enSyms (b : List Byte) : Nat := bF b 0x44 20 4
def enPrb (b : List Byte) : Nat := bF b 0x48 0 9
def enPrbs (b : List Byte) : Nat := bF b 0x48 16 9
/-- RE_MASK of a symbol of the slot. -/
def enMask (b : List Byte) (sym : Nat) : Nat := ofLe ((b.drop (0x60 + 2 * sym)).take 2)

/-- The resource elements written, in order: symbol and subcarrier (R247); `rm` holds the pattern's rows. -/
def enRes (b rm : List Byte) : List (Nat × Nat) :=
  (List.range (enSyms b)).flatMap fun i =>
    let sym := enSym b + i
    ((List.range (12 * enPrbs b)).map (12 * enPrb b + ·)).filterMap fun k =>
      if bitOf (enMask b sym) (k % 12) && !bitOf (rm.getD (512 * sym + k / 8) 0).toNat (k % 8) then some (sym, k) else none

/-- Fields of ENCODE and TURBO_ENC within their ranges (R227, R249). -/
def encodeFieldsOk (b : List Byte) : Bool :=
  bAddr b 0x20 && bAddr b 0x28 && bAddr b 0x30 && bAddr64 b 0x38 && decide (24 ≤ dcA b) && decide (dcA b ≤ 1277992) &&
    bF b 0x40 31 1 == 0 && [2, 4, 6, 8].contains (enQm b) && decide (1 ≤ enNl b) && decide (enNl b ≤ 4) && bF b 0x44 10 2 == 0 &&
    decide (1 ≤ enSyms b) && decide (enSyms b ≤ 14) && bF b 0x44 24 8 == 0 && bF b 0x48 9 7 == 0 &&
    decide (1 ≤ enPrbs b) && decide (enPrbs b ≤ 275) && bF b 0x48 25 7 == 0 && bF b 0x4C 31 1 == 0 && bF b 0x54 15 17 == 0 &&
    (List.range 14).all (fun j => decide (enMask b j < 4096)) && bZero b 0x7C 4

/-- The grid conditions of R249. -/
def encodeGrid (b : List Byte) : Bool :=
  decide (enLayer b + enNl b ≤ 16) && decide (enSym b + enSyms b ≤ 14) && decide (enPrb b + enPrbs b ≤ 275)

/-- Address of a resource element of a layer (R247). -/
def enAddr (b : List Byte) (layer sym k : Nat) : Nat :=
  bQ b 0x28 + (enLayer b + layer) * bW b 0x58 + (sym - enSym b) * bW b 0x5C + 4 * k

/-- The writes of a codeword's symbols, and saturated components (R247, R248). -/
def gridWrites (b : List Byte) (res : List (Nat × Nat)) (cw : List Bool) : List (Nat × List Byte) × Nat :=
  let amp : Int := bF b 0x54 0 15
  let qm := enQm b
  let nl := enNl b
  let a := cw.toArray
  let r := (List.range res.length).flatMap fun i =>
    let re := res.getD i (0, 0)
    (List.range nl).map fun l =>
      let at0 := (nl * i + l) * qm
      let v := (List.range qm).foldl (fun x j => x + bit (a.getD (at0 + j) false) * 2 ^ j) 0
      let x := narrow false (axisLevel (qm / 2) v 0 * amp) 16
      let y := narrow false (axisLevel (qm / 2) v 1 * amp) 16
      ((enAddr b l re.1 re.2, cqBytes x.1 y.1), bit x.2 + bit y.2)
  (r.map (·.1), r.foldl (fun x y => x + y.2) 0)

/-- Ranges that the symbols are written to. -/
def gridRange (b : List Byte) (res : List (Nat × Nat)) : List (Nat × Nat) :=
  res.flatMap fun re => (List.range (enNl b)).map fun l => (enAddr b l re.1 re.2, 4)

/-- The rate-matching pattern, if the block names one (R247). -/
def State.pattern (s : State) (b : List Byte) : Except Nat (List Byte) :=
  if bQ b 0x30 = 0 then .ok []
  else match s.read (bQ b 0x30) 7168 with
    | .ok x => .ok x
    | r => .error (rdStatus r)

/-- An encode command: `chain` gives C and the codeword, or `none` for GEOMETRY; `sat` is the register that tallies. -/
def encodeRun (cls i : Nat) (s : State) (b : List Byte) (chain : Nat → List Bool → Option (Nat × List Bool)) : State × Nat :=
  if !encodeGrid b then (s, 0x10)
  else
    match s.pattern b with
    | .error st => (s, st)
    | .ok rm =>
      let res := enRes b rm
      let g := enNl b * enQm b * res.length
      match chain g (List.replicate (dcA b) false) with
      | none => (s, 0x10)
      | some _ =>
        s.engIo (engPage cls i) [(bQ b 0x20, bitBytes (dcA b))] (gridRange b res ++ recordRange (bQ b 0x38)) fun data =>
          match chain g (bitsIn (dcA b) (data.getD 0 [])) with
          | none => EngOut.only 0x10
          | some (c, cw) =>
            let w := gridWrites b res (scramble (bF b 0x4C 0 31) cw)
            { status := csOk
              writes := w.1 ++ recordOut (bQ b 0x38) [g, c, w.2, res.length]
              tallies := [(Reg.LEE_TALLY_SAT, 0, 32, w.2)]
              used := 0 }

/-- ENCODE (R246 to R249). -/
def execEncode (inst : Nat) (s : State) : Host.Outcome State Fault Refusal :=
  .next (s.engRow 6 1 inst fun s _ b _ =>
    if !(encodeFieldsOk b && decide (1 ≤ dcR b) && decide (dcR b ≤ 1023) && bF b 0x50 22 10 == 0) then (s, csFormat)
    else
      let p := ldpcParams (dcA b) (dcR b) (bF b 0x50 0 22)
      encodeRun 6 inst s b fun g tb =>
        if !ldpcGeom p g (enNl b) (enQm b) then none
        else
          let segs := ldpcSegments p tb
          some (p.c, (List.range p.c).flatMap fun r =>
            ldpcSent p (enRv b) (ldpcE p g (enNl b) (enQm b) r) (enQm b) (segs.getD r [])))

end Sys2Proof.Machine
end

