-- ==== Sys2Proof/Machine/QueueCmds.lean ====
section
/-!
DEFINITION. Sys2Proof/Machine/QueueCmds.lean: the register windows of the fabric and of Tilth: queue control blocks (R259 to R262, R304),
pool records (R307, R308) and handles (R320, R623).
-/
namespace Sys2Proof.Machine

/-! ### Address ranges -/

/-- `n` bytes at `a` wholly within the deep buffer? -/
def inDeep (a n : Nat) : Bool := decide (deepBase ≤ a) && decide (a + n ≤ deepBase + 32 * 0x300000)

/-- `n` bytes at `a` wholly within the mapped HBM windows (R365)? -/
def State.inHbm (s : State) (a n : Nat) : Bool :=
  let L := pcCap - s.intl - s.mir
  let loc := hbmBase + 128 * s.intl + 64 * s.mir
  let y := a + n - 1 - loc
  decide (hbmBase ≤ a) && decide (a + n ≤ loc + 128 * L) &&
    (n == 0 || decide (a + n ≤ loc) || s.reloc == 0 ||
      (decide (y % L < L - s.reloc) && (if a < loc then decide (y / L = 0) else decide ((a - loc) / L = y / L))))

/-! ### TFB_QCMD -/

/-- A QCB's fields within their ranges (R260, R261). -/
def State.qcbOk (s : State) (c : Qcb) : Bool :=
  let n := c.depth * 64
  decide (c.cls ≤ 9) && c.overflow != 3 && c.order != 3 && wfld c.words 0 24 8 == 0 &&
    decide (1 ≤ c.depth) && decide (c.depth ≤ 65536) && wfld c.words 1 27 5 == 0 && wfld c.words 2 20 12 == 0 &&
    wfld c.words 3 28 4 == 0 && wfld c.words 5 16 16 == 0 && c.body % 64 == 0 && c.body != 0 &&
    (inDeep c.body n || s.inHbm c.body n)

/-- Resident queues beside one (R262). -/
def State.residents (s : State) (q : Nat) : Nat :=
  (s.fab.qcbs.filter fun e => e.1 != q && e.2.resident).length

/-- Words 0 to 5 staged for WRITE, ENABLE = 0. -/
def State.qStaged (s : State) : List Word :=
  let r (off : Nat) : Word := s.reg pgFabric off
  [w32 (setBits (r Reg.TFB_QCFG_LO).toNat 18 1 0), r Reg.TFB_QCFG_HI, r Reg.TFB_QNOTE_LO, r Reg.TFB_QNOTE_HI,
   r Reg.TFB_QBODY_LO, r Reg.TFB_QBODY_HI]

/-- Word 7 of a QCB (R260). -/
def State.qWord7 (s : State) (q : Nat) : Word :=
  w32 (s.qCount q + bit (s.qcb q).noteLost * 2 ^ 17 + bit (s.fab.held.any fun h => h.q == q) * 2 ^ 18)

/-- RESULT of TFB_QCMD; the command is over at once, so BUSY reads 0. -/
def State.qResult (s : State) (r : Nat) : State := s.setFld pgFabric Reg.TFB_QCMD 9 3 r

/-- READ: the QCB into the staging registers, NOTE_LOST cleared (R304). -/
def State.qRead (s : State) : State :=
  let q := s.fld pgFabric Reg.TFB_QSEL 0 20
  let c := s.qcb q
  let w (i : Nat) : Word := c.words.getD i 0
  let s := s.setReg pgFabric Reg.TFB_QSTATE (s.qWord7 q)
  let s := ((s.setReg pgFabric Reg.TFB_QCFG_LO (w 0)).setReg pgFabric Reg.TFB_QCFG_HI (w 1)).setReg pgFabric
    Reg.TFB_QNOTE_LO (w 2)
  let s := ((s.setReg pgFabric Reg.TFB_QNOTE_HI (w 3)).setReg pgFabric Reg.TFB_QBODY_LO (w 4)).setReg pgFabric
    Reg.TFB_QBODY_HI (w 5)
  let s := if isSvc q ∨ !c.noteLost then s else s.setQcb q { c with noteLost := false }
  s.qResult 0

/-- WRITE (R261, R262). -/
def State.qWrite (s : State) : State :=
  let q := s.fld pgFabric Reg.TFB_QSEL 0 20
  let c := s.qcb q
  let c' : Qcb := { c with words := s.qStaged }
  if isSvc q then s.qResult 3
  else if c.enabled ∨ s.fab.items.any (fun i => i.q == q) then s.qResult 1
  else if !s.qcbOk c' ∨ (c'.resident ∧ s.residents q ≥ 49152) then s.qResult 2
  else (s.setQcb q c').qResult 0

/-- ENABLE of a QCB set or cleared. -/
def Qcb.setEnable (c : Qcb) (b : Bool) : Qcb :=
  { c with words := c.words.set 0 (w32 (setBits (c.words.getD 0 0).toNat 18 1 (bit b))) }

/-- ENABLE (R261). -/
def State.qEnable (s : State) : State :=
  let q := s.fld pgFabric Reg.TFB_QSEL 0 20
  let c := s.qcb q
  if isSvc q then s.qResult 3
  else if !s.qcbOk c then s.qResult 2
  else (s.setQcb q (c.setEnable true)).qResult 0

/-- DISABLE: holds on the queue end with REFUSED (R261, R283). -/
def State.qDisable (s : State) : State :=
  let q := s.fld pgFabric Reg.TFB_QSEL 0 20
  if isSvc q then s.qResult 3
  else
    let s := s.setQcb q ((s.qcb q).setEnable false)
    (dropHolds (s.fab.held.length) s q).qResult 0

/-- FLUSH (R261). -/
def State.qFlush (s : State) : State :=
  let q := s.fld pgFabric Reg.TFB_QSEL 0 20
  if isSvc q then s.qResult 3
  else if (s.qcb q).enabled then s.qResult 1
  else ((s.fab.items.filter fun i => i.q == q && i.counts).foldl (fun s i => s.shed i shedFlush 0 0) s).qResult 0

/-- A write of TFB_QCMD, CMD as R304 lists it; 0, 6 and 7 do nothing. -/
def State.qCmd (s : State) (cmd : Nat) : State :=
  match cmd with
  | 1 => s.qRead
  | 2 => s.qWrite
  | 3 => s.qEnable
  | 4 => s.qDisable
  | 5 => s.qFlush
  | _ => s

/-- A write of TFB_QCMD by an agent: the PF and Ward only (R261). -/
def State.qCmdBy (s : State) (a : Agent) (k : State → State) : State :=
  s.onPage a pgFabric Reg.TFB_QCMD fun s =>
    if agTrusted a then k s else s.accErr a (pgFabric.addr + Reg.TFB_QCMD) 2

/-- QCMD_READ (R304). -/
def execQcmdRead (by_ : Agent) (s : State) : Host.Outcome State Fault Refusal := .next (s.qCmdBy by_ State.qRead)
/-- QCMD_WRITE (R261, R262). -/
def execQcmdWrite (by_ : Agent) (s : State) : Host.Outcome State Fault Refusal := .next (s.qCmdBy by_ State.qWrite)
/-- QCMD_ENABLE (R261). -/
def execQcmdEnable (by_ : Agent) (s : State) : Host.Outcome State Fault Refusal := .next (s.qCmdBy by_ State.qEnable)
/-- QCMD_DISABLE (R261, R283). -/
def execQcmdDisable (by_ : Agent) (s : State) : Host.Outcome State Fault Refusal := .next (s.qCmdBy by_ State.qDisable)
/-- QCMD_FLUSH (R261). -/
def execQcmdFlush (by_ : Agent) (s : State) : Host.Outcome State Fault Refusal := .next (s.qCmdBy by_ State.qFlush)

/-! ### TLT_PCMD -/

def State.pResult (s : State) (r : Nat) : State := s.setFld pgTilth Reg.TLT_PCMD 9 3 r

/-- Handles of a pool that are BOUND or MIGRATING. -/
def State.boundCount (s : State) (p : Nat) : Nat :=
  ((s.tilth.allocs.filter fun a => hPool a.handle == p).foldl (fun l a => insertNat a.handle.toNat l) []).length

/-- Status words 24 to 31 of a pool record (R307). -/
def State.poolStatus (s : State) (p : Nat) : List Word :=
  let r := s.pool p
  let eng := (s.fab.items.filter fun i =>
    i.phase == .dispatched && i.started && (s.qcb i.q).pool == p && (s.qcb i.q).cls != 0).length
  let clods := (List.range 16).filter fun c => wfld r 0 (16 + c) 1 == 1
  let left (c : Nat) : Nat := (poolClodQuota r * 65536 - s.clodUsed p c) / 65536
  let least := clods.foldl (fun m c => min m (left c)) (poolClodQuota r)
  [BitVec.ofInt 32 (s.credit p 0 / 1024), w32 (s.poolRunning p 0 + eng % 65536 * 65536),
   w32 (s.freeBytes (poolDbBase r) (poolDbBase r + poolDbSize r) / 4096),
   w32 (s.freeBytes (poolHbmBase r) (poolHbmBase r + poolHbmSize r) / 65536),
   w32 least, w32 (s.boundCount p), w32 (lookupD 0 p s.tilth.sheds), 0]

/-- READ: the record and its status into staging. -/
def State.pRead (s : State) : State :=
  let p := s.fld pgTilth Reg.TLT_PSEL 0 10
  let ws := (s.pool p ++ List.replicate 24 0).take 24 ++ s.poolStatus p
  { s with tilth := { s.tilth with staged := ws } }.pResult 0

/-- The fields marked zero, the ranges and the alignments of a record (R307). -/
def poolFieldsOk (r : List Word) : Bool :=
  let share (i : Nat) : Bool :=
    decide (wfld r i 0 13 ≤ 4096) && decide (wfld r i 16 13 ≤ 4096) && wfld r i 13 3 == 0 && wfld r i 29 3 == 0
  let wide (i al : Nat) : Bool := wfld r i 0 al == 0 && wfld r (i + 1) 16 16 == 0
  wfld r 0 8 8 == 0 && wfld r 3 24 8 == 0 && share 5 && share 6 && share 7 && share 8 && decide (wfld r 9 0 13 ≤ 4096) &&
    wfld r 9 13 19 == 0 && decide (poolClodQuota r ≤ 64) && wfld r 11 7 25 == 0 && wide 12 12 && wide 15 16 &&
    wide 18 12 && decide (poolHlog r ≤ 22) && wfld r 20 5 27 == 0 && r.getD 21 0 == 0 && r.getD 22 0 == 0 &&
    r.getD 23 0 == 0

/-- A record with VALID = 0 is checked for its zero fields and alignments only (R308). -/
def poolIdleOk (r : List Word) : Bool :=
  let wide (i al : Nat) : Bool := wfld r i 0 al == 0 && wfld r (i + 1) 16 16 == 0
  let pad (i : Nat) : Bool := wfld r i 13 3 == 0 && wfld r i 29 3 == 0
  wfld r 0 8 8 == 0 && wfld r 3 24 8 == 0 && pad 5 && pad 6 && pad 7 && pad 8 && wfld r 9 13 19 == 0 &&
    wfld r 11 7 25 == 0 && wide 12 12 && wide 15 16 && wide 18 12 && wfld r 20 5 27 == 0 && r.getD 21 0 == 0 &&
    r.getD 22 0 == 0 && r.getD 23 0 == 0

/-- Every part of a list, as lists. -/
def subsets {α : Type} : List α → List (List α)
  | [] => [[]]
  | x :: xs => let r := subsets xs; r ++ r.map (x :: ·)

/-- No group of VALID pools asks for more of a class than its sets hold (R308). -/
def sharesFeasible (rs : List (List Word)) (cls : Nat) : Bool :=
  (subsets rs).all fun g =>
    decide ((g.foldl (fun a r => a + poolShare r cls) 0) ≤
      16 * ((List.range (classSize cls)).filter fun n => g.any fun r => poolHas r cls n).length)

/-- Do two byte ranges meet? -/
def meets (a n b m : Nat) : Bool := decide (a < b + m) && decide (b < a + n)

/-- The regions and the handle table of a record. -/
def poolRegions (r : List Word) : List Nat :=
  [poolDbBase r, poolDbSize r, poolHbmBase r, poolHbmSize r, poolHtab r, poolHlog r]

/-- An enabled aperture entry: its base and size (R489, R512). -/
def State.aperture (s : State) (f j : Nat) : Option (Nat × Nat) :=
  let p : Page := ⟨.fnPage, f⟩
  let o := Reg.HIF_FN_APT + 16 * j
  if f != 0 && s.fld p o 15 1 == 1 then
    some (s.reg64 p (Reg.HIF_FN_APT_LO + 16 * j) % 2 ^ 48, s.fld p o 0 15 * 4096)
  else none

/-- Does an enabled aperture lie inside a range (R489)? -/
def State.apertureIn (s : State) (a n : Nat) : Bool :=
  (List.range 64).any fun f => (List.range 16).any fun j =>
    match s.aperture f j with
    | some (b, m) => decide (a ≤ b) && decide (b + m ≤ a + n)
    | none => false

/-- The result of COMMIT of a record into pool `p` (R308, R489). -/
def State.poolJudge (s : State) (p : Nat) (r : List Word) : Nat :=
  let others := (s.tilth.pools.filter fun e => e.1 != p && poolValid e.2).map (·.2)
  let all := r :: others
  let old := s.pool p
  let quotaRoom := 64 - s.fld pgTilth Reg.TLT_CORE_MAP 8 6
  let dbMoved := poolDbBase old != poolDbBase r || poolDbSize old != poolDbSize r
  let hbmMoved := poolHbmBase old != poolHbmBase r || poolHbmSize old != poolHbmSize r
  let apt := (dbMoved && s.apertureIn (poolDbBase old) (poolDbSize old)) ||
    (hbmMoved && s.apertureIn (poolHbmBase old) (poolHbmSize old))
  if !poolValid r then (if !poolIdleOk r then 1 else if apt then 4 else 0)
  else if !poolFieldsOk r ∨ !inDeep (poolDbBase r) (poolDbSize r) ∨ !s.inHbm (poolHbmBase r) (poolHbmSize r) ∨
      !s.inHbm (poolHtab r) (32 * 2 ^ poolHlog r) then 1
  else if !((List.range 9).all fun cls => sharesFeasible all cls) then 2
  else if others.any fun o => poolOwner o != poolOwner r &&
      (meets (poolDbBase o) (poolDbSize o) (poolDbBase r) (poolDbSize r) ||
        meets (poolHbmBase o) (poolHbmSize o) (poolHbmBase r) (poolHbmSize r)) then 3
  else if !((List.range 16).all fun c => decide
      (((all.filter fun o => wfld o 0 (16 + c) 1 == 1).foldl (fun a o => a + poolClodQuota o) 0) ≤ quotaRoom)) then 2
  else if (poolRegions old != poolRegions r && decide (s.boundCount p ≠ 0)) || apt then 4
  else 0

/-- COMMIT (R308). -/
def State.pCommit (s : State) : State :=
  let p := s.fld pgTilth Reg.TLT_PSEL 0 10
  let r := s.tilth.staged.take 24
  let res := s.poolJudge p r
  if res = 0 then { s with tilth := { s.tilth with pools := insertKey p r s.tilth.pools } }.pResult 0
  else s.pResult res

/-- A write of TLT_PCMD by an agent: only Ward's is taken (R308, R333). -/
def State.pCmdBy (s : State) (a : Agent) (k : State → State) : State :=
  s.onPage a pgTilth Reg.TLT_PCMD fun s =>
    if agWard a then k s else (s.pResult 5).accErr a (pgTilth.addr + Reg.TLT_PCMD) 2

/-- PCMD_READ (R307). -/
def execPcmdRead (by_ : Agent) (s : State) : Host.Outcome State Fault Refusal := .next (s.pCmdBy by_ State.pRead)
/-- PCMD_COMMIT (R308). -/
def execPcmdCommit (by_ : Agent) (s : State) : Host.Outcome State Fault Refusal := .next (s.pCmdBy by_ State.pCommit)

/-! ### TLT_HCMD -/

def State.hResult (s : State) (r : Nat) : State := s.setFld pgTilth Reg.TLT_HCMD 9 3 r

/-- TLT_HADDR and TLT_HREFS show an entry (R623). -/
def State.hShow (s : State) (e : List Word) : State :=
  let s := s.setReg pgTilth Reg.TLT_HADDR_LO (e.getD 2 0)
  let s := s.setReg pgTilth Reg.TLT_HADDR_HI (w32 (wfld e 3 0 24))
  s.setReg pgTilth Reg.TLT_HREFS (w32 (eRefs e + eLeft e * 65536))

/-- The selected handle and its entry, if the writer may name it (R623). -/
def State.hPick (s : State) (a : Agent) : Option (Word × List Word) :=
  let h := s.reg pgTilth Reg.TLT_HSEL
  if !agTrusted a ∨ !s.hNamed h then none else (s.hEntry h).map fun e => (h, e)

/-- READ of the handle window (R623). -/
def State.hRead (s : State) (a : Agent) : State :=
  match s.hPick a with
  | none => s.hResult 5
  | some (_, e) => (s.hShow e).hResult 0

/-- A task that stands for a BIND command, which has none (R320). -/
def noItem : Item :=
  { sn := 0, q := 0, words := List.replicate 16 0, fn := 0, issuer := .notify, kind := .block, phase := .ready
    readyAt := 0, ev := none, taskid := 0, exec := none, tStart := 0, runTc := 0, save := none, wait := none
    inWait := false, heldEv := [], cmdFail := false, ended := none, freed := false, handles := [], bindWait := false
    blocked := false, heldRec := false, rerun := false, fetchEnded := false, started := false, avoid := none }

/-- BIND of the handle window, to the address `place` where it binds (R320, R321, R623); while Tilth does not decide, and
for a declaration out of its ranges, DENIED (log entry 21). -/
def State.hBind (s : State) (a : Agent) (place : Nat) : State :=
  match s.hPick a with
  | none => s.hResult 5
  | some (h, e) =>
    if eState e ≠ 0 then (if eUses e = 0 then (s.hShow e).hResult 0 else s.hResult 2)
    else if !eDecl e then s.hResult 1
    else if eUses e ≠ 0 then s.hResult 2
    else if !s.tilthOn ∨ eSize e = 0 ∨ eHint e = 3 then s.hResult 5
    else
      match s.judge h e none none noItem place with
      | .never => s.hResult 4
      | .noRoom => s.hResult 4
      | .notAllowed => s
      | .at_ x m =>
        let s := s.take h x (eSize e) m (eHint e == 2)
        let e' := eBind (e.set 0 (w32 (setBits (e.getD 0 0).toNat 31 1 0))) x m 1 0 0 0
        let s := s.setEntry h e'
        (((s.count pgTilth Reg.TLT_TALLY_BIND 1).traceHandle 0x20 none h x m).hShow e').hResult 0

/-- RELEASE of the handle window (R320, R623). -/
def State.hRelease (s : State) (a : Agent) : State :=
  match s.hPick a with
  | none => s.hResult 5
  | some (h, e) =>
    if eState e = 0 then
      if !eDecl e then s.hResult 1
      else if eUses e ≠ 0 then s.hResult 2
      else (s.setEntry h (e.set 0 0)).hResult 0
    else if eUses e ≠ 0 then s.hResult 2
    else if eRefs e ≠ 0 then s.hResult 3
    else (s.freeHandle none h e).hResult 0

/-- HCMD_READ (R623). -/
def execHcmdRead (by_ : Agent) (s : State) : Host.Outcome State Fault Refusal :=
  .next (s.onPage by_ pgTilth Reg.TLT_HCMD fun s => s.hRead by_)
/-- HCMD_BIND (R320, R321, R623). -/
def execHcmdBind (by_ : Agent) (place : Nat) (s : State) : Host.Outcome State Fault Refusal :=
  .next (s.onPage by_ pgTilth Reg.TLT_HCMD fun s => s.hBind by_ place)
/-- HCMD_RELEASE (R320, R623). -/
def execHcmdRelease (by_ : Agent) (s : State) : Host.Outcome State Fault Refusal :=
  .next (s.onPage by_ pgTilth Reg.TLT_HCMD fun s => s.hRelease by_)

end Sys2Proof.Machine
end

