-- ==== Sys2Proof/Machine/RegViews.lean ====
section
/-!
DEFINITION. Sys2Proof/Machine/RegViews.lean: what every register reads as (R27, R30, R31): the views of state that is not a register
of its own, and reads of pages and function windows (R492, R505, R521).
-/
namespace Sys2Proof.Machine

/-! ### Registers that show other state -/

/-- GVC_IDENT and GVC_RUN (R106). -/
def coreView (s : State) (k off : Nat) : Option Word :=
  let c := s.core k
  let busy := c.run == .running
  if off = Reg.GVC_IDENT then
    some (w32 (setBits (s.reg (pgCore k) off).toNat 16 9 (k / 17 + k % 17 * 16)))
  else if off = Reg.GVC_RUN then
    let inEv := match s.coreItem k with
      | some it => it.inWait
      | none => false
    some (w32 (bit busy + bit (!busy) * 2 + bit inEv * 4 + bit (busy && !bitOf c.stat.toNat 0) * 8 +
      bit (bitOf c.stat.toNat 1) * 16 + bit c.waiting * 32 + c.suspended.length % 256 * 64))
  else none

/-- A core's image and debug page (R585). -/
def dbgView (s : State) (p : Page) (off : Nat) : Option Word :=
  let c := s.core p.ix
  if off = Reg.GVI_DBG_CTRL then
    some (w32 (s.fld p off 0 1 + bit c.halted * 4 + (if c.halted then c.pc % 65536 else 0) * 16))
  else if off = Reg.GVI_IMEM_DATA then some (s.imgWord p)
  else none

/-- TFB_READY and TFB_OUTSTANDING (R304), and what is measured. -/
def fabricView (s : State) (off : Nat) : Option Word :=
  if 0x080 ≤ off ∧ off < 0x0C0 then
    let n := (off - 0x080) / 4
    some (w32 (min (s.fab.items.filter fun i => i.phase == .ready && s.itemLevel i == n).length 0xFFFFFF))
  else if off = Reg.TFB_OUTSTANDING then
    some (w32 ((s.fab.items.filter fun i => !i.counts).length + s.fab.groups.length * 2 ^ 18))
  else if off = Reg.TFB_TALLY_QCBMISS then some (w32 (s.measured pgFabric off))
  else none

/-- The resident context in a slot of an instance. -/
def State.ctxAt (s : State) (cls i slot : Nat) : Option Ctx :=
  s.ctxs.find? fun c => c.cls == cls && c.inst == i && c.slot == slot

/-- BFE_OCCUPANCY and BFE_CTX_n (R182). -/
def bfeView (s : State) (i off : Nat) : Option Word :=
  if off = Reg.BFE_OCCUPANCY then
    let cs := s.ctxOn 1 i
    some (w32 (cs.length + cs.foldl (fun a c => a + 2 * (bcBank c / 65536)) 0 % 128 * 2 ^ 8))
  else if Reg.BFE_CTX ≤ off ∧ off < Reg.BFE_CTX + 64 then
    match s.ctxAt 1 i ((off - Reg.BFE_CTX) / 4) with
    | some c => some (w32 (c.ctx % 2 ^ 16 + c.fn % 64 * 2 ^ 16 + 2 ^ 22 + bcActive c * 2 ^ 23 + bit (bcPending c) * 2 ^ 24 +
        bit (bcDir c) * 2 ^ 25 + bcBank c / 65536 % 64 * 2 ^ 26))
    | none => some 0
  else none

/-- FDC_OCCUPANCY, FDC_SLICE_MAX and FDC_CH_n (R221). -/
def fdcView (s : State) (i off : Nat) : Option Word :=
  let p := pgFdc i
  if off = Reg.FDC_OCCUPANCY then some (w32 ((s.ctxOn 4 i).length + min (s.measured p off % 2 ^ 10) 1000 * 2 ^ 16))
  else if off = Reg.FDC_SLICE_MAX then some (w32 (s.measured p off % 2 ^ 16))
  else if Reg.FDC_CH ≤ off ∧ off < Reg.FDC_CH + 256 then
    match s.ctxAt 4 i ((off - Reg.FDC_CH) / 4) with
    | some c =>
      let busy := s.fdcJobs.any fun j => j.inst == i && j.fn == c.fn && j.ctx == c.ctx
      some (w32 (c.ctx % 2 ^ 16 + c.fn % 64 * 2 ^ 16 + 2 ^ 22 + bit (fcTx c) * 2 ^ 23 + fcDcb c * 2 ^ 24 +
        bit (bitsOf (c.w 0x54) 0 8 != 0) * 2 ^ 26 + bit busy * 2 ^ 27))
    | none => some 0
  else none

/-- MEM_BK_IDENT, MEM_BK_SPARE and MEM_BK_SCRUB (R393). -/
def bankView (s : State) (p : Page) (kind off : Nat) : Option Word :=
  if off = Reg.MEM_BK_IDENT then some (w32 (kind + p.ix % 128 * 2 ^ 2 + (p.stop.getD 0) % 128 * 2 ^ 9))
  else if off = Reg.MEM_BK_SPARE then some (w32 (spareRows kind % 2 ^ 16 + s.fld p off 16 16 * 2 ^ 16))
  else if off = Reg.MEM_BK_SCRUB then some (s.scrubWord p kind)
  else none

/-- KIND and INDEX of a stop (R335, R360). -/
def stopKind (x : Nat) : Nat × Nat :=
  let at_ (f : Nat → Nat) (n : Nat) : Option Nat := (List.range n).find? fun i => f i == x
  match at_ stopCL 16, at_ stopEG 32, at_ stopHB 16, at_ stopDB 8 with
  | some i, _, _, _ => (0, i)
  | _, some i, _, _ => (1, i)
  | _, _, some i, _ => (2, i)
  | _, _, _, some i => (3, i)
  | _, _, _, _ =>
    match at_ stopLG 8, at_ stopDma 4 with
    | some i, _ => (4, i)
    | _, some i => (5, i)
    | _, _ => if x = stopPcie then (6, 0) else (7, 0)

/-- RNG_STOP_ID (R360); a stop between octants shows the octant before it. -/
def stopIdWord (x : Nat) : Word :=
  let k := stopKind x
  let o := ((List.range 8).filter fun o => decide (octBase o ≤ x)).getLast?.getD 0
  w32 (x + k.1 * 2 ^ 8 + k.2 * 2 ^ 12 + o * 2 ^ 17)

/-- The lane registers that are measured or computed (R424, R436). -/
def laneView (s : State) (p : Page) (off : Nat) : Option Word :=
  if off = Reg.LN_ALIGN then
    some (w32 (setBits (s.reg p off).toNat 16 12
      (Config.alignDwell (s.fld p Reg.LN_CFG 12 2) (s.fld p Reg.LN_CFG 0 4)).toNat))
  else if off = Reg.LN_PRBS_ERR then some (w32 (if s.fld p Reg.LN_TEST 3 3 = 0 then 0 else s.measured p off))
  else if off = Reg.LN_TEST then
    some (w32 (setBits (s.reg p off).toNat 6 1 (if s.fld p Reg.LN_TEST 3 3 = 0 then 0 else s.measured p off % 2)))
  else none

/-- PORT_STATUS: the link is up while the port is READY; a port sleeps while a lane of it sleeps by schedule (R429, R480). -/
def portView (s : State) (p : Page) (off : Nat) : Option Word :=
  if off = Reg.PORT_STATUS then
    let asleep := (s.portLanes p.ix).any fun l => (s.laneSt l).window.isSome && s.fld (pgLane l) Reg.LN_SLEEP 3 1 == 1
    some (w32 (bit (s.ready p) + s.fld p off 1 2 * 2 + bit asleep * 8))
  else if off = Reg.PORT_TALLY_FECCORR ∨ off = Reg.PORT_TALLY_FECUNCORR then some (w32 (s.measured p off))
  else none

/-- A word of a staged list. -/
def stagedWord (l : List Word) (i : Nat) : Option Word := some (l.getD i 0)

/-- Registers that are views of other state, as an agent sees them. -/
def State.special (s : State) (a : Agent) (p : Page) (off : Nat) : Option Word :=
  match p.kind with
  | .coreCtl => coreView s p.ix off
  | .coreDbg => dbgView s p off
  | .fabric => fabricView s off
  | .tilth => if off = Reg.TLT_PDATA then stagedWord s.tilth.staged (s.fld pgTilth Reg.TLT_PWORD 0 5) else none
  | .timeBase =>
    if off = Reg.TB_AIRTIME_LO then some (w32 s.airtime)
    else if off = Reg.TB_AIRTIME_HI then some (w32 (s.airtime / 2 ^ 32))
    else none
  | .bfe => if off = Reg.IMG_DATA then some (s.imgWord p) else bfeView s p.ix off
  | .fdc => if off = Reg.IMG_DATA then some (s.imgWord p) else fdcView s p.ix off
  | .dte | .tfe | .lde | .lee | .pce | .tce | .dmaUnit => if off = Reg.IMG_DATA then some (s.imgWord p) else none
  | .clod => bankView s p 2 off
  | .dbBank => bankView s p 0 off
  | .hbmPc => bankView s p 1 off
  | .memSys => if off = Reg.MEM_RELOC then some s.relocWord else none
  | .stop =>
    if off = Reg.RNG_STOP_ID then some (stopIdWord p.ix)
    else if off = Reg.RNG_CPACE then some (w32 (s.measured p off % 2 ^ 16))
    else none
  | .dmaCh =>
    if off = Reg.DMA_CH_STATUS then some (s.dmaStatusWord p.ix)
    else if off = Reg.DMA_CH_POS then some (s.dmaPosWord p.ix)
    else none
  | .lane => laneView s p off
  | .port => portView s p off
  | .rvLink => if off = Reg.RV_TDATA then stagedWord (s.rv p.ix).staged (s.fld p Reg.RV_TSEL 10 3) else none
  | .framer =>
    if off = Reg.FRM_TDATA then stagedWord (s.framer p.ix).staged (s.fld p Reg.FRM_TSEL 9 4)
    else if off = Reg.IMG_DATA then some (s.imgWord p)
    else none
  | .hif => if off = Reg.HIF_LINK then some (w32 (setBits (s.reg p off).toNat 16 7 s.ward.queue.length)) else none
  | .fnPage => if p.ix = 0 ∧ Reg.HIF_FN_APT_LO ≤ off then some 0 else none
  | .kaolin => s.klnView a off
  | _ => none

/-- The value that hardware holds for a register, before access codes. -/
def State.view (s : State) (a : Agent) (p : Page) (off : Nat) : Word :=
  if off < 0x40 then s.headView p off else (s.special a p off).getD (s.reg p off)

/-! ### Reads of pages -/

/-- The address of the instruction-memory and image windows goes on with each access of their data register (R585, R586). -/
def State.afterRead (s : State) (p : Page) (off : Nat) : State :=
  match p.kind with
  | .coreDbg => if off = Reg.GVI_IMEM_DATA then s.imgNext p else s
  | _ => if p.takesImage ∧ p.kind ≠ .coreCtl ∧ off = Reg.IMG_DATA then s.imgNext p else s

/-- A 32-bit read of a register of a page (R27, R30, R31). -/
def State.pageRead (s : State) (a : Agent) (p : Page) (off : Nat) : State × Word :=
  match rowAt p.kind off with
  | none => (s, 0)
  | some r =>
    let v := (s.view a p off).toNat &&& fieldMask r fun f => f.acc != .wo
    let key := latchKey a (p.addr + off)
    let out := match r.half with
      | .high => match lookup? key s.latch with
        | some l => l.toNat
        | none => v
      | _ => v
    let s := match r.half with
      | .low => { s with latch := insertKey (key + 4) (s.view a p (off + 4)) s.latch }
      | _ => s
    let rc := fieldMask r fun f => f.acc == .rc
    let s := if rc = 0 then s else s.setReg p off (w32 ((s.reg p off).toNat &&& (2 ^ 32 - 1 - rc)))
    (s.afterRead p off, w32 out)

/-- The same where the device's mode leaves the page to read (R521). -/
def State.pageReadBy (s : State) (a : Agent) (p : Page) (off : Nat) : State × Word :=
  if s.mode = modeRest ∧ !agWard a ∧ !p.always then (s, 0) else s.pageRead a p off

/-! ### Reads of function windows -/

/-- HFW_MBX_CTRL.STATE. -/
def MbxState.code : MbxState → Nat
  | .idle => 0 | .queued => 1 | .running => 2 | .done => 3 | .busy => 4

/-- A 32-bit read of a function window (R492). -/
def State.winWord (s : State) (f off : Nat) : Word :=
  let w := s.win f
  if off < 0x200 then
    if off % 8 ≠ 0 then 0
    else
      let n := off / 8
      let r := lookupD FnRing.reset n w.rings
      let held := s.fab.held.any fun h => match h.who with
        | .ring g m => g == f && m == n
        | _ => false
      w32 (r.next % 65536 + bit (held || s.quiet) * 2 ^ 16 + bit r.err * 2 ^ 17)
  else if off = 0x200 then w.doneLo
  else if 0x210 ≤ off ∧ off < 0x230 then w32 (lookupD FnDlv.reset ((off - 0x210) / 4) w.dlv).head
  else if off = 0x400 then w32 (2 * w.mbx.code)
  else if 0x800 ≤ off ∧ off < 0x900 then w.mbxReq.getD ((off - 0x800) / 4) 0
  else if 0x900 ≤ off ∧ off < 0xA00 then w.mbxResp.getD ((off - 0x900) / 4) 0
  else 0

/-! ### REGISTER_READ -/

/-- Where a BAR0 offset leads: a page or a function window, with the offset there (R487, R504). -/
inductive Bar0 where
  | page (p : Page) (off : Nat)
  | window (f off : Nat)
  | nothing
  | outside
deriving DecidableEq, Repr

/-- The decoding of an access: a VF's BAR0 is its window; the PF, DMA and Ward see the pages (R354, R355, R487). -/
def bar0 (a : Agent) (off : Nat) : Bar0 :=
  match a with
  | .fn (f + 1) => if off < 0x10000 then .window (f + 1) off else .outside
  | _ =>
    if 0x100000 ≤ off ∧ off < 0x110000 then .window 0 (off - 0x100000)
    else if off ≥ 0x10000000 then .outside
    else match pageAt off with
      | some p => .page p (off % 0x1000)
      | none => .nothing

/-- The value of an access of `width` bytes, and what reading it changes (R26, R493, R504, R505). -/
def State.regRead (s : State) (a : Agent) (off width : Nat) : State × Word :=
  let narrow := width != 4 || off % 4 != 0
  match bar0 a off with
  | .outside => (s, 0)
  | .window f o => if o ≥ 0x1000 then (s, 0) else if narrow then (s.accErr a off 0, 0) else (s, s.winWord f o)
  | .page p o => if narrow then (s.accErr a off 0, 0) else s.pageReadBy a p o
  | .nothing => if narrow then (s.accErr a off 0, 0) else (s, 0)

/-- REGISTER_READ (R26, R30, R31, R486, R493, R502, R504, R505, R521): a host's read is answered with a completion. -/
def execRegisterRead (by_ : Agent) (off width : Nat) (s : State) : Host.Outcome State Fault Refusal :=
  match by_ with
  | .fn f =>
    if s.linkDown ∨ f ≥ 64 then .next s
    else if !s.hostUp ∨ !s.fnUp f ∨ bar0 by_ off = .outside then .next (s.complete f cplUr [])
    else
      let r := s.regRead by_ off width
      .next (r.1.complete f cplOk (leBytes width r.2.toNat))
  | _ => .next (if s.pins.on then (s.regRead by_ off width).1 else s)

end Sys2Proof.Machine
end

