-- ==== Sys2Proof/Machine/RegCmds.lean ====
section
/-!
DEFINITION. Sys2Proof/Machine/RegCmds.lean: register writes: what each register's own rules say of a write (R31, R261, R308, R366,
R396, R467, R481, R489, R494, R509, R512, R562, R566, R588), the function windows (R492), and the writes that have a row of
their own.
-/
namespace Sys2Proof.Machine

/-- A write that a register's rules reject (R505). -/
def State.rejected (s : State) (a : Agent) (p : Page) (off : Nat) : State := s.accErr a (p.addr + off) 2

/-- A write that is taken under a condition only. -/
def State.only (s : State) (c : Bool) (a : Agent) (p : Page) (off : Nat) (k : State → State) : State :=
  if c then k s else s.rejected a p off

/-- How a load's length check comes out, from how the transition goes (R566, R585). -/
def loadResult : RiseHow → Nat
  | .ready => 0
  | .slow => 1
  | .fails _ _ => 2

/-! ### Image windows and debug pages -/

/-- A write into an image window or a debug page (R566, R585, R586): only Ward's, while the part is DOWN or TENDING. -/
def State.imgWrite (s : State) (a : Agent) (p : Page) (off v : Nat) (aux : Aux) : State :=
  s.only (s.imgOpen a p) a p off fun s =>
    let dataOff := if p.kind = .coreDbg then Reg.GVI_IMEM_DATA else Reg.IMG_DATA
    let cmdOff := if p.kind = .coreDbg then Reg.GVI_IMEM_CMD else Reg.IMG_CMD
    if off = dataOff then s.imgPut p (w32 v)
    else if off = cmdOff then
      if !bitOf v 0 then s
      else
        s.imgCommit p (s.fld p Reg.GVI_LOAD 0 16) (loadImages (memGets (s.core p.ix).imem 0 65536))
          (s.fld p.home Reg.PG_VER 16 16) (loadResult aux.how)
    else if p.kind = .coreDbg ∧ off = Reg.GVI_DBG_CTRL then s.dbgCtrl p.ix v
    else s.plainWrite a p off v false

/-! ### The fabric and Tilth -/

/-- The queue window of the fabric's page: the PF and Ward (R261). -/
def State.fabricWrite (s : State) (a : Agent) (off v : Nat) (pair : Bool) : State :=
  if off < 0x60 then
    s.only (agTrusted a) a pgFabric off fun s =>
      if off = Reg.TFB_QCMD then s.qCmd (v % 8) else s.plainWrite a pgFabric off v pair
  else s.plainWrite a pgFabric off v pair

/-- Tilth's page: Ward alone writes the pool window and the reserves (R308, R333). -/
def State.tilthWrite (s : State) (a : Agent) (off v : Nat) (pair : Bool) (aux : Aux) : State :=
  if off = Reg.TLT_PCMD then
    s.pCmdBy a fun s => match v % 4 with
      | 1 => s.pRead
      | 2 => s.pCommit
      | _ => s
  else if off = Reg.TLT_PSEL ∨ off = Reg.TLT_PWORD ∨ off = Reg.TLT_RSV then
    s.only (agWard a) a pgTilth off fun s => s.plainWrite a pgTilth off v pair
  else if off = Reg.TLT_PDATA then
    s.only (agWard a) a pgTilth off fun s =>
      let i := s.fld pgTilth Reg.TLT_PWORD 0 5
      if i < 24 then
        { s with tilth := { s.tilth with staged := ((s.tilth.staged ++ List.replicate 32 0).take 32).set i (w32 v) } }
      else s
  else if off = Reg.TLT_HCMD then
    match v % 4 with
    | 1 => s.hRead a
    | 2 => s.hBind a aux.place
    | 3 => s.hRelease a
    | _ => s
  else s.plainWrite a pgTilth off v pair

/-! ### Memory, DMA, directory -/

/-- MEM_HBM_MAP (R366, R392). -/
def State.mapWrite (s : State) (a : Agent) (v : Nat) : State :=
  let intl := bitsOf v 0 6 * 0x1000000
  let mir := bitsOf v 8 5 * 0x1000000
  let ok := decide (intl + mir < pcCap) && decide (bitsOf v 16 7 * 0x100000 < pcCap - intl - mir) &&
    (pagesOf .hbmPc).all fun p => s.part p == stDown
  s.only ok a pgMem Reg.MEM_HBM_MAP fun s => s.plainWrite a pgMem Reg.MEM_HBM_MAP v false

/-- DMA_CH_CFG: a line bound to another channel that is not DOWN is not bound again (R396). -/
def State.dmaCfgWrite (s : State) (a : Agent) (ch v : Nat) : State :=
  let taken := bitOf v 6 && (List.range 64).any fun c => c != ch && s.dmaLineEn c && s.dmaLine c == bitsOf v 7 8 &&
    s.part (pgDma c) != stDown
  s.only (!taken) a (pgDma ch) Reg.DMA_CH_CFG fun s => s.plainWrite a (pgDma ch) Reg.DMA_CH_CFG v false

/-- HQD_BASE must lie in the mirrored window (R258). -/
def State.hqdBaseWrite (s : State) (a : Agent) (v : Nat) : State :=
  let base := v % 2 ^ 48 / 64 * 64
  let ok := match s.region base with
    | .hbmMir _ _ => true
    | _ => false
  s.only ok a pgHqd Reg.HQD_BASE_HI fun s => s.plainWrite a pgHqd Reg.HQD_BASE_LO v true

/-! ### Links and time -/

/-- Lane pages (R421 to R436). -/
def State.laneWrite (s : State) (a : Agent) (l off v : Nat) (pair : Bool) (aux : Aux) : State :=
  let p := pgLane l
  if off = Reg.LN_CFG then (s.plainWrite a p off v pair).rxSettle l
  else if off = Reg.LN_SLEEP then s.sleepWrite l v
  else if off = Reg.LN_ALIGN then s.alignWrite l v
  else if off = Reg.LN_RECAL then s.recalWrite l v
  else if off = Reg.LN_EYE_CTRL then s.eyeWrite a l v aux.place
  else if off = Reg.LN_SWEEP_CTRL then s.sweepWrite a l v
  else s.plainWrite a p off v pair

/-- Lane-group pages (R435, R481): while a CPRI buffer is enabled only EN of it changes. -/
def State.groupWrite (s : State) (a : Agent) (o off v : Nat) (pair : Bool) : State :=
  let p := pgLng o
  if off = Reg.LNG_TABLE_ID then s.only (agWard a) a p off fun s => s.plainWrite a p off v pair
  else if off = Reg.LNG_SCHED_CTRL then s.schedWrite o v
  else if Reg.LNG_CPRI ≤ off ∧ off < Reg.LNG_CPRI + 32 then
    let cfg := off / 8 * 8
    let cur := (s.reg p off).toNat
    let same := if off = cfg then bitsOf cur 1 21 == bitsOf v 1 21 else bitsOf cur 0 13 == bitsOf v 0 13
    s.only (s.fld p cfg 0 1 == 0 || same) a p off fun s => s.plainWrite a p off v pair
  else s.plainWrite a p off v pair

/-- Realvin link pages (R475, R484). -/
def State.rvWrite (s : State) (a : Agent) (n off v : Nat) (pair : Bool) : State :=
  if off = Reg.RV_SWAP then (if bitOf v 0 then s.rvSwapReq n else s)
  else if off = Reg.RV_TDATA then s.rvStage n (w32 v)
  else if off = Reg.RV_TCMD then s.rvTcmd n (v % 4)
  else s.plainWrite a (pgRv n) off v pair

/-- The time base's page (R458, R466, R467). -/
def State.timeWrite (s : State) (a : Agent) (off v : Nat) (pair : Bool) : State :=
  if off = Reg.TB_SLEW then s.slewWrite a (w32 v)
  else if off = Reg.TB_STEP_LO then s.stepWrite a (BitVec.ofNat 64 v)
  else if 0x400 ≤ off ∧ off < 0xC00 then
    let g := (off - 0x400) / 32
    if off = genOff g Reg.GEN_CFG then s.genCfgWrite a g (v % 2 ^ 32)
    else s.only (!s.genOn g) a pgTime off fun s => s.plainWrite a pgTime off v pair
  else if 0x100 ≤ off ∧ off < 0x100 + 16 * 20 ∧ off % 16 = 8 then s.treqWrite ((off - 0x100) / 16) (v % 2 ^ 32)
  else s.plainWrite a pgTime off v pair

/-! ### Sediment -/

/-- Does a range lie wholly in the deep buffer, the mapped HBM windows, or the PF's host window? -/
def State.traceRange (s : State) (a n : Nat) : Bool :=
  inDeep a n || s.inHbm a n || (decide (hostBase ≤ a) && decide (a + n ≤ hostBase + 0x20000000000))

/-- SED_RING_r (R588): EN is always writable, the rest while EN is 0; enabling takes a range that a ring may have. -/
def State.sedWrite (s : State) (a : Agent) (off v : Nat) (pair : Bool) : State :=
  if 0x080 ≤ off ∧ off < 0x100 then
    let r := (off - 0x080) / 16
    let cfg := sedOff Reg.SED_RING_CFG r
    let cur := (s.reg pgSed cfg).toNat
    let on := bitOf cur 6
    if off = cfg then
      let new := if on then setBits cur 6 1 (bitsOf v 6 1) else v
      let base := s.reg64 pgSed (sedOff Reg.SED_RING_LO r) % 2 ^ 48
      if !State.writeInRange pgSed off new false ∨ (bitOf v 6 ∧ !s.traceRange base (2 ^ bitsOf new 0 5 * 32)) then
        s.rejected a pgSed off
      else
        let s := s.plainWrite a pgSed off new false
        if on ∧ bitsOf cur 0 6 ≠ bitsOf v 0 6 then s.rejected a pgSed off else s
    else s.only (!on) a pgSed off fun s => s.plainWrite a pgSed off v pair
  else s.plainWrite a pgSed off v pair

/-! ### Function pages -/

/-- Does a range lie inside the deep-buffer or HBM region of one VALID pool of a function (R489)? -/
def State.inPoolOf (s : State) (f a n : Nat) : Bool :=
  s.tilth.pools.any fun e =>
    let r := e.2
    let inside (b m : Nat) : Bool := decide (b ≤ a) && decide (a + n ≤ b + m)
    poolValid r && poolOwner r == f && (inside (poolDbBase r) (poolDbSize r) || inside (poolHbmBase r) (poolHbmSize r))

/-- HIF_FN_RING_n_CFG (R494, R512, R562). Clearing EN sets NEXT and TAIL to 0 and clears ERROR. -/
def State.ringCfgWrite (s : State) (a : Agent) (p : Page) (n v : Nat) : State :=
  let off := ringCfg n
  let on := s.fld p off 25 1 == 1
  if (on ∧ s.fld p off 0 20 ≠ bitsOf v 0 20) ∨ (bitOf v 25 ∧ !s.ready pgFabric) then s.rejected a p off
  else
    let s := s.plainWrite a p off v false
    if on ∧ s.fld p off 25 1 = 0 then
      let w := s.win p.ix
      s.setWin p.ix { w with rings := eraseKey n w.rings }
    else s

/-- HIF_FN_DLV_r (R512): clearing EN resets the ring's tail and PHASE. -/
def State.dlvCfgWrite (s : State) (a : Agent) (p : Page) (r v : Nat) : State :=
  let off := Reg.HIF_FN_DLV + 16 * r
  let on := s.fld p off 16 1 == 1
  let s := s.plainWrite a p off v false
  if on ∧ s.fld p off 16 1 = 0 then
    let w := s.win p.ix
    s.setWin p.ix { w with dlv := insertKey r { lookupD FnDlv.reset r w.dlv with tail := 0, phase := true } w.dlv }
  else s

/-- Aperture registers (R489, R512): the PF and Ward; on the PF's page they discard writes. -/
def State.aptWrite (s : State) (a : Agent) (p : Page) (off v : Nat) (pair : Bool) : State :=
  let j := (off - Reg.HIF_FN_APT_LO) / 16
  let cfg := Reg.HIF_FN_APT + 16 * j
  let base := s.reg64 p (Reg.HIF_FN_APT_LO + 16 * j) % 2 ^ 48
  let size := bitsOf v 0 15
  if p.ix = 0 then s
  else if off = cfg then
    s.only (agTrusted a && (!bitOf v 15 || (decide (1 ≤ size) && decide (size ≤ 16384) && s.inPoolOf p.ix base (size * 4096)))) a p off
      fun s => s.plainWrite a p off v pair
  else s.only (agTrusted a && s.fld p cfg 15 1 == 0) a p off fun s => s.plainWrite a p off v pair

/-- Function pages (R509, R512). -/
def State.fnWrite (s : State) (a : Agent) (p : Page) (off v : Nat) (pair : Bool) : State :=
  if off = Reg.HIF_FN_CTRL then
    s.only (agTrusted a || s.fld p off 0 1 == bitsOf v 0 1) a p off fun s => s.plainWrite a p off v pair
  else if off = Reg.HIF_FN_WIN_LO then s.only (agTrusted a) a p off fun s => s.plainWrite a p off v pair
  else if 0x100 ≤ off ∧ off < 0x500 then
    let n := (off - 0x100) / 16
    if off = ringCfg n then s.ringCfgWrite a p n v
    else s.only (s.fld p (ringCfg n) 25 1 == 0) a p off fun s => s.plainWrite a p off v pair
  else if 0x500 ≤ off ∧ off < 0x600 then
    s.only (!bitOf v 20 || s.ready pgFabric) a p off fun s => s.plainWrite a p off v pair
  else if 0x600 ≤ off ∧ off < 0x680 then
    let r := (off - 0x600) / 16
    if off = Reg.HIF_FN_DLV + 16 * r then s.dlvCfgWrite a p r v
    else s.only (s.fld p (Reg.HIF_FN_DLV + 16 * r) 16 1 == 0) a p off fun s => s.plainWrite a p off v pair
  else if 0x700 ≤ off then s.aptWrite a p off v pair
  else s.plainWrite a p off v pair

/-! ### Any page -/

/-- How a channel that the PF owns reads registers (R355). -/
def dmaRd (ch : Nat) : RegRd := fun s off => s.regRead (.dma ch) off 4

/-- A write to a register by its own rules: `off` is the _LO offset and `v` 64 bits for a pair. -/
def State.regPut (s : State) (a : Agent) (p : Page) (off v : Nat) (pair : Bool) (aux : Aux) : State :=
  if off = Reg.PG_IRQ_STAT ∨ off = Reg.PG_IRQ_EN then s.irqWrite p off v
  else if off = Reg.PG_IRQ_FORCE then s.irqForce p v
  else if off = Reg.PG_OWNER then s.ownerWrite a p v
  else if off < 0x40 then s
  else if p.kind = .coreDbg then s.imgWrite a p off v aux
  else if off ≥ 0xF00 ∧ p.takesImage ∧ p.kind ≠ .coreCtl then s.imgWrite a p off v aux
  else
    match p.kind with
    | .device =>
      if off = Reg.DEV_CMD then s.devCmdBy a (v % 8)
      else if off = Reg.DEV_PAD_RELEASE then s.padRelease a v
      else s.plainWrite a p off v pair
    | .fabric => s.fabricWrite a off v pair
    | .tilth => s.tilthWrite a off v pair aux
    | .probe => if off = Reg.PRB_CTRL then s.probeCtrl a p.ix v else s.plainWrite a p off v pair
    | .memSys => if off = Reg.MEM_HBM_MAP then s.mapWrite a v else s.plainWrite a p off v pair
    | .clod => if off = Reg.MEM_BK_ROW_CMD then s.tendRow p 2 v else s.plainWrite a p off v pair
    | .dbBank => if off = Reg.MEM_BK_ROW_CMD then s.tendRow p 0 v else s.plainWrite a p off v pair
    | .hbmPc => if off = Reg.MEM_BK_ROW_CMD then s.tendRow p 1 v else s.plainWrite a p off v pair
    | .hqd => if off = Reg.HQD_BASE_LO then s.hqdBaseWrite a v else s.plainWrite a p off v pair
    | .dmaCh =>
      if off = Reg.DMA_CH_CFG then s.dmaCfgWrite a p.ix v
      else if off = Reg.DMA_CH_CMD then s.dmaCmd (dmaRd p.ix) p.ix v
      else s.plainWrite a p off v pair
    | .lane => s.laneWrite a p.ix off v pair aux
    | .laneGroup => s.groupWrite a p.ix off v pair
    | .port =>
      if Reg.PORT_EQ ≤ off ∧ off < Reg.PORT_EQ + 32 then
        (s.setCredit p.ix ((off - Reg.PORT_EQ) / 4) 0).plainWrite a p off v pair
      else s.plainWrite a p off v pair
    | .framer =>
      if off = Reg.FRM_TDATA then s.frmStage p.ix (w32 v)
      else if off = Reg.FRM_TCMD then s.frmCmd p.ix (v % 8)
      else s.plainWrite a p off v pair
    | .rvLink => s.rvWrite a p.ix off v pair
    | .timeBase => s.timeWrite a off v pair
    | .sediment => s.sedWrite a off v pair
    | .fnPage => s.fnWrite a p off v pair
    | .kaolin => s.klnWrite a off v pair
    | _ => s.plainWrite a p off v pair

/-- The low half that a write of _HI takes (R31): the one staged, or the register's own; of a WO value, zero. -/
def State.lowHalf (s : State) (a : Agent) (p : Page) (off : Nat) : Nat :=
  match lookup? (latchKey a (p.addr + off)) s.stage with
  | some x => x.toNat
  | none => if p.kind = .timeBase ∧ off = Reg.TB_STEP_LO then 0 else (s.reg p off).toNat

/-- A write of _LO is staged; Kaolin discards one by any user but its holder (R31, R558). -/
def State.stageLow (s : State) (a : Agent) (p : Page) (off v : Nat) : State :=
  let put (s : State) : State := { s with stage := insertKey (latchKey a (p.addr + off)) (w32 v) s.stage }
  if p.kind = .kaolin then s.klnAsHolder a put else put s

/-- A 32-bit write to an existing page (R27, R30, R31, R509, R521, R580). -/
def State.pageWrite (s : State) (a : Agent) (p : Page) (off v : Nat) (aux : Aux) : State :=
  match rowAt p.kind off with
  | none => s
  | some r =>
    if off = Reg.PG_CMD then s.partCmdBy a p (v % 8) aux.how
    else match s.turnedAway a p with
      | some k => s.accErr a (p.addr + off) k
      | none =>
        match r.half with
        | .whole => s.regPut a p off (v % 2 ^ 32) false aux
        | .low => s.stageLow a p off v
        | .high =>
          let lo := s.lowHalf a p (off - 4)
          let s := { s with stage := eraseKey (latchKey a (p.addr + off - 4)) s.stage }
          s.regPut a p (off - 4) (lo + 2 ^ 32 * (v % 2 ^ 32)) true aux

/-! ### Function windows -/

/-- GO of the mailbox (R500): the request is queued, or BUSY where Ward's queue is full. -/
def State.mbxGo (s : State) (f : Nat) : State :=
  let w := s.win f
  if w.mbx = .queued ∨ w.mbx = .running then s
  else if s.ward.queue.length ≥ 64 then s.setWin f { w with mbx := .busy }
  else (s.setWin f { w with mbx := .queued }).setWard { s.ward with queue := s.ward.queue ++ [f] }

/-- A 32-bit write to a function window (R492, R493). -/
def State.winWrite (s : State) (f off v : Nat) : State :=
  let w := s.win f
  if off < 0x200 then (if off % 8 = 0 then s.doorbell f (off / 8) v else s)
  else if off = 0x200 then s.setWin f { w with doneLo := w32 v }
  else if off = 0x204 then s.doneHi f v
  else if 0x210 ≤ off ∧ off < 0x230 then
    let r := (off - 0x210) / 4
    s.setWin f { w with dlv := insertKey r { lookupD FnDlv.reset r w.dlv with head := v % 65536 } w.dlv }
  else if off = 0x400 then (if bitOf v 0 then s.mbxGo f else s)
  else if 0x800 ≤ off ∧ off < 0x900 then s.setWin f { w with mbxReq := w.mbxReq.set ((off - 0x800) / 4) (w32 v) }
  else s

/-! ### BAR0 -/

/-- A write of `width` bytes at a BAR0 offset (R26, R301, R493, R504, R505). -/
def State.regWrite (s : State) (a : Agent) (off width v : Nat) (aux : Aux) : State :=
  let narrow := width != 4 || off % 4 != 0
  match bar0 a off with
  | .outside => s
  | .window f o =>
    if 0x1000 ≤ o then (if o < 0x2000 then s.pushSlot f ((o - 0x1000) / 64) [] false else s)
    else if narrow then s.accErr a off 0
    else s.winWrite f o (v % 2 ^ 32)
  | .page p o => if narrow then s.accErr a off 0 else s.pageWrite a p o (v % 2 ^ 32) aux
  | .nothing => if narrow then s.accErr a off 0 else s.accErr a off 1

/-- REGISTER_WRITE (R26, R27, R31, R355, R486, R504, R505). -/
def execRegisterWrite (by_ : Agent) (off width : Nat) (v : Word) (aux : Aux) (s : State) : Host.Outcome State Fault Refusal :=
  match by_ with
  | .fn f => .next (if s.linkDown ∨ !s.winUp f then s else s.regWrite by_ off width v.toNat aux)
  | _ => .next (if s.pins.on then s.regWrite by_ off width v.toNat aux else s)

/-- A command that writes one register of a page by an agent that may write pages. -/
def wordTo (by_ : Agent) (p : Page) (off v : Nat) (s : State) : State :=
  if agTrusted by_ ∧ s.reaches by_ then s.pageWrite by_ p off v ⟨.ready, 0⟩ else s

/-- GLOBAL_FREEZE (R218). -/
def execGlobalFreeze (by_ : Agent) (inst : Nat) (v : Word) (s : State) : Host.Outcome State Fault Refusal :=
  .next (if inst < classPhys 4 then wordTo by_ (engPage 4 inst) Reg.FDC_DCB_CTRL v.toNat s else s)

/-- PG_IRQ_FORCE (R506). -/
def execPgIrqForce (by_ : Agent) (pg : Nat) (v : Word) (s : State) : Host.Outcome State Fault Refusal :=
  match pageAt pg with
  | some p => .next (wordTo by_ p Reg.PG_IRQ_FORCE v.toNat s)
  | none => .next s

/-- PG_OWNER (R509). -/
def execPgOwner (by_ : Agent) (pg : Nat) (v : Word) (s : State) : Host.Outcome State Fault Refusal :=
  match pageAt pg with
  | some p => .next (wordTo by_ p Reg.PG_OWNER v.toNat s)
  | none => .next s

/-- SED_RING_CFG (R588). -/
def execSedRingCfg (by_ : Agent) (r : Nat) (v : Word) (s : State) : Host.Outcome State Fault Refusal :=
  .next (if r < 8 then wordTo by_ pgSed (sedOff Reg.SED_RING_CFG r) v.toNat s else s)

/-! ### DMA bursts -/

/-- How a channel that the PF owns writes registers (R355). -/
def dmaWr (ch : Nat) : RegWr := fun s off v => s.regWrite (.dma ch) off 4 v.toNat ⟨.ready, 0⟩

/-- DMA_BURST (R398): `rf` and `rfAt` say which read failed where poison and absence meet, `landed` how many bytes landed
before, `host` what host memory holds. -/
def execDmaBurst (ch rf rfAt landed : Nat) (host : List Byte) (s : State) : Host.Outcome State Fault Refusal :=
  .next (if ch < 64 then State.dmaStart (dmaRd ch) (dmaWr ch) s ch rf rfAt landed host else s)

/-- BURST_COMPLETE (R397). -/
def execBurstComplete (ch : Nat) (s : State) : Host.Outcome State Fault Refusal :=
  .next (if ch < 64 then State.dmaFinish State.deliverOut s ch else s)

/-- DMA_SKIP (R406). -/
def execDmaSkip (by_ : Agent) (ch : Nat) (s : State) : Host.Outcome State Fault Refusal :=
  .next (if ch < 64 then s.onPage by_ (pgDma ch) Reg.DMA_CH_CMD fun s => State.dmaSkip (dmaRd ch) s ch else s)

/-! ### The control rings -/

/-- CTRL_RETRANSMIT (R347): a REG_RD that has had no REG_RSP for 2 µs is sent again; its destination discards it if it has
applied its SEQ from that source, and serves it otherwise, for the host as an access of the PF (R355). The last 2,048 SEQs
of a source are known. -/
def execCtrlRetransmit (src agent dst seq off : Nat) (s : State) : Host.Outcome State Fault Refusal :=
  let who := src * 32 + agent
  let k := who * 4096 + seq
  let early : Bool := match lookup? k s.rings.copies with
    | some t => decide (s.airtime < t + 3933)
    | none => false
  if src ≥ 86 ∨ dst ≥ 86 ∨ agent ≥ 32 ∨ seq ≥ 4096 ∨ !s.pins.on ∨ early then .next s
  else
    let done := lookupD [] who s.rings.applied
    let s := s.setRings { s.rings with copies := insertKey k s.airtime s.rings.copies }
    if done.contains seq then .next s
    else
      let s := s.setRings { s.rings with applied := insertKey who ((seq :: done).take 2048) s.rings.applied }
      if src = stopPcie then
        if s.winUp 0 then
          let r := s.regRead (.fn 0) off 4
          .next (r.1.complete 0 cplOk (leBytes 4 r.2.toNat))
        else .next s
      else .next (s.regRead (.dma (16 * ((List.range 4).find? fun u => stopDma u == src).getD 0 + agent)) off 4).1

end Sys2Proof.Machine
end

