-- ==== Sys2Proof/Machine/Mailbox.lean ====
section
/-!
DEFINITION. Sys2Proof/Machine/Mailbox.lean: the mailbox to Ward (R500, R501): its queue, and every command that Ward serves (R501, R540,
R582, R583), with what they do: flash and slots (R549 to R552), loads (R566), the pairs (R569), rings (R574) and OTP.
-/
namespace Sys2Proof.Machine

/-! ### Answers -/

/-- RESULT of a response, and its data from word 2 on. -/
structure MbxAns where
  res : Nat
  data : List Word
deriving DecidableEq, Repr

def ansOk (s : State) (data : List Word) : State × MbxAns := (s, ⟨0, data⟩)
def ansUnknown (s : State) : State × MbxAns := (s, ⟨1, []⟩)
def ansDenied (s : State) : State × MbxAns := (s, ⟨2, []⟩)
def ansInvalid (s : State) : State × MbxAns := (s, ⟨3, []⟩)

/-- The RESULT of a register command that Ward ran: OK, or 0x100 plus the RESULT (R500; log entry 48). -/
def ansReg (s : State) (r : Nat) (data : List Word) : State × MbxAns := (s, ⟨if r = 0 then 0 else 0x100 + r, data⟩)

/-- A request (R500): its function, parameters, and what the manual leaves to the hardware for it. -/
structure MbxReq where
  fn : Nat
  pars : List Word
  aux : Aux
  pass : Bool
deriving DecidableEq, Repr

def MbxReq.par (r : MbxReq) (i : Nat) : Nat := (r.pars.getD i 0).toNat

/-- A command that takes at least `n` parameters; one with fewer is INVALID. -/
def State.needs (s : State) (r : MbxReq) (n : Nat) (k : State → State × MbxAns) : State × MbxAns :=
  if r.pars.length < n then ansInvalid s else k s

/-- A command for the PF only. -/
def State.pfOnly (s : State) (r : MbxReq) (n : Nat) (k : State → State × MbxAns) : State × MbxAns :=
  if r.fn ≠ 0 then ansDenied s else s.needs r n k

/-! ### Queues, handles, pools, registers (R501) -/

/-- The staging registers of the queue window. -/
def qStageRegs : List Nat :=
  [Reg.TFB_QCFG_LO, Reg.TFB_QCFG_HI, Reg.TFB_QNOTE_LO, Reg.TFB_QNOTE_HI, Reg.TFB_QBODY_LO, Reg.TFB_QBODY_HI]

/-- Ward runs a queue command for a queue that the requester owns. -/
def State.mbxQueue (s : State) (r : MbxReq) (n : Nat) (k : State → State × MbxAns) : State × MbxAns :=
  s.needs r n fun s =>
    let q := r.par 0
    if q ≥ 2 ^ 20 then ansInvalid s
    else if (s.qcb q).owner ≠ r.fn then ansDenied s
    else k (s.setReg pgFabric Reg.TFB_QSEL (w32 q))

/-- The answer after a queue command. -/
def qAns (s : State) (data : List Word) : State × MbxAns := ansReg s (s.fld pgFabric Reg.TFB_QCMD 9 3) data

def State.mbxQcbRead (s : State) (r : MbxReq) : State × MbxAns :=
  s.mbxQueue r 1 fun s => let s := s.qRead; qAns s (qStageRegs.map (s.reg pgFabric))

def State.mbxQcbWrite (s : State) (r : MbxReq) : State × MbxAns :=
  s.mbxQueue r 7 fun s =>
    let ws := (r.pars.drop 1).take 6
    let c : Qcb := ⟨ws, false⟩
    let pool := s.pool c.pool
    if c.owner ≠ r.fn ∨ poolOwner pool ≠ r.fn ∨ !poolValid pool then ansDenied s
    else
      let s := (List.range 6).foldl (fun s i => s.setReg pgFabric (qStageRegs.getD i 0) (ws.getD i 0)) s
      qAns s.qWrite []

/-- Ward runs a handle command for a handle whose pool the requester owns; `none` where Tilth does not choose the place. -/
def State.mbxHandle (s : State) (r : MbxReq) (k : State → State) (shows : Bool) : Option (State × MbxAns) :=
  if r.pars.length < 1 then some (ansInvalid s)
  else
    let h := r.pars.getD 0 0
    let pool := s.pool (hPool h)
    if !poolValid pool ∨ poolOwner pool ≠ r.fn then some (ansDenied s)
    else
      let s := k ((s.setReg pgTilth Reg.TLT_HSEL h).hResult 7)
      let res := s.fld pgTilth Reg.TLT_HCMD 9 3
      if res = 7 then none
      else some (ansReg s res (if shows then [Reg.TLT_HADDR_LO, Reg.TLT_HADDR_HI, Reg.TLT_HREFS].map (s.reg pgTilth) else []))

/-- The page of a BAR0 offset, where the requester owns it. -/
def State.ownPage (s : State) (r : MbxReq) (k : State → Page → State × MbxAns) : State × MbxAns :=
  if r.par 0 % 4 ≠ 0 then ansInvalid s
  else match pageAt (r.par 0) with
    | some p => if s.owner p = r.fn then k s p else ansDenied s
    | none => ansDenied s

def State.mbxRegRead (s : State) (r : MbxReq) : State × MbxAns :=
  s.needs r 1 fun s => s.ownPage r fun s p =>
    let x := s.pageRead (.fn r.fn) p (r.par 0 % 0x1000)
    ansOk x.1 [x.2]

def State.mbxRegWrite (s : State) (r : MbxReq) : State × MbxAns :=
  s.needs r 2 fun s => s.ownPage r fun s p => ansOk (s.pageWrite (.fn r.fn) p (r.par 0 % 0x1000) (r.par 1) r.aux) []

def State.mbxPoolWrite (s : State) (r : MbxReq) : State × MbxAns :=
  s.pfOnly r 25 fun s =>
    if r.par 0 ≥ 1024 then ansInvalid s
    else
      let s := s.setReg pgTilth Reg.TLT_PSEL (w32 (r.par 0))
      let ws := (r.pars.drop 1).take 24 ++ (s.tilth.staged ++ List.replicate 32 0).drop 24
      let s := ({ s with tilth := { s.tilth with staged := ws.take 32 } }).pCommit
      ansReg s (s.fld pgTilth Reg.TLT_PCMD 9 3) []

def State.mbxPoolRead (s : State) (r : MbxReq) : State × MbxAns :=
  s.needs r 1 fun s =>
    if r.par 0 ≥ 1024 then ansInvalid s
    else if r.fn ≠ 0 ∧ poolOwner (s.pool (r.par 0)) ≠ r.fn then ansDenied s
    else
      let s := (s.setReg pgTilth Reg.TLT_PSEL (w32 (r.par 0))).pRead
      ansReg s (s.fld pgTilth Reg.TLT_PCMD 9 3) s.tilth.staged

/-! ### Power and temperature (R540) -/

def State.mbxPower (s : State) : State × MbxAns :=
  let oct (off : Nat) : List Word := (List.range 8).map fun o => s.reg (pgOct o) off
  ansOk s ([s.reg pgDevice Reg.DEV_MODE] ++ oct Reg.PWR_OCT_STATE ++ oct Reg.PWR_OCT_CURR ++ [s.reg pgPower Reg.PWR_INPUT])

def State.mbxThermal (s : State) : State × MbxAns :=
  ansOk s ([s.reg pgTherm Reg.THM_TJ] ++ ((List.range 8).map fun o => s.reg pgTherm (Reg.THM_OCT + 4 * o)) ++
    ((List.range 4).map fun o => s.reg pgTherm (Reg.THM_HBM + 4 * o)) ++ [s.reg pgTherm Reg.THM_CTRL])

/-! ### Boot and flash (R549 to R552, R582) -/

def State.bootSlot (s : State) : Nat := s.fld pgWard Reg.WRD_BOOT 0 1
def State.inRecovery (s : State) : Bool := s.mode == modeBoot && s.fld pgWard Reg.WRD_BOOT 2 2 == 2

/-- The version of the Ward firmware in a slot; where a slot holds no image, a free value. -/
def State.slotVersion (s : State) (slot : Nat) : State × Word :=
  match s.slotImages slot with
  | (a, _) :: _ => (s, w32 (s.imgVersion a))
  | [] => let x := s.fresh 32; (x.2, x.1)

/-- BOOT_STATUS: WRD_BOOT, the versions of slots A and B, the rollback counters of types 0 to 7. -/
def State.mbxBootStatus (s : State) : State × MbxAns :=
  let a := s.slotVersion 0
  let b := a.1.slotVersion 1
  ansOk b.1 ([s.reg pgWard Reg.WRD_BOOT, a.2, b.2] ++ (List.range 8).map fun t => w32 (s.rollback t))

/-- BOOT_COMMIT: the booted slot is marked committed. -/
def State.mbxBootCommit (s : State) (r : MbxReq) : State × MbxAns :=
  s.pfOnly r 0 fun s =>
    match s.bootRec with
    | none => ansInvalid s
    | some (_, b) =>
      ansOk ((s.setBootFlags (setBits (b.getD 2 0) (1 + s.bootSlot) 1 1)).setFld pgWard Reg.WRD_BOOT 1 1 1) []

/-- Bytes programmed into flash: a sector whose first byte is written is erased first; programming clears bits. -/
def State.flashProgram (s : State) (a : Nat) (bs : List Byte) : State :=
  let starts := ((List.range bs.length).map (a + ·)).filter (· % 0x10000 == 0)
  let s := starts.foldl (fun s x => s.flashErase x 0x10000) s
  s.flashWrite a (List.zipWith (fun (x y : Byte) => x &&& y) (s.flashBytes a bs.length) bs)

/-- FLASH_WRITE. -/
def State.mbxFlashWrite (s : State) (r : MbxReq) : State × MbxAns :=
  s.pfOnly r 3 fun s =>
    let bs := wordBytes (r.pars.drop 2)
    let slot := r.par 0
    match s.bootRec with
    | none => ansInvalid s
    | some (_, b) =>
      if slot ≥ 2 ∨ bs.length > 240 ∨ r.par 1 + bs.length > brSize b then ansInvalid s
      else if slot = s.bootSlot ∧ !s.inRecovery then ansDenied s
      else ansOk (s.flashProgram (brBase b slot + r.par 1) bs) []

/-- SLOT_ACTIVATE: with every image of the inactive slot verified, it is preferred, uncommitted, with TRIES 3 (R552). -/
def State.mbxSlotActivate (s : State) (r : MbxReq) : State × MbxAns :=
  s.pfOnly r 0 fun s =>
    let other := 1 - s.bootSlot
    let is := s.slotImages other
    match s.bootRec with
    | none => ansInvalid s
    | some (_, b) =>
      if is.isEmpty ∨ !(is.all fun i => s.imageOk i.1 i.2) ∨ (is.head?.any fun i => s.imgType i.1 != 0) then ansInvalid s
      else ansOk (s.setBootFlags (setBits (setBits (setBits (b.getD 2 0) 0 1 other) (1 + other) 1 0) 4 4 3)) []

/-- PART_LOAD (R565, R566, R571): the part by the class and instance of its page. -/
def State.mbxPartLoad (s : State) (r : MbxReq) : State × MbxAns :=
  s.pfOnly r 3 fun s =>
    match pageOf (r.par 0) (r.par 1) with
    | some p =>
      if p.kind = .coreDbg ∨ !p.takesImage ∨ !s.rwlOpen p ∨ r.par 2 ≥ 2 then ansInvalid s
      else match s.wardLoad (r.par 2) p with
        | (s, true) => ansOk s []
        | (s, false) => ansInvalid s
    | none => ansInvalid s

/-- WARD_UPDATE (R569): the standby pair takes the preferred slot's firmware, becomes active, and the other pair follows. -/
def State.mbxWardUpdate (s : State) (r : MbxReq) : State × MbxAns :=
  s.pfOnly r 0 fun s =>
    match s.bootRec with
    | none => ansInvalid s
    | some (_, b) =>
      match (if s.fld pgWard Reg.WRD_PAIRS 1 2 = 3 then none else s.wardImage (brPreferred b)) with
      | none => ansInvalid s
      | some a =>
        let s := (s.setReg pgWard Reg.WRD_PAIRS (w32 (1 - s.fld pgWard Reg.WRD_PAIRS 0 1 + 4))).setWard { s.ward with fwKey := s.imgKey a }
        let s := s.setFld pgWard Reg.WRD_BOOT 16 16 (s.imgVersion a)
        ansOk (s.setFld pgWard Reg.PG_VER 16 16 (s.imgVersion a)) []

/-- The committed slot: the booted one where it is committed, else the other where that is. -/
def committedSlot (b : List Nat) (booted : Nat) : Option Nat :=
  if brCommitted b booted then some booted else if brCommitted b (1 - booted) then some (1 - booted) else none

/-- ROLLBACK_ADVANCE. -/
def State.mbxRollback (s : State) (r : MbxReq) : State × MbxAns :=
  s.pfOnly r 2 fun s =>
    let ty := r.par 0
    let n := r.par 1
    match s.bootRec.bind fun b => committedSlot b.2 s.bootSlot with
    | none => ansInvalid s
    | some slot =>
      let is := (s.slotImages slot).filter fun i => s.imgType i.1 == ty
      if ty ≥ 8 ∨ n > 128 ∨ n < s.rollback ty ∨ is.isEmpty ∨ (is.any fun i => decide (s.imgRollback i.1 < n)) then ansInvalid s
      else ansOk (s.otpSet (otpRollback ty) (leBytes 16 (2 ^ n - 1))) []

/-! ### The fault log, rings, OTP -/

/-- The four words of a record (R582). -/
def faultWords (x : FaultRec) : List Word :=
  let free (i : Nat) : Word := Config.faultWord i x.page x.reason x.contained
  [w32 x.at_, w32 (setBits (free 1).toNat 0 8 (x.at_ / 2 ^ 32)), free 2, free 3]

/-- FAULT_LOG_READ: up to 15 records from an index on; a VF sees its own parts' only. -/
def State.mbxFaultLog (s : State) (r : MbxReq) : State × MbxAns :=
  s.needs r 1 fun s =>
    let mine := s.faultLog.filter fun x => r.fn == 0 || ((pageAt x.page).any fun p => s.owner p == r.fn)
    ansOk s (((mine.drop (r.par 0)).take 15).flatMap faultWords)

/-- RING_RETURN (R574): the pattern tests over the failed segment pass or not. -/
def State.mbxRingReturn (s : State) (r : MbxReq) : State × MbxAns :=
  s.pfOnly r 2 fun s =>
    let ring := r.par 0
    let seg := Reg.RNG_FAIL_SEG + 4 * ring
    if ring ≥ 12 ∨ !s.ringFailed ring ∨ s.fld pgRing seg 0 7 ≠ r.par 1 ∨ !r.pass then ansInvalid s
    else ansOk ((s.setFld pgRing Reg.RNG_STATE ring 1 0).setReg pgRing seg 0) []

/-- OTP bytes are programmed and read back: where the read-back differs, some of the bits (R583). -/
def State.otpProgram (s : State) (a : Nat) (bs : List Byte) (pass : Bool) : State × MbxAns :=
  if pass then ansOk (s.otpSet a bs) []
  else
    let x := s.fresh (8 * bs.length)
    let some_ := List.zipWith (fun (b m : Byte) => b &&& m) bs (leBytes bs.length x.1.toNat)
    (x.2.otpSet a some_, ⟨3, [1]⟩)

/-- OWNER_ENROL: an owner slot that is not VALID takes a seed (R555). -/
def State.mbxEnrol (s : State) (r : MbxReq) : State × MbxAns :=
  s.pfOnly r 5 fun s =>
    let slot := r.par 0
    if slot ≥ 4 ∨ s.otpNum (otpOwner slot + 16) 1 ≠ 0 then ansInvalid s
    else s.otpProgram (otpOwner slot) (wordBytes ((r.pars.drop 1).take 4) ++ [1]) true

/-- May a key slot be revoked: not the running firmware's, and another unrevoked slot still holds a hash? -/
def State.mayRevoke (s : State) (n : Nat) : Bool :=
  let gone := s.otpNum otpRevoked 1
  s.ward.fwKey != n && (List.range 4).any fun k => k != n && !bitOf gone k && s.otpNum (otpKeySlot k) 48 != 0

/-- OTP_WRITE (R583). -/
def State.mbxOtpWrite (s : State) (r : MbxReq) : State × MbxAns :=
  s.pfOnly r 1 fun s =>
    let code := r.par 0
    let isOpen := !bitOf (s.otpNum otpClosed 1) 0
    let empty (a n : Nat) : Bool := isOpen && s.otpNum a n == 0
    let words (n : Nat) : List Byte := wordBytes ((r.pars.drop 1).take n)
    if 1 ≤ code ∧ code ≤ 3 then
      if r.pars.length ≥ 13 ∧ empty (otpKeySlot code) 48 then s.otpProgram (otpKeySlot code) (words 12) r.pass else ansInvalid s
    else if code = 0x10 then
      let n := r.par 1 % 4
      if r.pars.length ≥ 2 ∧ s.mayRevoke n then s.otpProgram otpRevoked [BitVec.ofNat 8 (2 ^ n)] r.pass else ansInvalid s
    else if code = 0x20 then
      if r.pars.length ≥ 2 ∧ empty otpBoardId 4 then s.otpProgram otpBoardId (words 1) r.pass else ansInvalid s
    else if code = 0x21 then
      if r.pars.length ≥ 2 ∧ empty otpSubsys 4 then s.otpProgram otpSubsys (words 1) r.pass else ansInvalid s
    else if code = 0x30 then s.otpProgram otpClosed [1] r.pass
    else ansInvalid s

/-! ### Service -/

/-- Commands that recovery serves (R553), and SAFE (R580). -/
def State.mbxServes (s : State) (cmd : Nat) : Bool :=
  if s.inRecovery then [0x200, 0x202, 0x207].contains cmd
  else if s.mode = modeSafe then [0x200, 0x208, 0x020, 0x207].contains cmd
  else true

/-- The codes of R501, R540 and R582. -/
def mbxCodes : List Nat :=
  [0x001, 0x002, 0x003, 0x004, 0x005, 0x010, 0x011, 0x012, 0x020, 0x021, 0x030, 0x031, 0x100, 0x101, 0x200, 0x201, 0x202,
   0x203, 0x204, 0x205, 0x206, 0x207, 0x208, 0x209, 0x20A, 0x20B]

/-- What a command does and answers; `none` where the choice made for it is not possible. -/
def State.mbxCmd (s : State) (cmd : Nat) (r : MbxReq) : Option (State × MbxAns) :=
  if !mbxCodes.contains cmd then some (ansUnknown s)
  else if !s.mbxServes cmd then some (ansDenied s)
  else match cmd with
    | 0x001 => some (s.mbxQcbRead r)
    | 0x002 => some (s.mbxQcbWrite r)
    | 0x003 => some (s.mbxQueue r 1 fun s => qAns s.qEnable [])
    | 0x004 => some (s.mbxQueue r 1 fun s => qAns s.qDisable [])
    | 0x005 => some (s.mbxQueue r 1 fun s => qAns s.qFlush [])
    | 0x010 => s.mbxHandle r (fun s => s.hBind .ward r.aux.place) true
    | 0x011 => s.mbxHandle r (fun s => s.hRelease .ward) false
    | 0x012 => s.mbxHandle r (fun s => s.hRead .ward) true
    | 0x020 => some (s.mbxRegRead r)
    | 0x021 => some (s.mbxRegWrite r)
    | 0x030 => some (s.mbxPoolWrite r)
    | 0x031 => some (s.mbxPoolRead r)
    | 0x100 => some s.mbxPower
    | 0x101 => some s.mbxThermal
    | 0x200 => some s.mbxBootStatus
    | 0x201 => some (s.mbxBootCommit r)
    | 0x202 => some (s.mbxFlashWrite r)
    | 0x203 => some (s.mbxSlotActivate r)
    | 0x204 => some (s.mbxPartLoad r)
    | 0x205 => some (s.mbxWardUpdate r)
    | 0x206 => some (s.mbxRollback r)
    | 0x207 => some (s.pfOnly r 0 fun s => ansOk s [])
    | 0x208 => some (s.mbxFaultLog r)
    | 0x209 => some (s.mbxRingReturn r)
    | 0x20A => some (s.mbxEnrol r)
    | _ => some (s.mbxOtpWrite r)

/-- Does Ward serve the mailbox now: it runs, as firmware or as the ROM's recovery, and the device is not in REST (R521)? -/
def State.mbxOpen (s : State) : Bool :=
  s.pins.on && !s.ward.stopped && s.wardUp && !(s.rest.any fun r => r.done)

/-- The CMD of the request at the head of the queue. -/
def State.mbxHead (s : State) : Option Nat := s.ward.queue.head?.map fun f => ((s.win f).mbxReq.getD 0 0).toNat % 65536

/-- The response is written, the state is DONE, and the vector is raised (R500). -/
def State.mbxReply (s : State) (f : Nat) (req : Word) (a : MbxAns) : State :=
  let w := s.win f
  let head := setBits (req.toNat) 16 8 a.data.length
  let out := ([w32 head, w32 a.res] ++ a.data).take 64
  (s.setWin f { w with mbx := .done, mbxResp := out ++ w.mbxResp.drop out.length }).raiseVec f
    (s.fld ⟨.fnPage, f⟩ Reg.HIF_FN_MBX 0 11)

/-- Ward takes the request at the head of the queue, runs it and answers (R500). -/
def State.mbxServe (s : State) (aux : Aux) (pass : Bool) : State :=
  match s.ward.queue with
  | [] => s
  | f :: rest =>
    let w := s.win f
    let w0 := w.mbxReq.getD 0 0
    let n := w0.toNat / 65536 % 256
    let cmd := w0.toNat % 65536
    let s1 := s.setWard { s.ward with queue := rest }
    let got := if n > 62 then some (ansInvalid s1) else s1.mbxCmd cmd ⟨f, (w.mbxReq.drop 2).take n, aux, pass⟩
    match got with
    | none => s
    | some (s2, a) =>
      let s3 := s2.mbxReply f w0 a
      if cmd = 0x207 ∧ a.res = 0 then s3.deviceReset else s3

/-- A mailbox command: Ward serves it when it stands at the head of the queue. -/
def mbxRow (code : Nat) (aux : Aux) (pass : Bool) (s : State) : Host.Outcome State Fault Refusal :=
  .next (if s.mbxOpen ∧ s.mbxHead = some code then s.mbxServe aux pass else s)

/-- No choice is left to the hardware. -/
def noAux : Aux := ⟨.ready, 0⟩

/-- MBX_GO (R500). -/
def execMbxGo (f : Nat) (s : State) : Host.Outcome State Fault Refusal := .next (if s.winUp f then s.mbxGo f else s)
/-- MBX_SERVE (R500): the request at the head, whatever it asks for. -/
def execMbxServe (aux : Aux) (pass : Bool) (s : State) : Host.Outcome State Fault Refusal :=
  .next (if s.mbxOpen then s.mbxServe aux pass else s)
/-- QCB_READ (R501). -/
def execQcbRead (s : State) : Host.Outcome State Fault Refusal := mbxRow 0x001 noAux true s
/-- QCB_WRITE (R501). -/
def execQcbWrite (s : State) : Host.Outcome State Fault Refusal := mbxRow 0x002 noAux true s
/-- QUEUE_ENABLE (R501). -/
def execQueueEnable (s : State) : Host.Outcome State Fault Refusal := mbxRow 0x003 noAux true s
/-- QUEUE_DISABLE (R501). -/
def execQueueDisable (s : State) : Host.Outcome State Fault Refusal := mbxRow 0x004 noAux true s
/-- QUEUE_FLUSH (R501). -/
def execQueueFlush (s : State) : Host.Outcome State Fault Refusal := mbxRow 0x005 noAux true s
/-- HANDLE_BIND (R501, R623), at an address that Tilth chooses. -/
def execHandleBind (place : Nat) (s : State) : Host.Outcome State Fault Refusal := mbxRow 0x010 ⟨.ready, place⟩ true s
/-- HANDLE_RELEASE (R501, R623). -/
def execHandleRelease (s : State) : Host.Outcome State Fault Refusal := mbxRow 0x011 noAux true s
/-- HANDLE_READ (R501, R623). -/
def execHandleRead (s : State) : Host.Outcome State Fault Refusal := mbxRow 0x012 noAux true s
/-- REG_READ (R501). -/
def execRegRead (s : State) : Host.Outcome State Fault Refusal := mbxRow 0x020 noAux true s
/-- REG_WRITE (R501, R509). -/
def execRegWrite (aux : Aux) (s : State) : Host.Outcome State Fault Refusal := mbxRow 0x021 aux true s
/-- POOL_WRITE (R308, R501). -/
def execPoolWrite (s : State) : Host.Outcome State Fault Refusal := mbxRow 0x030 noAux true s
/-- POOL_READ (R307, R501). -/
def execPoolRead (s : State) : Host.Outcome State Fault Refusal := mbxRow 0x031 noAux true s
/-- POWER_READ (R540). -/
def execPowerRead (s : State) : Host.Outcome State Fault Refusal := mbxRow 0x100 noAux true s
/-- THERMAL_READ (R540). -/
def execThermalRead (s : State) : Host.Outcome State Fault Refusal := mbxRow 0x101 noAux true s
/-- BOOT_STATUS (R582). -/
def execBootStatus (s : State) : Host.Outcome State Fault Refusal := mbxRow 0x200 noAux true s
/-- BOOT_COMMIT (R552, R582). -/
def execBootCommit (s : State) : Host.Outcome State Fault Refusal := mbxRow 0x201 noAux true s
/-- FLASH_WRITE (R582). -/
def execFlashWrite (s : State) : Host.Outcome State Fault Refusal := mbxRow 0x202 noAux true s
/-- SLOT_ACTIVATE (R552, R582). -/
def execSlotActivate (s : State) : Host.Outcome State Fault Refusal := mbxRow 0x203 noAux true s
/-- PART_LOAD (R571, R582). -/
def execPartLoad (s : State) : Host.Outcome State Fault Refusal := mbxRow 0x204 noAux true s
/-- WARD_UPDATE (R569). -/
def execWardUpdate (s : State) : Host.Outcome State Fault Refusal := mbxRow 0x205 noAux true s
/-- ROLLBACK_ADVANCE (R582). -/
def execRollbackAdvance (s : State) : Host.Outcome State Fault Refusal := mbxRow 0x206 noAux true s
/-- DEVICE_RESET (R545, R546, R582): by the mailbox, or by Ward itself after SAFE. -/
def execDeviceReset (byWard : Bool) (s : State) : Host.Outcome State Fault Refusal :=
  if byWard then .next (if s.pins.on ∧ s.mode = modeSafe ∧ !s.ward.stopped then s.deviceReset else s)
  else mbxRow 0x207 noAux true s
/-- FAULT_LOG_READ (R582). -/
def execFaultLogRead (s : State) : Host.Outcome State Fault Refusal := mbxRow 0x208 noAux true s
/-- RING_RETURN (R574): `pass` tells how the pattern tests end. -/
def execRingReturn (pass : Bool) (s : State) : Host.Outcome State Fault Refusal := mbxRow 0x209 noAux pass s
/-- OWNER_ENROL (R555, R582). -/
def execOwnerEnrol (s : State) : Host.Outcome State Fault Refusal := mbxRow 0x20A noAux true s
/-- OTP_WRITE (R583): `pass` tells whether the read-back equals the value. -/
def execOtpWrite (pass : Bool) (s : State) : Host.Outcome State Fault Refusal := mbxRow 0x20B noAux pass s

end Sys2Proof.Machine
end

