-- ==== Sys2Proof/Machine/Polar.lean ====
section
/-!
DEFINITION. Sys2Proof/Machine/Polar.lean: the polar codec's commands (R250 to R252), after TS 38.212 clauses 5.2.1, 5.3.1, 5.4.1,
6.3.1, 7.1 and 7.3.
-/
namespace Sys2Proof.Machine

/-! ### Code construction -/

/-- Parameters of one polar code: K, E, N, n_PC, how many PC bits go by row weight, I_IL, interleaving after rate matching. -/
structure Polar where
  k : Nat
  e : Nat
  n : Nat
  npc : Nat
  nwm : Nat
  il : Bool
  bil : Bool
deriving DecidableEq, Repr

/-- ⌈log2 x⌉ for x at least 1. -/
def clog2 (x : Nat) : Nat := bitLen 32 (x - 1)

/-- N for K information and E coded bits (clause 5.3.1). -/
def polarN (k e nmax : Nat) : Nat :=
  let l := clog2 e
  let n1 := if 8 * e ≤ 9 * 2 ^ (l - 1) ∧ 16 * k < 9 * e then l - 1 else l
  2 ^ max (min (min n1 (clog2 (8 * k))) nmax) 5

/-- The sub-block interleaver's pattern (clause 5.4.1.1). -/
def polarPi : List Nat :=
  [0, 1, 2, 4, 3, 5, 6, 7, 8, 16, 9, 17, 10, 18, 11, 19, 12, 20, 13, 21, 14, 22, 15, 23, 24, 25, 26, 28, 27, 29, 30, 31]

/-- J(n). -/
def polarJ (p : Polar) (i : Nat) : Nat := polarPi.getD (32 * i / p.n) 0 * (p.n / 32) + i % (p.n / 32)

/-- Is the code punctured rather than shortened when E < N? -/
def polarPunct (p : Polar) : Bool := decide (16 * p.k ≤ 7 * p.e)

/-- Positions frozen by rate matching (clause 5.4.1.1). -/
def polarTmp (p : Polar) (i : Nat) : Bool :=
  if p.e ≥ p.n then false
  else if polarPunct p then
    let lim := if 4 * p.e ≥ 3 * p.n then (3 * p.n - 2 * p.e + 3) / 4 else (9 * p.n - 4 * p.e + 15) / 16
    decide (i < lim) || (List.range (p.n - p.e)).any fun m => polarJ p m == i
  else ((List.range (p.n - p.e)).map (p.e + ·)).any fun m => polarJ p m == i

/-- Information positions, most reliable last: the K + n_PC most reliable of those not frozen. -/
def polarInfo (p : Polar) : List Nat :=
  let cand := ((List.range 1024).map fun i => (Config.polarSeq i).val).filter fun q => decide (q < p.n) && !polarTmp p q
  cand.drop (cand.length - (p.k + p.npc))

/-- Number of ones of a number below 2^11: the row weight of G is 2 to this power. -/
def ones (x : Nat) : Nat := ((List.range 11).filter fun i => bitOf x i).length

/-- The PC positions (clause 5.3.1.2). -/
def polarPc (p : Polar) : List Nat :=
  let q := polarInfo p
  let low := q.take (p.npc - p.nwm)
  let rest := q.drop p.npc
  let w := rest.foldl (fun a x => min a (ones x)) 11
  -- among the smallest row weights the most reliable
  low ++ ((rest.filter fun x => ones x == w).reverse.take p.nwm)

/-- The input interleaver (clause 5.3.1.1): position k of c′ takes bit π(k). -/
def polarPerm (k : Nat) : List Nat :=
  ((List.range 164).map Config.polarIl).filterMap fun m => if m ≥ 164 - k then some (m - (164 - k)) else none

/-- The five-bit register of the PC bits, y0 first, turned one place. -/
def pcTurn (y : List Bool) : List Bool := y.drop 1 ++ y.take 1

/-- u from the bits of c′ (clause 5.3.1.2). -/
def polarU (p : Polar) (c : List Bool) : List Bool :=
  let info := polarInfo p
  let pc := polarPc p
  ((List.range p.n).foldl
    (fun (st : List Bool × List Bool × List Bool) i =>
      let y := pcTurn st.2.1
      if info.contains i then
        if pc.contains i then (st.1 ++ [y.getD 0 false], y, st.2.2)
        else
          let b := st.2.2.headD false
          (st.1 ++ [b], y.set 0 (y.getD 0 false != b), st.2.2.drop 1)
      else (st.1 ++ [false], y, st.2.2))
    ([], List.replicate 5 false, c)).1

/-- d = u G_N, with fuel for the halvings. -/
def polarMul : Nat → List Bool → List Bool
  | 0, u => u
  | n + 1, u =>
    let h := u.length / 2
    let a := u.take h
    let b := u.drop h
    polarMul n ((a.zip b).map fun x => x.1 != x.2) ++ polarMul n b

/-- Positions of d that the E sent bits come from, before the last interleaving (clause 5.4.1.2). -/
def polarSel (p : Polar) : List Nat :=
  (List.range p.e).map fun k =>
    polarJ p (if p.e ≥ p.n then k % p.n else if polarPunct p then k + p.n - p.e else k)

/-- Rows of the triangular interleaver, with fuel. -/
def triT : Nat → Nat → Nat → Nat
  | 0, t, _ => t
  | f + 1, t, e => if t * (t + 1) / 2 ≥ e then t else triT f (t + 1) e

/-- The triangular interleaver: index taken by each sent bit (clause 5.4.1.3). -/
def triPerm (e : Nat) : List Nat :=
  let t := triT 256 1 e
  (List.range t).flatMap fun col =>
    (List.range (t - col)).filterMap fun row =>
      let ix := row * t - row * (row - 1) / 2 + col
      if ix < e then some ix else none

/-- Positions of d in the order sent. -/
def polarOrder (p : Polar) : List Nat :=
  let s := (polarSel p).toArray
  if p.bil then (triPerm p.e).map fun i => s.getD i 0 else s.toList

/-- The coded bits of a string of K bits. -/
def polarEncode (p : Polar) (c : List Bool) : List Bool :=
  let c' := if p.il then (polarPerm p.k).map fun i => c.getD i false else c
  let d := (polarMul 11 (polarU p c')).toArray
  (polarOrder p).map fun i => d.getD i false

/-! ### Successive cancellation list decoding (R252) -/

/-- f: sign and minimum. -/
def polarF (a b : Int) : Int :=
  let m : Int := min a.natAbs b.natAbs
  if (decide (a < 0)) != (decide (b < 0)) then -m else m

/-- g: add or subtract, saturated to 10 bits. -/
def polarG (u : Bool) (a b : Int) : Int := (satTo 511 (if u then b - a else b + a)).1

/-- The LLR of bit `i` given the bits before it, on `m` levels; `us` are the decisions so far. -/
def polarLlr : Nat → List Int → List Bool → Int
  | 0, ls, _ => ls.headD 0
  | m + 1, ls, us =>
    let h := 2 ^ m
    let a := ls.take h
    let b := ls.drop h
    if us.length < h then polarLlr m ((a.zip b).map fun x => polarF x.1 x.2) us
    else
      let w := polarMul m (us.take h)
      polarLlr m ((List.range h).map fun i => polarG (w.getD i false) (a.getD i 0) (b.getD i 0)) (us.drop h)

/-- A path: decisions, metric, the PC register. -/
structure PPath where
  us : List Bool
  metric : Nat
  y : List Bool
deriving DecidableEq, Repr

/-- A path extended by a decision. -/
def PPath.ext (q : PPath) (l : Int) (u : Bool) (y : List Bool) : PPath :=
  { us := q.us ++ [u], metric := q.metric + (if u == decide (l < 0) ∨ l = 0 then 0 else l.natAbs), y := y }

/-- A path put into a list by metric, behind those of equal metric. -/
def PPath.ins (q : PPath) : List PPath → List PPath
  | [] => [q]
  | x :: xs => if q.metric < x.metric then q :: x :: xs else x :: q.ins xs

/-- The `n` paths with the smallest metrics, ties to the earlier, in their order. -/
def keepBest (n : Nat) (qs : List PPath) : List PPath :=
  if qs.length ≤ n then qs
  else
    let best := (qs.foldl (fun a q => q.ins a) []).take n
    let worst := best.foldl (fun m q => max m q.metric) 0
    let below := (qs.filter fun q => decide (q.metric < worst)).length
    (qs.foldl
      (fun (st : List PPath × Nat) q =>
        if q.metric < worst then (st.1 ++ [q], st.2)
        else if q.metric = worst ∧ st.2 > 0 then (st.1 ++ [q], st.2 - 1) else st)
      ([], n - below)).1

/-- All paths after the last bit, in list order. -/
def polarPaths (p : Polar) (list : Nat) (ls : List Int) : List PPath :=
  let info := polarInfo p
  let pc := polarPc p
  let m := clog2 p.n
  (List.range p.n).foldl
    (fun qs i =>
      keepBest list (qs.flatMap fun q =>
        let l := polarLlr m ls q.us
        let y := pcTurn q.y
        if !info.contains i then [q.ext l false y]
        else if pc.contains i then [q.ext l (y.getD 0 false) y]
        else [q.ext l false y, q.ext l true (y.set 0 (!(y.getD 0 false)))]))
    [⟨[], 0, List.replicate 5 false⟩]

/-- Information bits of a path: the bits of c. -/
def polarBits (p : Polar) (us : List Bool) : List Bool :=
  let info := polarInfo p
  let pc := polarPc p
  ((List.range p.n).filter fun i => info.contains i && !pc.contains i).map fun i => us.getD i false

/-- The LLRs of the positions of d from those received; repeats add, what was not sent is 0, and what shortening fixed is a
certain 0 (log entry 34). -/
def polarDematch (p : Polar) (llrs : List Int) : List Int :=
  let start : Array Int := ((List.range p.n).map fun i =>
    if !(p.e ≥ p.n) && !polarPunct p && polarTmp p i then 511 else 0).toArray
  (((polarOrder p).zip llrs).foldl
    (fun (a : Array Int) x => a.setIfInBounds x.1 (satTo 511 (arrAt a x.1 + x.2)).1) start).toList

/-- Decodes one segment: the K bits output and whether their CRC passed. -/
def polarDecode (p : Polar) (list crc poly : Nat) (llrs : List Int) : List Bool × Bool :=
  let qs := (polarPaths p list (polarDematch p llrs)).foldl (fun a q => q.ins a) []
  let cand := qs.map fun q => polarBits p q.us
  match cand.find? (crcPass crc poly) with
  | some c => (c, true)
  | none => (cand.headD [], false)

/-! ### Commands -/

def pcType (b : List Byte) : Nat := bF b 0x38 0 2
def pcA (b : List Byte) : Nat := bF b 0x38 8 11
def pcE (b : List Byte) : Nat := bF b 0x3C 0 14
def pcCount (b : List Byte) : Nat := bF b 0x40 0 9

/-- Fields of a PCE command within their ranges (R250, R251). -/
def pceOk (b : List Byte) (enc : Bool) : Bool :=
  bAddr b 0x20 && bAddr b 0x28 && bAddr b 0x30 && (!enc || (bZero b 0x30 8 && bF b 0x38 2 2 == 0)) &&
    (if enc then decide (pcType b ≤ 1) else pcType b == 2) && bF b 0x38 4 4 == 0 && decide (1 ≤ pcA b) &&
    decide (pcA b ≤ 1706) && bF b 0x38 19 13 == 0 && decide (1 ≤ pcE b) && bF b 0x3C 14 18 == 0 && decide (1 ≤ pcCount b) &&
    decide (pcCount b ≤ 256) && bF b 0x40 9 7 == 0 && bZero b 0x4C 52

/-- CRC length and polynomial of a UCI payload of A bits. -/
def uciCrc (a : Nat) : Nat × Nat := if a < 20 then (6, poly6) else (11, poly11)

/-- Segments of a UCI payload (TS 38.212 clause 6.3.1.2.1). -/
def uciSegs (a e : Nat) : Nat := if (a ≥ 360 ∧ e ≥ 1088) ∨ a ≥ 1013 then 2 else 1

/-- The polar code of one UCI segment. -/
def uciPolar (a e : Nat) : Polar :=
  let c := uciSegs a e
  let k := (a + c - 1) / c + (uciCrc a).1
  let e := e / c
  let pc := 18 ≤ k ∧ k ≤ 25
  { k := k, e := e, n := polarN k e 10, npc := if pc then 3 else 0, nwm := if pc ∧ e - k + 3 > 192 then 1 else 0
    il := false, bil := true }

/-- The polar code of DCI and BCH. -/
def dlPolar (a e : Nat) : Polar :=
  { k := a + 24, e := e, n := polarN (a + 24) e 9, npc := 0, nwm := 0, il := true, bil := false }

/-- Do A and E fit the clause of the TYPE (R251; log entry 35)? -/
def pceGeom (b : List Byte) : Bool :=
  let a := pcA b
  let e := pcE b
  if pcType b = 0 then decide (12 ≤ a) && decide (a ≤ 140) && decide (a + 24 ≤ e) && decide (e ≤ 8192)
  else if pcType b = 1 then a == 32 && e == 864
  else
    let p := uciPolar a e
    decide (12 ≤ a) && decide (p.k + p.npc ≤ p.e) && decide (p.e ≤ 8192) && decide (p.k + p.npc ≤ p.n)

/-- One codeword encoded (R250). -/
def pceEncodeOne (b : List Byte) (payload : List Bool) : List Bool :=
  let p := dlPolar (pcA b) (pcE b)
  if pcType b = 0 then
    let crc := crcBits 24 polyC (List.replicate 24 true ++ payload)
    let rnti := bF b 0x40 16 16
    let crc := (List.range 24).map fun i => crc.getD i false != (decide (i ≥ 8) && bitOf rnti (23 - i))
    polarEncode p (payload ++ crc)
  else polarEncode p (payload ++ crcBits 24 polyC payload)

/-- PCE_ENCODE (R251). -/
def pceEncodeRun (i : Nat) (s : State) (b : List Byte) : State × Nat :=
  if !pceOk b true then (s, csFormat)
  else if !pceGeom b then (s, 0x10)
  else
    let ks := List.range (pcCount b)
    let inAt (k : Nat) : Nat := bQ b 0x20 + k * bW b 0x44
    let outAt (k : Nat) : Nat := bQ b 0x28 + k * bW b 0x48
    s.engIo (engPage 7 i) (ks.map fun k => (inAt k, bitBytes (pcA b))) (ks.map fun k => (outAt k, bitBytes (pcE b))) fun data =>
      { status := csOk
        writes := ks.map fun k => (outAt k, bitsOut (pceEncodeOne b (bitsIn (pcA b) (data.getD k []))))
        tallies := []
        used := 0 }

def execPceEncode (inst : Nat) (s : State) : Host.Outcome State Fault Refusal :=
  .next (s.engRow 7 1 inst fun s _ b _ => pceEncodeRun inst s b)

/-- One codeword decoded: its payload, and its status word (R252). -/
def pceDecodeOne (b : List Byte) (llrs : List Int) : List Bool × Nat :=
  let a := pcA b
  let p := uciPolar a (pcE b)
  let crc := uciCrc a
  let list := 2 ^ bF b 0x38 2 2
  if uciSegs a (pcE b) = 1 then
    let r := polarDecode p list crc.1 crc.2 llrs
    (r.1.take a, bit r.2)
  else
    let r0 := polarDecode p list crc.1 crc.2 (llrs.take p.e)
    let r1 := polarDecode p list crc.1 crc.2 ((llrs.drop p.e).take p.e)
    let h := p.k - crc.1
    -- an odd payload has one zero put in front (TS 38.212 clause 5.2.1)
    ((r0.1.take h ++ r1.1.take h).drop (2 * h - a), bit (r0.2 && r1.2) + 2 * bit r0.2 + 4 * bit r1.2)

/-- PCE_DECODE (R251, R252). -/
def pceDecodeRun (i : Nat) (s : State) (b : List Byte) : State × Nat :=
  if !pceOk b false then (s, csFormat)
  else if !pceGeom b then (s, 0x10)
  else
    let ks := List.range (pcCount b)
    let inAt (k : Nat) : Nat := bQ b 0x20 + k * bW b 0x44
    let outAt (k : Nat) : Nat := bQ b 0x28 + k * bW b 0x48
    let outs := (ks.map fun k => (outAt k, bitBytes (pcA b))) ++ [(bQ b 0x30, 4 * pcCount b)]
    s.engIo (engPage 7 i) (ks.map fun k => (inAt k, pcE b)) outs fun data =>
      let r := ks.map fun k => pceDecodeOne b ((data.getD k []).map llrIn)
      let fails := (r.filter fun x => x.2 % 2 == 0).length
      { status := csOk
        writes := (ks.map fun k => (outAt k, bitsOut (r.getD k ([], 0)).1)) ++
          [(bQ b 0x30, r.flatMap fun x => leBytes 4 x.2)]
        tallies := [(Reg.PCE_TALLY_CRCFAIL, 0, 32, fails)]
        used := 0 }

def execPceDecode (inst : Nat) (s : State) : Host.Outcome State Fault Refusal :=
  .next (s.engRow 7 2 inst fun s _ b _ => pceDecodeRun inst s b)

end Sys2Proof.Machine
end

