-- ==== Sys2Proof/Machine/Turbo.lean ====
section
/-!
DEFINITION. Sys2Proof/Machine/Turbo.lean: the turbo codec's commands (R253 to R255), after TS 36.212 clause 5.1.
-/
namespace Sys2Proof.Machine

/-! ### Parameters (R253) -/

/-- The 188 block sizes of clause 5.1.3 (log entry 32). -/
def turboSizes : List Nat :=
  ((List.range 60).map fun i => 40 + 8 * i) ++ ((List.range 32).map fun i => 528 + 16 * i) ++
    ((List.range 32).map fun i => 1056 + 32 * i) ++ (List.range 64).map fun i => 2112 + 64 * i

/-- Parameters of an LTE transport block: bits with the CRC, code blocks, the two sizes and how many have the smaller,
fillers. -/
structure Turbo where
  b : Nat
  c : Nat
  kPlus : Nat
  kMinus : Nat
  cMinus : Nat
  f : Nat
deriving DecidableEq, Repr

/-- Segmentation of clause 5.1.2 with Z = 6,144. -/
def turboParams (a : Nat) : Turbo :=
  let b := a + 24
  let c := if b ≤ 6144 then 1 else (b + 6119) / 6120
  let bp := if c = 1 then b else b + 24 * c
  let kp := (turboSizes.find? fun k => decide (c * k ≥ bp)).getD 6144
  if c = 1 then ⟨b, c, kp, 0, 0, kp - bp⟩
  else
    let km := (turboSizes.filter fun k => decide (k < kp)).getLastD 0
    let cm := (c * kp - bp) / (kp - km)
    ⟨b, c, kp, km, cm, (c - cm) * kp + cm * km - bp⟩

/-- Size of code block `r`: the smaller ones come first. -/
def turboK (p : Turbo) (r : Nat) : Nat := if r < p.cMinus then p.kMinus else p.kPlus

/-- Fillers of code block `r`. -/
def turboF (p : Turbo) (r : Nat) : Nat := if r = 0 then p.f else 0

/-- R, K_Π and K_w (clause 5.1.4.1). -/
def turboR (k : Nat) : Nat := (k + 35) / 32
def turboKpi (k : Nat) : Nat := 32 * turboR k
def turboNcb (p : Turbo) (nir r : Nat) : Nat :=
  let kw := 3 * turboKpi (turboK p r)
  if nir = 0 then kw else min (nir / p.c) kw

/-- E of code block `r` (clause 5.1.4.1.2). -/
def turboE (p : Turbo) (g nl qm r : Nat) : Nat :=
  let m := g / (nl * qm)
  nl * qm * (if r + m % p.c < p.c then m / p.c else (m + p.c - 1) / p.c)
def turboStart (p : Turbo) (g nl qm r : Nat) : Nat := (List.range r).foldl (fun a i => a + turboE p g nl qm i) 0

/-- k0 (clause 5.1.4.1.2). -/
def turboK0 (k ncb rv : Nat) : Nat := turboR k * (2 * ((ncb + 8 * turboR k - 1) / (8 * turboR k)) * rv + 2)

/-- The column permutation of the sub-block interleavers (clause 5.1.4.1.1). -/
def turboCols : List Nat :=
  [0, 16, 8, 24, 4, 20, 12, 28, 2, 18, 10, 26, 6, 22, 14, 30, 1, 17, 9, 25, 5, 21, 13, 29, 3, 19, 11, 27, 7, 23, 15, 31]

/-- What position `w` of the circular buffer carries: stream 0 to 2 and its index, `none` for a dummy. -/
def turboAt (k w : Nat) : Option (Nat × Nat) :=
  let R := turboR k
  let kp := 32 * R
  let nd := kp - (k + 4)
  let sub (i : Nat) : Nat := 32 * (i % R) + turboCols.getD (i / R) 0
  let y := if w < kp then (0, sub w)
    else if (w - kp) % 2 = 0 then (1, sub ((w - kp) / 2))
    else (2, (turboCols.getD ((w - kp) / 2 / R) 0 + 32 * ((w - kp) / 2 % R) + 1) % kp)
  if y.2 < nd then none else some (y.1, y.2 - nd)

/-- Is a position of the circular buffer skipped: a dummy, or a filler of streams 0 and 1? -/
def turboSkip (p : Turbo) (r : Nat) (w : Nat) : Bool :=
  match turboAt (turboK p r) w with
  | none => true
  | some (st, i) => st != 2 && decide (i < turboF p r)

/-- Circular positions of the `e` bits sent. -/
def turboPositions (p : Turbo) (nir rv r e : Nat) : List Nat :=
  let k := turboK p r
  positions (turboNcb p nir r) (turboSkip p r) (2 * e + 12 * turboKpi k) e (turboK0 k (turboNcb p nir r) rv)

/-- The conditions of R227 as they apply to a turbo block, and C ≤ 64 (R254). -/
def turboGeom (p : Turbo) (g nl qm : Nat) : Bool :=
  g % (nl * qm) == 0 && (List.range p.c).all (fun r => turboE p g nl qm r != 0) && decide (p.c ≤ 64)

/-! ### The constituent code (clause 5.1.3) -/

/-- One step of the encoder: state (the three delays, newest first as bit 0), input; next state and parity. -/
def rscStep (st : Nat) (u : Bool) : Nat × Bool :=
  let d1 := bitOf st 0
  let d2 := bitOf st 1
  let d3 := bitOf st 2
  let a := u != (d2 != d3)
  (bit a + 2 * bit d1 + 4 * bit d2, (a != d1) != d3)

/-- The input that ends the trellis: what the feedback gives. -/
def rscTail (st : Nat) : Bool := bitOf st 1 != bitOf st 2

/-- Parity of a block, then three tail steps: parities, tail inputs, tail parities. -/
def rscRun (us : List Bool) : List Bool × List Bool × List Bool :=
  let r := us.foldl (fun (a : Nat × List Bool) u => let n := rscStep a.1 u; (n.1, a.2 ++ [n.2])) (0, [])
  let t := (List.range 3).foldl
    (fun (a : Nat × List Bool × List Bool) _ =>
      let u := rscTail a.1
      let n := rscStep a.1 u
      (n.1, a.2.1 ++ [u], a.2.2 ++ [n.2])) (r.1, [], [])
  (r.2, t.2.1, t.2.2)

/-- The QPP interleaver: c′_i = c_{π(i)} (clause 5.1.3.2.3). -/
def qppIx (k i : Nat) : Nat := let f := Config.qpp k; (f.1 * i + f.2 * i * i) % k

/-- The three output streams of K + 4 bits (clause 5.1.3.2.2). -/
def turboStreams (c : List Bool) : List (List Bool) :=
  let k := c.length
  let ca := c.toArray
  let r1 := rscRun c
  let r2 := rscRun ((List.range k).map fun i => ca.getD (qppIx k i) false)
  let x := fun i => r1.2.1.getD i false
  let z := fun i => r1.2.2.getD i false
  let x' := fun i => r2.2.1.getD i false
  let z' := fun i => r2.2.2.getD i false
  [c ++ [x 0, z 1, x' 0, z' 1], r1.1 ++ [z 0, x 2, z' 0, x' 2], r2.1 ++ [x 1, z 2, x' 1, z' 2]]

/-! ### The decoder -/

/-- A state metric in 12 bits. -/
def met12 (x : Int) : Int := if x > 2047 then 2047 else if x < -2048 then -2048 else x

/-- Branch metric: minus the LLR of each 1 (log entry 36). -/
def branch (u p : Bool) (ls lp : Int) : Int := (if u then -ls else 0) - (if p then lp else 0)

/-- One step of metrics, forward or backward, each less the metric of state 0. -/
def normMet (m : List Int) : List Int := let z := m.getD 0 0; m.map fun x => met12 (x - z)

def fwdStep (a : List Int) (ls lp : Int) : List Int :=
  normMet ((List.range 8).map fun t =>
    ((List.range 16).filterMap fun j =>
      let n := rscStep (j / 2) (j % 2 == 1)
      if n.1 = t then some (a.getD (j / 2) 0 + branch (j % 2 == 1) n.2 ls lp) else none).foldl max (-4096))

def bwdStep (b : List Int) (ls lp : Int) : List Int :=
  normMet ((List.range 8).map fun s =>
    ((List.range 2).map fun u =>
      let n := rscStep s (u == 1)
      b.getD n.1 0 + branch (u == 1) n.2 ls lp).foldl max (-4096))

/-- Metrics before the first step: state 0 certain. -/
def met0 : List Int := 0 :: List.replicate 7 (-2048)

/-- One max-log-MAP pass: a posteriori values from systematic-plus-a-priori and parity values; the last three of each are
the tail. -/
def mapPass (ls lp : List Int) : List Int :=
  let n := ls.length
  let ps := ls.zip lp
  let fwd := (ps.foldl (fun (a : List (List Int) × List Int) x => (a.1 ++ [a.2], fwdStep a.2 x.1 x.2)) ([], met0)).1
  let bwd := (ps.reverse.foldl (fun (a : List (List Int) × List Int) x => (a.2 :: a.1, bwdStep a.2 x.1 x.2)) ([], met0)).1
  (List.range (n - 3)).map fun i =>
    let a := fwd.getD i []
    let b := bwd.getD i []
    let best (u : Bool) : Int := ((List.range 8).map fun s =>
      let nx := rscStep s u
      a.getD s 0 + branch u nx.2 (ls.getD i 0) (lp.getD i 0) + b.getD nx.1 0).foldl max (-16384)
    best false - best true

/-- Extrinsic values: what the pass adds, scaled by 3 ÷ 4 and saturated to ±127 (R253). -/
def extrinsic (app ls : List Int) : List Int :=
  (List.range app.length).map fun i => (satTo 127 (rnd false (3 * (app.getD i 0 - ls.getD i 0)) 2)).1

/-- One iteration: the a priori values of the first pass, and the hard decisions and next a priori values. -/
def turboIter (k : Nat) (sys p1 p2 t1 tp1 t2 tp2 la : List Int) : List Bool × List Int :=
  let add (x y : List Int) : List Int := (x.zip y).map fun v => v.1 + v.2
  let l1 := add sys la
  let e1 := extrinsic (mapPass (l1 ++ t1) (p1 ++ tp1)) l1
  let ix := (List.range k).map (qppIx k)
  let e1a := e1.toArray
  let sa := sys.toArray
  let l2 := ix.map fun i => arrAt sa i + arrAt e1a i
  let app2 := mapPass (l2 ++ t2) (p2 ++ tp2)
  let e2 := extrinsic app2 l2
  let back (v : List Int) : List Int :=
    ((ix.zip v).foldl (fun (a : Array Int) x => a.setIfInBounds x.1 x.2) (List.replicate k 0).toArray).toList
  ((back app2).map fun x => decide (x < 0), back e2)

/-- Iterations until the code-block CRC passes (ET_MODE 2) or MAX_ITER. -/
def turboGo (check : List Bool → Bool) (et : Nat) (step : List Int → List Bool × List Int) :
    Nat → Nat → List Bool → List Int → List Bool × Nat
  | 0, done, bits, _ => (bits, done)
  | n + 1, done, _, la =>
    let r := step la
    if et = 2 ∧ check r.1 then (r.1, done + 1) else turboGo check et step n (done + 1) r.1 r.2

/-- The code-block check: CRC24B when C > 1, else CRC24A, over the block without its fillers (R254). -/
def turboCheck (p : Turbo) (r : Nat) (bits : List Bool) : Bool :=
  crcPass 24 (if p.c > 1 then polyB else polyA) (bits.drop (turboF p r))

/-- Decodes the soft values of a code block in circular positions: hard decisions, check, iterations. -/
def turboDecode (p : Turbo) (et maxIter r : Nat) (soft : List Int) : List Bool × Bool × Nat :=
  let k := turboK p r
  let sa := soft.toArray
  -- stream values by index; null positions 0, fillers a certain 0
  let vals := (List.range soft.length).foldl
    (fun (v : List (Array Int)) w => match turboAt k w with
      | some (st, i) => v.set st ((v.getD st #[]).setIfInBounds i (arrAt sa w))
      | none => v)
    (List.replicate 3 (List.replicate (k + 4) (0 : Int)).toArray)
  let s (st i : Nat) : Int := if st = 0 ∧ i < turboF p r then 127
    else if st = 1 ∧ i < turboF p r then 0 else arrAt (vals.getD st #[]) i
  let row (st : Nat) : List Int := (List.range k).map (s st)
  let step := turboIter k (row 0) (row 1) (row 2)
    [s 0 k, s 2 k, s 1 (k + 1)] [s 1 k, s 0 (k + 1), s 2 (k + 1)]
    [s 0 (k + 2), s 2 (k + 2), s 1 (k + 3)] [s 1 (k + 2), s 0 (k + 3), s 2 (k + 3)]
  let g := turboGo (turboCheck p r) et step maxIter 0 [] (List.replicate k 0)
  (g.1, turboCheck p r g.1, g.2)

/-! ### TURBO_DEC -/

/-- RELEASE of TURBO_DEC (R254). -/
def tdRelease (b : List Byte) : Bool := bF b 0x54 4 1 == 1

def tceOk (b : List Byte) (p : Turbo) : Bool :=
  let s := (List.range p.c).foldl (fun m r => max m (turboNcb p (bF b 0x50 0 23) r)) 0
  decodeFieldsOk b (dcHq b true p.c) s && dcR b == 0 && bF b 0x48 0 16 == 0 && decide (dcIter b ≤ 16) &&
    (dcEt b == 0 || dcEt b == 2) && bF b 0x50 23 9 == 0 && bF b 0x54 5 11 == 0

/-- One code block of TURBO_DEC (R228, R253). A turbo code has no parity checks for the SYNDROME bit to speak of: it is the
free value `syn` (log entry 37). -/
def tceBlock (b : List Byte) (p : Turbo) (r : Nat) (llr : List Byte) (soft : Soft) (syn : Bool) : CbOut :=
  let nir := bF b 0x50 0 23
  let e := turboE p (dcG b) (dcNl b) (dcQm b) r
  let at0 := turboStart p (dcG b) (dcNl b) (dcQm b) r
  let seq := (gold (bF b 0x4C 0 31) (at0 + e)).drop at0
  let raw := (llr.zip seq).map fun x => if x.2 then -(llrIn x.1) else llrIn x.1
  let n := turboNcb p nir r
  let start := match soft with
    | .values v => (List.range n).map fun w => if turboSkip p r w then 0 else v.getD w 0
    | _ => List.replicate n 0
  let cmb := combine start (turboPositions p nir (dcRv b) r e) raw
  let d := turboDecode p (dcEt b) (dcIter b) r cmb.1
  let len := turboK p r - (if p.c > 1 then 24 else 0)
  { r := r, bits := (d.1.take len).drop (turboF p r), pass := d.2.1, synd := syn, iters := d.2.2, soft := cmb.1,
    lost := soft == .lost, empty := soft == .empty, sat := cmb.2 }

/-- The soft buffers of the blocks, each of its own size. -/
def State.turboSofts (s : State) (u : HqUse) (e : List Word) (size : Nat → Nat) : List Nat → Except Nat (List Soft)
  | [] => .ok []
  | r :: rs =>
    match s.softOf u e r (size r) with
    | .fails st => .error st
    | x =>
      match s.turboSofts u e size rs with
      | .ok xs => .ok (x :: xs)
      | .error st => .error st

/-- The result words of TURBO_DEC (R254): word 9 the transport-block CRC, words 10 to 15 the bitmaps of blocks 32 to 63. -/
def turboWords (cbs : List CbOut) (tb : Bool) (stored lost : List Nat) : List Nat :=
  decodeWords 0 cbs stored lost ++ [bit tb, cbMap 32 cbs (·.pass), cbMap 32 cbs (·.synd),
    cbMap 32 cbs (fun c => c.lost || lost.contains c.r), cbMap 32 cbs (fun c => stored.contains c.r), 0, 0]

/-- TURBO_DEC (R253, R254). -/
def tceRun (i : Nat) (s : State) (it : Item) (b : List Byte) : State × Nat :=
  let p := turboParams (dcA b)
  let nir := bF b 0x50 0 23
  let g := dcG b
  if !tceOk b p then (s, csFormat)
  else if !turboGeom p g (dcNl b) (dcQm b) then (s, 0x10)
  else
    let u := dcHq b true p.c
    let use := u.on || tdRelease b
    match (if use then (if u.on then s.hqCheck it.fn u else s.hqTake it.fn u.entry) else .ok (List.replicate 16 0)) with
    | .error st => (s.hqTally st, st)
    | .ok e =>
      let rs := List.range p.c
      let outs := (bQ b 0x28, bitBytes p.b) :: recordRange (bQ b 0x38)
      match s.gather (rs.map fun r =>
        (bQ b 0x20 + turboStart p g (dcNl b) (dcQm b) r, turboE p g (dcNl b) (dcQm b) r)) with
      | .error st => (s.scribble outs, st)
      | .ok llrs =>
        match s.turboSofts u e (turboNcb p nir) rs with
        | .error st => (s.scribble outs, st)
        | .ok sfs =>
          let cbs := rs.map fun r =>
            tceBlock b p r (llrs.getD r []) (sfs.getD r .fresh) (Config.freeValue 1 (s.free + r) == 1)
          let s := { s with free := s.free + p.c }
          let bits := cbs.flatMap (·.bits)
          let tb := crcPass 24 polyA (bits.take p.b)
          let r := decodeFinish s 8 i it.fn u e cbs [(bQ b 0x28, bitsOut bits)] (bQ b 0x38) (turboWords cbs tb)
          if r.2 = csOk ∧ tdRelease b ∧ tb then (r.1.hqWrite u.entry (List.replicate 16 0), r.2) else r

def execTurboDec (inst : Nat) (s : State) : Host.Outcome State Fault Refusal :=
  .next (s.engRow 8 1 inst fun s it b _ => tceRun inst s it b)

/-! ### TURBO_ENC -/

/-- The code blocks of a transport block, fillers in front of the first (clause 5.1.2). -/
def turboSegments (p : Turbo) (tb : List Bool) : List (List Bool) :=
  let b := List.replicate p.f false ++ tb ++ crcBits 24 polyA tb
  ((List.range p.c).foldl
    (fun (a : List (List Bool) × List Bool) r =>
      let len := turboK p r - (if p.c > 1 then 24 else 0)
      let x := a.2.take len
      (a.1 ++ [if p.c > 1 then x ++ crcBits 24 polyB x else x], a.2.drop len))
    ([], b)).1

/-- The rate-matched bits of code block `r` (clause 5.1.4.1). -/
def turboSent (p : Turbo) (nir rv r e : Nat) (c : List Bool) : List Bool :=
  let st := (turboStreams c).map List.toArray
  (turboPositions p nir rv r e).map fun w => match turboAt (turboK p r) w with
    | some (k, i) => (st.getD k #[]).getD i false
    | none => false

/-- TURBO_ENC (R246 to R249, R255). -/
def execTurboEnc (inst : Nat) (s : State) : Host.Outcome State Fault Refusal :=
  .next (s.engRow 8 2 inst fun s _ b _ =>
    if !(encodeFieldsOk b && dcR b == 0 && bF b 0x50 23 9 == 0) then (s, csFormat)
    else
      let p := turboParams (dcA b)
      encodeRun 8 inst s b fun g tb =>
        if !turboGeom p g (enNl b) (enQm b) then none
        else
          let segs := turboSegments p tb
          some (p.c, (List.range p.c).flatMap fun r =>
            turboSent p (bF b 0x50 0 23) (enRv b) r (turboE p g (enNl b) (enQm b) r) (segs.getD r [])))

end Sys2Proof.Machine
end

