-- ==== Sys2Proof/Machine/Dispatch.lean ====
section
/-!
DEFINITION. Sys2Proof/Machine/Dispatch.lean: one arm per command.
-/
namespace Sys2Proof.Machine

def exec (i : Instr) (s : State) : Host.Outcome State Fault Refusal :=
  match i with
  | .tick g => Sys2Proof.Machine.execTick g s
  | .add k b gd ga gb fin => Sys2Proof.Machine.execAdd k b gd ga gb fin s
  | .sub k b gd ga gb fin => Sys2Proof.Machine.execSub k b gd ga gb fin s
  | .and k b gd ga gb fin => Sys2Proof.Machine.execAnd k b gd ga gb fin s
  | .or k b gd ga gb fin => Sys2Proof.Machine.execOr k b gd ga gb fin s
  | .xor k b gd ga gb fin => Sys2Proof.Machine.execXor k b gd ga gb fin s
  | .shl k b gd ga gb fin => Sys2Proof.Machine.execShl k b gd ga gb fin s
  | .shr k b gd ga gb fin => Sys2Proof.Machine.execShr k b gd ga gb fin s
  | .sar k b gd ga gb fin => Sys2Proof.Machine.execSar k b gd ga gb fin s
  | .lt k b gd ga gb fin => Sys2Proof.Machine.execLt k b gd ga gb fin s
  | .ltu k b gd ga gb fin => Sys2Proof.Machine.execLtu k b gd ga gb fin s
  | .min k b gd ga gb fin => Sys2Proof.Machine.execMin k b gd ga gb fin s
  | .max k b gd ga gb fin => Sys2Proof.Machine.execMax k b gd ga gb fin s
  | .minu k b gd ga gb fin => Sys2Proof.Machine.execMinu k b gd ga gb fin s
  | .maxu k b gd ga gb fin => Sys2Proof.Machine.execMaxu k b gd ga gb fin s
  | .lz k b gd ga fin => Sys2Proof.Machine.execLz k b gd ga fin s
  | .pick k b gd ga gb fin => Sys2Proof.Machine.execPick k b gd ga gb fin s
  | .mul k b gd ga gb fin => Sys2Proof.Machine.execMul k b gd ga gb fin s
  | .mulhi k b gd ga gb fin => Sys2Proof.Machine.execMulhi k b gd ga gb fin s
  | .mulhiu k b gd ga gb fin => Sys2Proof.Machine.execMulhiu k b gd ga gb fin s
  | .addK k b gd ga k14 fin => Sys2Proof.Machine.execAddK k b gd ga k14 fin s
  | .andK k b gd ga k14 fin => Sys2Proof.Machine.execAndK k b gd ga k14 fin s
  | .orK k b gd ga k14 fin => Sys2Proof.Machine.execOrK k b gd ga k14 fin s
  | .xorK k b gd ga k14 fin => Sys2Proof.Machine.execXorK k b gd ga k14 fin s
  | .ltK k b gd ga k14 fin => Sys2Proof.Machine.execLtK k b gd ga k14 fin s
  | .ltuK k b gd ga k14 fin => Sys2Proof.Machine.execLtuK k b gd ga k14 fin s
  | .shlK k b gd ga k14 fin => Sys2Proof.Machine.execShlK k b gd ga k14 fin s
  | .shrK k b gd ga k14 fin => Sys2Proof.Machine.execShrK k b gd ga k14 fin s
  | .sarK k b gd ga k14 fin => Sys2Proof.Machine.execSarK k b gd ga k14 fin s
  | .mulK k b gd ga k14 fin => Sys2Proof.Machine.execMulK k b gd ga k14 fin s
  | .setu k b gd k18 fin => Sys2Proof.Machine.execSetu k b gd k18 fin s
  | .bEq k b ga gb disp fin => Sys2Proof.Machine.execBEq k b ga gb disp fin s
  | .bNe k b ga gb disp fin => Sys2Proof.Machine.execBNe k b ga gb disp fin s
  | .bLt k b ga gb disp fin => Sys2Proof.Machine.execBLt k b ga gb disp fin s
  | .bGe k b ga gb disp fin => Sys2Proof.Machine.execBGe k b ga gb disp fin s
  | .bLtu k b ga gb disp fin => Sys2Proof.Machine.execBLtu k b ga gb disp fin s
  | .bGeu k b ga gb disp fin => Sys2Proof.Machine.execBGeu k b ga gb disp fin s
  | .jmpL k b gd disp fin => Sys2Proof.Machine.execJmpL k b gd disp fin s
  | .jmpLr k b gd ga fin => Sys2Proof.Machine.execJmpLr k b gd ga fin s
  | .loopI k b one rot count e fin => Sys2Proof.Machine.execLoopI k b one rot count e fin s
  | .loopR k b one rot ga e fin => Sys2Proof.Machine.execLoopR k b one rot ga e fin s
  | .loopBackEdge k => Sys2Proof.Machine.execLoopBackEdge k s
  | .rdc k b gd csel fin => Sys2Proof.Machine.execRdc k b gd csel fin s
  | .wrc k b csel ga fin => Sys2Proof.Machine.execWrc k b csel ga fin s
  | .ieOff k b fin => Sys2Proof.Machine.execIeOff k b fin s
  | .ieOn k b fin => Sys2Proof.Machine.execIeOn k b fin s
  | .eret k b fin => Sys2Proof.Machine.execEret k b fin s
  | .trap k b k13 fin => Sys2Proof.Machine.execTrap k b k13 fin s
  | .preempt k => Sys2Proof.Machine.execPreempt k s
  | .maskOverrun k => Sys2Proof.Machine.execMaskOverrun k s
  | .fetchPoison k => Sys2Proof.Machine.execFetchPoison k s
  | .ldB k rd base off16 fin => Sys2Proof.Machine.execLdB k rd base off16 fin s
  | .ldBu k rd base off16 fin => Sys2Proof.Machine.execLdBu k rd base off16 fin s
  | .ldH k rd base off16 fin => Sys2Proof.Machine.execLdH k rd base off16 fin s
  | .ldHu k rd base off16 fin => Sys2Proof.Machine.execLdHu k rd base off16 fin s
  | .ldW k rd base off16 fin => Sys2Proof.Machine.execLdW k rd base off16 fin s
  | .stB k rs base off16 fin => Sys2Proof.Machine.execStB k rs base off16 fin s
  | .stH k rs base off16 fin => Sys2Proof.Machine.execStH k rs base off16 fin s
  | .stW k rs base off16 fin => Sys2Proof.Machine.execStW k rs base off16 fin s
  | .ldWPm k rd base off16 fin => Sys2Proof.Machine.execLdWPm k rd base off16 fin s
  | .stWPm k rs base off16 fin => Sys2Proof.Machine.execStWPm k rs base off16 fin s
  | .ldD k fd base off13 fin => Sys2Proof.Machine.execLdD k fd base off13 fin s
  | .stD k fs base off13 fin => Sys2Proof.Machine.execStD k fs base off13 fin s
  | .ldfW k rd base off16 fin => Sys2Proof.Machine.execLdfW k rd base off16 fin s
  | .stfW k rs base off16 fin => Sys2Proof.Machine.execStfW k rs base off16 fin s
  | .ldfD k fd base off13 fin => Sys2Proof.Machine.execLdfD k fd base off13 fin s
  | .stfD k fs base off13 fin => Sys2Proof.Machine.execStfD k fs base off13 fin s
  | .csave k off5 base mask16 fin => Sys2Proof.Machine.execCsave k off5 base mask16 fin s
  | .crest k off5 base mask16 fin => Sys2Proof.Machine.execCrest k off5 base mask16 fin s
  | .storeGatherDrain k e => Sys2Proof.Machine.execStoreGatherDrain k e s
  | .settle k fin => Sys2Proof.Machine.execSettle k fin s
  | .done k status fin => Sys2Proof.Machine.execDone k status fin s
  | .waitTask k fin => Sys2Proof.Machine.execWaitTask k fin s
  | .waitEv k rd rs imm11 fin => Sys2Proof.Machine.execWaitEv k rd rs imm11 fin s
  | .yieldPre k fin => Sys2Proof.Machine.execYieldPre k fin s
  | .qPush k rd rs rt imm11 fin => Sys2Proof.Machine.execQPush k rd rs rt imm11 fin s
  | .eqPush k rd rs rt imm11 fin => Sys2Proof.Machine.execEqPush k rd rs rt imm11 fin s
  | .esave k rd rs rt imm11 fin => Sys2Proof.Machine.execEsave k rd rs rt imm11 fin s
  | .erest k rd rs rt imm11 fin => Sys2Proof.Machine.execErest k rd rs rt imm11 fin s
  | .vldQ k grp gb off16 fin => Sys2Proof.Machine.execVldQ k grp gb off16 fin s
  | .vldQPm k grp gb off16 fin => Sys2Proof.Machine.execVldQPm k grp gb off16 fin s
  | .vstQ k grp gb off16 fin => Sys2Proof.Machine.execVstQ k grp gb off16 fin s
  | .vstQPm k grp gb off16 fin => Sys2Proof.Machine.execVstQPm k grp gb off16 fin s
  | .vldV k v gb off16 fin => Sys2Proof.Machine.execVldV k v gb off16 fin s
  | .vstV k v gb off16 fin => Sys2Proof.Machine.execVstV k v gb off16 fin s
  | .vldB k v gb off16 fin => Sys2Proof.Machine.execVldB k v gb off16 fin s
  | .vldBPm k v gb off16 fin => Sys2Proof.Machine.execVldBPm k v gb off16 fin s
  | .vstB k v gb off16 fin => Sys2Proof.Machine.execVstB k v gb off16 fin s
  | .vstBPm k v gb off16 fin => Sys2Proof.Machine.execVstBPm k v gb off16 fin s
  | .vldfQ k grp gb off16 fin => Sys2Proof.Machine.execVldfQ k grp gb off16 fin s
  | .vstfQ k grp gb off16 fin => Sys2Proof.Machine.execVstfQ k grp gb off16 fin s
  | .vldfB k v gb off16 fin => Sys2Proof.Machine.execVldfB k v gb off16 fin s
  | .vstfB k v gb off16 fin => Sys2Proof.Machine.execVstfB k v gb off16 fin s
  | .mfr k gd fs h fin => Sys2Proof.Machine.execMfr k gd fs h fin s
  | .asave k a gb off16 fin => Sys2Proof.Machine.execAsave k a gb off16 fin s
  | .arest k a gb off16 fin => Sys2Proof.Machine.execArest k a gb off16 fin s
  | .vadd k long vd va vb sc fin => Sys2Proof.Machine.execVadd k long vd va vb sc fin s
  | .vsub k long vd va vb sc fin => Sys2Proof.Machine.execVsub k long vd va vb sc fin s
  | .vmul k long vd va vb sc cj fin => Sys2Proof.Machine.execVmul k long vd va vb sc cj fin s
  | .vmin k long vd va vb sc fin => Sys2Proof.Machine.execVmin k long vd va vb sc fin s
  | .vmax k long vd va vb sc fin => Sys2Proof.Machine.execVmax k long vd va vb sc fin s
  | .vand k long vd va vb sc fin => Sys2Proof.Machine.execVand k long vd va vb sc fin s
  | .vor k long vd va vb sc fin => Sys2Proof.Machine.execVor k long vd va vb sc fin s
  | .vxor k long vd va vb sc fin => Sys2Proof.Machine.execVxor k long vd va vb sc fin s
  | .vsra k long vd va t fin => Sys2Proof.Machine.execVsra k long vd va t fin s
  | .vsll k long vd va t fin => Sys2Proof.Machine.execVsll k long vd va t fin s
  | .vpow k long vd va fin => Sys2Proof.Machine.execVpow k long vd va fin s
  | .vcvt k long vd va tgt fin => Sys2Proof.Machine.execVcvt k long vd va tgt fin s
  | .vbcst k long vd gb fin => Sys2Proof.Machine.execVbcst k long vd gb fin s
  | .vmov k long vd va fin => Sys2Proof.Machine.execVmov k long vd va fin s
  | .vzero k long vd fin => Sys2Proof.Machine.execVzero k long vd fin s
  | .cmac k long ad tb cj va vb fin => Sys2Proof.Machine.execCmac k long ad tb cj va vb fin s
  | .cmul k long ad tb cj va vb fin => Sys2Proof.Machine.execCmul k long ad tb cj va vb fin s
  | .aclr k ad fin => Sys2Proof.Machine.execAclr k ad fin s
  | .ardC k long vd a sh fin => Sys2Proof.Machine.execArdC k long vd a sh fin s
  | .ardV k vd a sh fin => Sys2Proof.Machine.execArdV k vd a sh fin s
  | .vminIx k long fd src abs fin => Sys2Proof.Machine.execVminIx k long fd src abs fin s
  | .vmaxIx k long fd src abs fin => Sys2Proof.Machine.execVmaxIx k long fd src abs fin s
  | .vmin2Ix k long fd src abs fin => Sys2Proof.Machine.execVmin2Ix k long fd src abs fin s
  | .vlds k long vd base stride fin => Sys2Proof.Machine.execVlds k long vd base stride fin s
  | .vsts k long vs base stride fin => Sys2Proof.Machine.execVsts k long vs base stride fin s
  | .vgth k long vd base idx fin => Sys2Proof.Machine.execVgth k long vd base idx fin s
  | .vsct k long vs base idx fin => Sys2Proof.Machine.execVsct k long vs base idx fin s
  | .combine inst => Sys2Proof.Machine.execCombine inst s
  | .precode inst => Sys2Proof.Machine.execPrecode inst s
  | .loadWeights inst => Sys2Proof.Machine.execLoadWeights inst s
  | .detect inst => Sys2Proof.Machine.execDetect inst s
  | .demap inst => Sys2Proof.Machine.execDemap inst s
  | .weightCalc inst => Sys2Proof.Machine.execWeightCalc inst s
  | .hinv inst => Sys2Proof.Machine.execHinv inst s
  | .transform inst => Sys2Proof.Machine.execTransform inst s
  | .filter inst sn => Sys2Proof.Machine.execFilter inst sn s
  | .control inst sn => Sys2Proof.Machine.execControl inst sn s
  | .fdcSlice inst => Sys2Proof.Machine.execFdcSlice inst s
  | .globalFreeze by_ inst v => Sys2Proof.Machine.execGlobalFreeze by_ inst v s
  | .decode inst => Sys2Proof.Machine.execDecode inst s
  | .tbcrc inst => Sys2Proof.Machine.execTbcrc inst s
  | .encode inst => Sys2Proof.Machine.execEncode inst s
  | .pceEncode inst => Sys2Proof.Machine.execPceEncode inst s
  | .pceDecode inst => Sys2Proof.Machine.execPceDecode inst s
  | .turboDec inst => Sys2Proof.Machine.execTurboDec inst s
  | .turboEnc inst => Sys2Proof.Machine.execTurboEnc inst s
  | .engineEsave cls inst sn => Sys2Proof.Machine.execEngineEsave cls inst sn s
  | .engineErest cls inst sn => Sys2Proof.Machine.execEngineErest cls inst sn s
  | .cmdShed sn => Sys2Proof.Machine.execCmdShed sn s
  | .harqScan channel => Sys2Proof.Machine.execHarqScan channel s
  | .enqueue q fn desc => Sys2Proof.Machine.execEnqueue q fn desc s
  | .stallEnd q => Sys2Proof.Machine.execStallEnd q s
  | .wgOpen fn group sup ext => Sys2Proof.Machine.execWgOpen fn group sup ext s
  | .wgClose fn group => Sys2Proof.Machine.execWgClose fn group s
  | .post fn core payload => Sys2Proof.Machine.execPost fn core payload s
  | .abort fn taskid => Sys2Proof.Machine.execAbort fn taskid s
  | .event n => Sys2Proof.Machine.execEvent n s
  | .dispatch x sn taskid save places => Sys2Proof.Machine.execDispatch x sn taskid save places s
  | .taskRelease taskid => Sys2Proof.Machine.execTaskRelease taskid s
  | .chainedEnqueue taskid => Sys2Proof.Machine.execChainedEnqueue taskid s
  | .preemptDecision sn victim => Sys2Proof.Machine.execPreemptDecision sn victim s
  | .taskResume k => Sys2Proof.Machine.execTaskResume k s
  | .shedQueued sn => Sys2Proof.Machine.execShedQueued sn s
  | .expired sn => Sys2Proof.Machine.execExpired sn s
  | .deadlineWait taskid => Sys2Proof.Machine.execDeadlineWait taskid s
  | .deadlineRun taskid => Sys2Proof.Machine.execDeadlineRun taskid s
  | .watchdog taskid => Sys2Proof.Machine.execWatchdog taskid s
  | .deadlock fn group => Sys2Proof.Machine.execDeadlock fn group s
  | .hfwDb f n v => Sys2Proof.Machine.execHfwDb f n v s
  | .ringFetch f n data => Sys2Proof.Machine.execRingFetch f n data s
  | .pushSlot f sl data whole => Sys2Proof.Machine.execPushSlot f sl data whole s
  | .hfwDoneHi f v => Sys2Proof.Machine.execHfwDoneHi f v s
  | .qcmdRead by_ => Sys2Proof.Machine.execQcmdRead by_ s
  | .qcmdWrite by_ => Sys2Proof.Machine.execQcmdWrite by_ s
  | .qcmdEnable by_ => Sys2Proof.Machine.execQcmdEnable by_ s
  | .qcmdDisable by_ => Sys2Proof.Machine.execQcmdDisable by_ s
  | .qcmdFlush by_ => Sys2Proof.Machine.execQcmdFlush by_ s
  | .pcmdRead by_ => Sys2Proof.Machine.execPcmdRead by_ s
  | .pcmdCommit by_ => Sys2Proof.Machine.execPcmdCommit by_ s
  | .hcmdRead by_ => Sys2Proof.Machine.execHcmdRead by_ s
  | .hcmdBind by_ place => Sys2Proof.Machine.execHcmdBind by_ place s
  | .hcmdRelease by_ => Sys2Proof.Machine.execHcmdRelease by_ s
  | .migrate handle start place => Sys2Proof.Machine.execMigrate handle start place s
  | .shedSlack sn => Sys2Proof.Machine.execShedSlack sn s
  | .replace sn inst => Sys2Proof.Machine.execReplace sn inst s
  | .ctxMove cls src ctx fn dst => Sys2Proof.Machine.execCtxMove cls src ctx fn dst s
  | .rerunPlace sn places => Sys2Proof.Machine.execRerunPlace sn places s
  | .write f => Sys2Proof.Machine.execWrite f s
  | .readReq f => Sys2Proof.Machine.execReadReq f s
  | .readData n hops corr unc => Sys2Proof.Machine.execReadData n hops corr unc s
  | .writeAck n => Sys2Proof.Machine.execWriteAck n s
  | .abortTail ring src agent dst tag seq => Sys2Proof.Machine.execAbortTail ring src agent dst tag seq s
  | .error n => Sys2Proof.Machine.execError n s
  | .credit src dst n => Sys2Proof.Machine.execCredit src dst n s
  | .nak src agent dst seq => Sys2Proof.Machine.execNak src agent dst seq s
  | .ctrlRetransmit src agent dst seq off => Sys2Proof.Machine.execCtrlRetransmit src agent dst seq off s
  | .segmentFail ring stop lost items => Sys2Proof.Machine.execSegmentFail ring stop lost items s
  | .scrub pg found sym => Sys2Proof.Machine.execScrub pg found sym s
  | .correctionWriteback addr sym => Sys2Proof.Machine.execCorrectionWriteback addr sym s
  | .poisonWrite addr requester second => Sys2Proof.Machine.execPoisonWrite addr requester second s
  | .autoRowRetire pg row => Sys2Proof.Machine.execAutoRowRetire pg row s
  | .tendRow by_ pg row => Sys2Proof.Machine.execTendRow by_ pg row s
  | .pinFail p sym => Sys2Proof.Machine.execPinFail p sym s
  | .channelLoss p reason detail rebuild => Sys2Proof.Machine.execChannelLoss p reason detail rebuild s
  | .bankLoss b reason detail => Sys2Proof.Machine.execBankLoss b reason detail s
  | .hostBar2Read f off len => Sys2Proof.Machine.execHostBar2Read f off len s
  | .hostBar2Write f off data => Sys2Proof.Machine.execHostBar2Write f off data s
  | .dmaRequest line addr len data => Sys2Proof.Machine.execDmaRequest line addr len data s
  | .dmaBurst ch rf rfAt landed host => Sys2Proof.Machine.execDmaBurst ch rf rfAt landed host s
  | .burstComplete ch => Sys2Proof.Machine.execBurstComplete ch s
  | .dmaResume by_ ch => Sys2Proof.Machine.execDmaResume by_ ch s
  | .dmaSkip by_ ch => Sys2Proof.Machine.execDmaSkip by_ ch s
  | .dmaReset by_ ch => Sys2Proof.Machine.execDmaReset by_ ch s
  | .kick by_ ch => Sys2Proof.Machine.execKick by_ ch s
  | .slip by_ l => Sys2Proof.Machine.execSlip by_ l s
  | .lockConfirm l ok => Sys2Proof.Machine.execLockConfirm l ok s
  | .cdrLoss l => Sys2Proof.Machine.execCdrLoss l s
  | .recalRx by_ l both => Sys2Proof.Machine.execRecalRx by_ l both s
  | .recalTx by_ l => Sys2Proof.Machine.execRecalTx by_ l s
  | .recalDone l eye cdr => Sys2Proof.Machine.execRecalDone l eye cdr s
  | .eyeMeasure by_ l v n => Sys2Proof.Machine.execEyeMeasure by_ l v n s
  | .sweep by_ l count => Sys2Proof.Machine.execSweep by_ l count s
  | .sweepDone l found => Sys2Proof.Machine.execSweepDone l found s
  | .txSleep by_ l on => Sys2Proof.Machine.execTxSleep by_ l on s
  | .rxSleep by_ l on => Sys2Proof.Machine.execRxSleep by_ l on s
  | .windowOpen l => Sys2Proof.Machine.execWindowOpen l s
  | .windowWake l => Sys2Proof.Machine.execWindowWake l s
  | .schedCommit by_ o k => Sys2Proof.Machine.execSchedCommit by_ o k s
  | .schedApply o k => Sys2Proof.Machine.execSchedApply o k s
  | .rxFrame p sub bytes host => Sys2Proof.Machine.execRxFrame p sub bytes host s
  | .txFrame p => Sys2Proof.Machine.execTxFrame p s
  | .uPlaneFrame f => Sys2Proof.Machine.execUPlaneFrame f s
  | .earlyRelease f => Sys2Proof.Machine.execEarlyRelease f s
  | .rxWindowClose f c start => Sys2Proof.Machine.execRxWindowClose f c start s
  | .symbolComplete f c start => Sys2Proof.Machine.execSymbolComplete f c start s
  | .stagingNotice n => Sys2Proof.Machine.execStagingNotice n s
  | .ringPoll f => Sys2Proof.Machine.execRingPoll f s
  | .cplane f => Sys2Proof.Machine.execCplane f s
  | .ready f => Sys2Proof.Machine.execReady f s
  | .release f => Sys2Proof.Machine.execRelease f s
  | .egress f c h => Sys2Proof.Machine.execEgress f c h s
  | .egressMissed f c h => Sys2Proof.Machine.execEgressMissed f c h s
  | .framerTakeover f how => Sys2Proof.Machine.execFramerTakeover f how s
  | .owdRequest f => Sys2Proof.Machine.execOwdRequest f s
  | .owdResponse f => Sys2Proof.Machine.execOwdResponse f s
  | .owdRemoteRequest f => Sys2Proof.Machine.execOwdRemoteRequest f s
  | .frmRead by_ f => Sys2Proof.Machine.execFrmRead by_ f s
  | .frmWrite by_ f => Sys2Proof.Machine.execFrmWrite by_ f s
  | .frmEnable by_ f => Sys2Proof.Machine.execFrmEnable by_ f s
  | .frmDisable by_ f => Sys2Proof.Machine.execFrmDisable by_ f s
  | .slew by_ v => Sys2Proof.Machine.execSlew by_ v s
  | .step by_ v => Sys2Proof.Machine.execStep by_ v s
  | .stepApply => Sys2Proof.Machine.execStepApply s
  | .ppsOut => Sys2Proof.Machine.execPpsOut s
  | .ppsIn sub => Sys2Proof.Machine.execPpsIn sub s
  | .todTx utc => Sys2Proof.Machine.execTodTx utc s
  | .todRx msg => Sys2Proof.Machine.execTodRx msg s
  | .ptpTx host => Sys2Proof.Machine.execPtpTx host s
  | .timedRequest t => Sys2Proof.Machine.execTimedRequest t s
  | .genEnable by_ g v => Sys2Proof.Machine.execGenEnable by_ g v s
  | .training n lead peer timeout lanes => Sys2Proof.Machine.execTraining n lead peer timeout lanes s
  | .rvWrite n pkt => Sys2Proof.Machine.execRvWrite n pkt s
  | .rvEnqueue n pkt => Sys2Proof.Machine.execRvEnqueue n pkt s
  | .rvEvent n pkt => Sys2Proof.Machine.execRvEvent n pkt s
  | .replay n pkt => Sys2Proof.Machine.execReplay n pkt s
  | .replayTimeout n => Sys2Proof.Machine.execReplayTimeout n s
  | .retrain n => Sys2Proof.Machine.execRetrain n s
  | .linkDown n => Sys2Proof.Machine.execLinkDown n s
  | .siltAdjust n above below => Sys2Proof.Machine.execSiltAdjust n above below s
  | .laneRemoved n lane => Sys2Proof.Machine.execLaneRemoved n lane s
  | .laneAdded n lane => Sys2Proof.Machine.execLaneAdded n lane s
  | .swapReq by_ n => Sys2Proof.Machine.execSwapReq by_ n s
  | .swapAck n request timeout => Sys2Proof.Machine.execSwapAck n request timeout s
  | .rvTcmdRead by_ n => Sys2Proof.Machine.execRvTcmdRead by_ n s
  | .rvTcmdWrite by_ n => Sys2Proof.Machine.execRvTcmdWrite by_ n s
  | .perstN low rate width => Sys2Proof.Machine.execPerstN low rate width s
  | .flr f => Sys2Proof.Machine.execFlr f s
  | .registerWrite by_ off width v aux => Sys2Proof.Machine.execRegisterWrite by_ off width v aux s
  | .pgIrqForce by_ pg v => Sys2Proof.Machine.execPgIrqForce by_ pg v s
  | .pgOwner by_ pg v => Sys2Proof.Machine.execPgOwner by_ pg v s
  | .mbxGo f => Sys2Proof.Machine.execMbxGo f s
  | .mbxServe aux pass => Sys2Proof.Machine.execMbxServe aux pass s
  | .qcbRead => Sys2Proof.Machine.execQcbRead s
  | .qcbWrite => Sys2Proof.Machine.execQcbWrite s
  | .queueEnable => Sys2Proof.Machine.execQueueEnable s
  | .queueDisable => Sys2Proof.Machine.execQueueDisable s
  | .queueFlush => Sys2Proof.Machine.execQueueFlush s
  | .handleBind place => Sys2Proof.Machine.execHandleBind place s
  | .handleRelease => Sys2Proof.Machine.execHandleRelease s
  | .handleRead => Sys2Proof.Machine.execHandleRead s
  | .regRead => Sys2Proof.Machine.execRegRead s
  | .regWrite aux => Sys2Proof.Machine.execRegWrite aux s
  | .poolWrite => Sys2Proof.Machine.execPoolWrite s
  | .poolRead => Sys2Proof.Machine.execPoolRead s
  | .powerRead => Sys2Proof.Machine.execPowerRead s
  | .thermalRead => Sys2Proof.Machine.execThermalRead s
  | .bootStatus => Sys2Proof.Machine.execBootStatus s
  | .bootCommit => Sys2Proof.Machine.execBootCommit s
  | .flashWrite => Sys2Proof.Machine.execFlashWrite s
  | .slotActivate => Sys2Proof.Machine.execSlotActivate s
  | .partLoad => Sys2Proof.Machine.execPartLoad s
  | .wardUpdate => Sys2Proof.Machine.execWardUpdate s
  | .rollbackAdvance => Sys2Proof.Machine.execRollbackAdvance s
  | .deviceReset byWard => Sys2Proof.Machine.execDeviceReset byWard s
  | .faultLogRead => Sys2Proof.Machine.execFaultLogRead s
  | .ringReturn pass => Sys2Proof.Machine.execRingReturn pass s
  | .ownerEnrol => Sys2Proof.Machine.execOwnerEnrol s
  | .otpWrite pass => Sys2Proof.Machine.execOtpWrite pass s
  | .rise by_ pg how => Sys2Proof.Machine.execRise by_ pg how s
  | .drain by_ pg => Sys2Proof.Machine.execDrain by_ pg s
  | .tend by_ pg => Sys2Proof.Machine.execTend by_ pg s
  | .drainComplete pg => Sys2Proof.Machine.execDrainComplete pg s
  | .resume by_ pg how => Sys2Proof.Machine.execResume by_ pg how s
  | .retire by_ pg how => Sys2Proof.Machine.execRetire by_ pg how s
  | .retain by_ pg => Sys2Proof.Machine.execRetain by_ pg s
  | .riseTimeout pg => Sys2Proof.Machine.execRiseTimeout pg s
  | .partFault pg reason detail contained => Sys2Proof.Machine.execPartFault pg reason detail contained s
  | .serve by_ => Sys2Proof.Machine.execServe by_ s
  | .rest by_ write => Sys2Proof.Machine.execRest by_ write s
  | .restAbandon => Sys2Proof.Machine.execRestAbandon s
  | .wake by_ => Sys2Proof.Machine.execWake by_ s
  | .wakeN => Sys2Proof.Machine.execWakeN s
  | .alarm => Sys2Proof.Machine.execAlarm s
  | .ppsWake => Sys2Proof.Machine.execPpsWake s
  | .test by_ => Sys2Proof.Machine.execTest by_ s
  | .leaveTest by_ => Sys2Proof.Machine.execLeaveTest by_ s
  | .padRelease by_ groups => Sys2Proof.Machine.execPadRelease by_ groups s
  | .phaseOpen ph => Sys2Proof.Machine.execPhaseOpen ph s
  | .senseFail ph => Sys2Proof.Machine.execSenseFail ph s
  | .avsUpdate o target rail current core total => Sys2Proof.Machine.execAvsUpdate o target rail current core total s
  | .railFault o => Sys2Proof.Machine.execRailFault o s
  | .thermalSample sensors hbms => Sys2Proof.Machine.execThermalSample sensors hbms s
  | .thermalSafe sensor => Sys2Proof.Machine.execThermalSafe sensor s
  | .thermtrip => Sys2Proof.Machine.execThermtrip s
  | .powerOn gpio => Sys2Proof.Machine.execPowerOn gpio s
  | .powerOff => Sys2Proof.Machine.execPowerOff s
  | .resetN gpio => Sys2Proof.Machine.execResetN gpio s
  | .aonPor gpio => Sys2Proof.Machine.execAonPor gpio s
  | .boot => Sys2Proof.Machine.execBoot s
  | .riseSequence pg how => Sys2Proof.Machine.execRiseSequence pg how s
  | .imemData by_ k v => Sys2Proof.Machine.execImemData by_ k v s
  | .imemCommit by_ k load images version res => Sys2Proof.Machine.execImemCommit by_ k load images version res s
  | .imgData by_ pg v => Sys2Proof.Machine.execImgData by_ pg v s
  | .imgCommit by_ pg version res => Sys2Proof.Machine.execImgCommit by_ pg version res s
  | .debugStep by_ k => Sys2Proof.Machine.execDebugStep by_ k s
  | .coreReload k how => Sys2Proof.Machine.execCoreReload k how s
  | .lockstepMismatch pair => Sys2Proof.Machine.execLockstepMismatch pair s
  | .klnAcquire by_ => Sys2Proof.Machine.execKlnAcquire by_ s
  | .klnRelease by_ => Sys2Proof.Machine.execKlnRelease by_ s
  | .xtsEnc by_ cmd => Sys2Proof.Machine.execXtsEnc by_ cmd s
  | .xtsDec by_ cmd => Sys2Proof.Machine.execXtsDec by_ cmd s
  | .cmacGen by_ cmd => Sys2Proof.Machine.execCmacGen by_ cmd s
  | .cmacCheck by_ cmd => Sys2Proof.Machine.execCmacCheck by_ cmd s
  | .lockLost => Sys2Proof.Machine.execLockLost s
  | .autoRetire pg pass how => Sys2Proof.Machine.execAutoRetire pg pass how s
  | .safe reason detail => Sys2Proof.Machine.execSafe reason detail s
  | .i3cRead index => Sys2Proof.Machine.execI3cRead index s
  | .sedRingCfg by_ r v => Sys2Proof.Machine.execSedRingCfg by_ r v s
  | .prbCtrl by_ n v => Sys2Proof.Machine.execPrbCtrl by_ n v s
  | .cdrLock l => Sys2Proof.Machine.execCdrLock l s
  | .alignLock l tx rx => Sys2Proof.Machine.execAlignLock l tx rx s
  | .refOk o ok pllA pllB => Sys2Proof.Machine.execRefOk o ok pllA pllB s
  | .registerRead by_ off width => Sys2Proof.Machine.execRegisterRead by_ off width s
  | .configRequest f req => Sys2Proof.Machine.execConfigRequest f req s
  | .linkReset => Sys2Proof.Machine.execLinkReset s
  | .cpriUnderrun b => Sys2Proof.Machine.execCpriUnderrun b s
  | .hyperframe p received sub => Sys2Proof.Machine.execHyperframe p received sub s

end Sys2Proof.Machine
end

