-- ==== Sys2Proof/Safety.lean ====
section
/-!
DEFINITION. Sys2Proof/Safety.lean: what the statements are said in: what an executor is ready for, and what a command leaves alone.
Nothing here is part of the machine.
-/
namespace Sys2Proof.Safety
open Sys2Proof Sys2Proof.Machine

/-- The command completes: it answers a next state with the property. -/
abbrev Runs (i : Instr) (s : State) (P : State → Prop) : Prop := ∃ t, Machine.exec i s = .next t ∧ P t

/-- The command answers exactly this state. -/
abbrev Gives (i : Instr) (s t : State) : Prop := Machine.exec i s = .next t

/-- Core #k can issue a bundle at once: it exists, runs a task (R96) and is not halted by its debug page (R585), no bundle waits
or is being gathered (R59, R63), no pre-emption is due (R102), no V-slot operation is to be resumed (R90), and its task is in
no wait.ev (R101). -/
def coreFree (s : State) (k : Nat) : Bool :=
  let c := s.core k
  decide (k < 272) && issues c && !c.waiting && c.bundle.isEmpty && !c.preempt && !c.vresume &&
    (match s.coreItem k with
     | some it => !it.inWait
     | none => true)

/-- The state after core #k has issued a bundle whose operations ask for `o`: the writes are pending with their latencies, the
pc and the count have moved on, what is due has landed (R60 to R64, R79 to R81); masks are measured and a breakpoint may halt
a self-test (R94, R585). -/
def issued (s : State) (k : Nat) (o : OpOut) : State :=
  let c := s.core k
  let t := s.setCore k (retire { c with bundle := [] } o o.wr o.chain)
  boundary (maskTrack t k) k

/-- The command is the only operation of its bundle and issues with these results. -/
abbrev IssuesOut (s : State) (k : Nat) (i : Instr) (o : OpOut) : Prop := Gives i s (issued s k o)

/-- … with these register writes and their latencies. -/
abbrev IssuesWr (s : State) (k : Nat) (i : Instr) (wr : List (Nat × RegWrite)) : Prop := IssuesOut s k i { wr := wr }

/-- … with one scalar result of the given latency. -/
abbrev IssuesG (s : State) (k : Nat) (i : Instr) (gd : GReg) (lat : Nat) (v : Word) : Prop :=
  IssuesWr s k i [(lat, .g (physG (s.core k) gd) v)]

/-- The bundle faults before it issues, with this slot and cause (R86, R87); EPC is its own address. -/
abbrev FaultsOut (s : State) (k : Nat) (i : Instr) (sl : Slot) (e : OpFault) : Prop :=
  Gives i s (boundary (coreSync (s.setCore k (s.core k)) k sl e (s.core k).pc false) k)

/-- The state in which the core's operation is carried out: its bundle has been taken up. -/
def taken (s : State) (k : Nat) : State := s.setCore k (s.core k)

/-- A scalar load of `n` bytes at a near address: where the access is allowed and meets no poison, the register takes the
extended value with latency 4 (R62, R69, R73); where it meets poison it raises LOAD_POISON; where it is not allowed,
ACCESS_FAULT (R70, R72, R86). -/
def NearLoad (s : State) (k : Nat) (i : Instr) (rd base : GReg) (off : Int) (n : Nat) (ext : Nat → Word)
    (more : List (Nat × RegWrite)) : Prop :=
  let a := nearEa (s.core k) base off
  match nearCheck s k a n n with
  | .error e => e.cause = 0x11 ∧ FaultsOut s k i .M e
  | .ok d =>
    (match coreLoad (taken s k) k d n with
     | (t, some bs) => Gives i s (issued t k { wr := (4, .g (physG (s.core k) rd) (ext (ofLe bs))) :: more })
     | (_, none) => FaultsOut s k i .M ⟨0x12, 0, a⟩)

/-- A store of bytes at a near address, or the fault of one that is not allowed. -/
def NearStore (s : State) (k : Nat) (i : Instr) (base : GReg) (off : Int) (al : Nat) (bs : List Byte)
    (wr : List (Nat × RegWrite)) : Prop :=
  let a := nearEa (s.core k) base off
  match nearCheck s k a bs.length al with
  | .error e => e.cause = 0x11 ∧ FaultsOut s k i .M e
  | .ok d => Gives i s (issued (coreStore (taken s k) k d bs) k { wr := wr })

/-- A load of `n` bytes whose address check is given: what its bytes `bs` write, or the fault. -/
def LoadFrom (s : State) (k : Nat) (i : Instr) (chk : Except OpFault Nat) (n : Nat) (bad : OpFault)
    (wr : List Byte → List (Nat × RegWrite)) : Prop :=
  match chk with
  | .error e => FaultsOut s k i .M e
  | .ok d =>
    (match coreLoad (taken s k) k d n with
     | (t, some bs) => Gives i s (issued t k { wr := wr bs })
     | (_, none) => FaultsOut s k i .M bad)

/-- A store whose address check is given. -/
def StoreTo (s : State) (k : Nat) (i : Instr) (chk : Except OpFault Nat) (bs : List Byte) (wr : List (Nat × RegWrite)) : Prop :=
  match chk with
  | .error e => FaultsOut s k i .M e
  | .ok d => Gives i s (issued (coreStore (taken s k) k d bs) k { wr := wr })

/-- The bundle waits: it stays presented, and nothing of it is written (R63). -/
def Waits (s : State) (k : Nat) (i : Instr) (st : State) : Prop :=
  Gives i s (boundary (st.setCore k { st.core k with bundle := [i], waiting := true }) k)

/-- An engine instance takes the block at the front of its window (R141, R142, R315): where the block already ends the command,
it ends with that STATUS; otherwise `body` is done with the block and the context it names, and its STATUS reported. -/
def EngineRow (s : State) (cls op i : Nat) (row : Instr) (body : State → Item → List Byte → Option Ctx → State × Nat) : Prop :=
  ∀ it, s.engOn cls i = true → s.engHead cls i = some it → it.kind = .block →
    match s.engBegin cls i it op with
    | .ends st => Gives row s (s.engEnd it cls i st)
    | .go b c => Gives row s ((body s it b c).1.engEnd it cls i (body s it b c).2)
    | .other => Gives row s s

/-- The access of an agent to a page is neither lost nor turned away (R486, R509, R521, R580). -/
def allowed (s : State) (a : Agent) (p : Page) : Bool := s.reaches a && (s.turnedAway a p).isNone

/-- No probe is enabled (R356). -/
def noProbe (s : State) : Prop := ∀ n, n < 32 → s.fld (pgProbe n) Reg.PRB_CTRL 0 1 = 0

/-- A saturating 32-bit tally after one more event (R30). -/
def tallied (w : Word) (n : Nat) : Word := BitVec.ofNat 32 (min (w.toNat + n) (2 ^ 32 - 1))

/-- Ward serves its mailbox, and the request at the front of its queue is this command with these parameters, of function `f`
(R500, R553, R580). -/
def mbxFront (s : State) (code f : Nat) (pars : List Word) : Prop :=
  let w := (s.win f).mbxReq
  s.mbxOpen = true ∧ s.ward.queue.head? = some f ∧ s.mbxServes code = true ∧ (w.getD 0 0).toNat % 65536 = code ∧
    (w.getD 0 0).toNat / 65536 % 256 = pars.length ∧ pars.length ≤ 62 ∧ (w.drop 2).take pars.length = pars

/-- Ward has taken the request from its queue. -/
def mbxTaken (s : State) : State := s.setWard { s.ward with queue := s.ward.queue.tail }

/-- The row does what leads to `t`, and answers the function with RESULT and data (R500). -/
abbrev Answers (s : State) (row : Instr) (f : Nat) (t : State) (res : Nat) (data : List Word) : Prop :=
  Gives row s (t.mbxReply f ((s.win f).mbxReq.getD 0 0) ⟨res, data⟩)

/-- The RESULT of a response for the RESULT of the register command that Ward ran (R500). -/
def mbxRes (r : Nat) : Nat := if r = 0 then 0 else 0x100 + r

/-- The access is reported (R505): the last record, the tally and the host interface's interrupt; `kind` 0 SIZE, 1 UNMAPPED,
2 REJECTED, 3 LOCKED. Memory, parts, links and what the fabric holds are as they were. -/
def Reported (s : State) (a : Agent) (off kind : Nat) (t : State) : Prop :=
  t.reg pgHif Reg.HIF_LAST_ERR_LO = BitVec.ofNat 32 (off % 2 ^ 28) ∧
  t.fld pgHif Reg.HIF_LAST_ERR_HI 0 6 = agFn a % 64 ∧ t.fld pgHif Reg.HIF_LAST_ERR_HI 6 2 = kind ∧
  t.reg pgHif Reg.HIF_TALLY_ACCERR = tallied (s.reg pgHif Reg.HIF_TALLY_ACCERR) 1 ∧
  t.fld pgHif Reg.PG_IRQ_STAT 0 1 = 1 ∧ t.mem = s.mem ∧ t.cores = s.cores ∧ t.fab = s.fab ∧ t.links = s.links ∧ t.ward = s.ward

/-- What a write of `v` leaves in each field of a register, by the field's access code (R27); the register's row is `r`. -/
def Landed (s : State) (p : Page) (off : Nat) (r : RegRow) (v : Nat) (t : State) : Prop :=
  t = s.setReg p off (t.reg p off) ∧
  ∀ f ∈ r.fields,
    bitsOf (t.reg p off).toNat f.lo f.w =
      (match f.acc with
       | .rw => bitsOf v f.lo f.w
       | .rwl => if s.rwlOpen p then bitsOf v f.lo f.w else bitsOf (s.reg p off).toNat f.lo f.w
       | .w1c => bitsOf (s.reg p off).toNat f.lo f.w &&& (2 ^ f.w - 1 - bitsOf v f.lo f.w)
       | .w1s => bitsOf (s.reg p off).toNat f.lo f.w ||| bitsOf v f.lo f.w
       | _ => bitsOf (s.reg p off).toNat f.lo f.w)

end Sys2Proof.Safety
end

