-- ==== Sys2Proof/Certificates/Slice0/Obligations.lean ====
section
/-!
DEFINITION. Sys2Proof/Certificates/Slice0/Obligations.lean: the statements about the block. A statement made of several parts is the
conjunction of its parts, which stand before it under Sys2Proof.Claims.
-/
namespace Sys2Proof.Claims
open Sys2Proof Sys2Proof.Machine Sys2Proof.Safety

/-- Every command answers a next state, whatever the state is: no command of the table stops the machine. -/
def EveryCommandCompletes : Prop := ∀ (i : Instr) (s : State), ∃ t, Machine.exec i s = .next t

/-- A command changes everything but the queue of waiting commands. -/
def QueueUntouched : Prop := ∀ (i : Instr) (s t : State), Machine.exec i s = .next t → t.pending = s.pending

/-- With no command waiting a step is one cycle of the 491.52 MHz clock: AIRTIME goes on by 4 Tc at nominal rate and nothing
but time moves (R457, R458). That the idle step is a clock cycle is the model's choice (log entry 49). -/
def IdleClock : Prop :=
  ∀ (s : State), s.pending = [] →
    (∃ t, Machine.step s = .next t ∧ t.mem = s.mem ∧ t.cores = s.cores ∧ t.regs = s.regs ∧ t.pending = [] ∧ s.airtime ≤ t.airtime) ∧
    (s.pins.on = false → Machine.step s = .next s) ∧
    (s.pins.on = true → s.time.slew = 0 → s.time.frac = 0 → s.reg pgTime Reg.TB_FREQ = 0 →
      ∃ t, Machine.step s = .next t ∧ t.airtime = s.airtime + 4)

/-- The state after reset: AIRTIME 0 and mode BOOT (R458, R545), memory reads as zero and holds no poison (R620), every
register page shows its reset values (R25), cores have the reset values of VL, VTYPE, VIDX, RMODE and the tag counter (R109,
R110, R116, R134, R140), no task, context or command is held. -/
def ResetState : Prop :=
  let s := State.reset
  s.airtime = 0 ∧ s.mode = modeBoot ∧ s.pending = [] ∧ s.mem.wf = true ∧ (∀ a, memByte s.mem.cells a = 0) ∧ s.mem.poison = [] ∧
  s.fab.items = [] ∧ s.ctxs = [] ∧ s.fld pgTherm Reg.THM_CTRL 0 8 = 100 ∧
  (∀ k, let c := s.core k
    c.vl = 0x40 ∧ c.vtype = 0x105 ∧ c.vidx = 0 ∧ c.rmode = 0 ∧ c.tag = 1 ∧ c.run = .idle ∧ c.sg = [] ∧
    ∀ a, memByte c.imem a = 0) ∧
  (∀ k off r, rowAt k off = some r → ∀ ix, s.reg ⟨k, ix⟩ off = r.resetVal)

/-- The functions of format T: each issues from either slot with one result of its stated latency and touches no other
register (R60, R62, R67). -/
def ScalarTResults : Prop :=
  ∀ (s : State) (k : Nat) (b : Bool) (gd ga gb : GReg), coreFree s k = true →
    let x := readG (s.core k) ga
    let y := readG (s.core k) gb
    let n := y.toNat % 32
    IssuesG s k (.add k b gd ga gb true) gd 1 (x + y) ∧
    IssuesG s k (.sub k b gd ga gb true) gd 1 (x - y) ∧
    IssuesG s k (.and k b gd ga gb true) gd 1 (x &&& y) ∧
    IssuesG s k (.or k b gd ga gb true) gd 1 (x ||| y) ∧
    IssuesG s k (.xor k b gd ga gb true) gd 1 (x ^^^ y) ∧
    IssuesG s k (.shl k b gd ga gb true) gd 1 (x <<< n) ∧
    IssuesG s k (.shr k b gd ga gb true) gd 1 (x >>> n) ∧
    IssuesG s k (.sar k b gd ga gb true) gd 1 (x.sshiftRight n) ∧
    IssuesG s k (.lt k b gd ga gb true) gd 1 (if x.toInt < y.toInt then 1 else 0) ∧
    IssuesG s k (.ltu k b gd ga gb true) gd 1 (if x.toNat < y.toNat then 1 else 0) ∧
    IssuesG s k (.min k b gd ga gb true) gd 1 (if y.toInt < x.toInt then y else x) ∧
    IssuesG s k (.max k b gd ga gb true) gd 1 (if x.toInt < y.toInt then y else x) ∧
    IssuesG s k (.minu k b gd ga gb true) gd 1 (if y.toNat < x.toNat then y else x) ∧
    IssuesG s k (.maxu k b gd ga gb true) gd 1 (if x.toNat < y.toNat then y else x) ∧
    IssuesG s k (.lz k b gd ga true) gd 1 (BitVec.ofNat 32 (if x = 0 then 32 else 31 - Nat.log2 x.toNat)) ∧
    IssuesG s k (.pick k b gd ga gb true) gd 1 (if y = 0 then readG (s.core k) gd else x) ∧
    IssuesG s k (.mul k b gd ga gb true) gd 3 (BitVec.ofNat 32 (x.toNat * y.toNat)) ∧
    IssuesG s k (.mulhi k b gd ga gb true) gd 3 (BitVec.ofInt 32 (x.toInt * y.toInt / 2 ^ 32)) ∧
    IssuesG s k (.mulhiu k b gd ga gb true) gd 3 (BitVec.ofNat 32 (x.toNat * y.toNat / 2 ^ 32))

/-- The operations with a constant: sign or zero extension as R65 says, results as R66 says; a shift by a constant of 32 or
more raises ILLEGAL (R65, R66). -/
def ScalarKResults : Prop :=
  ∀ (s : State) (k : Nat) (b : Bool) (gd ga : GReg) (c14 : BitVec 14) (c18 : BitVec 18), coreFree s k = true →
    let x := readG (s.core k) ga
    let sg : Word := c14.signExtend 32
    let zr : Word := c14.zeroExtend 32
    IssuesG s k (.addK k b gd ga c14 true) gd 1 (x + sg) ∧
    IssuesG s k (.andK k b gd ga c14 true) gd 1 (x &&& zr) ∧
    IssuesG s k (.orK k b gd ga c14 true) gd 1 (x ||| zr) ∧
    IssuesG s k (.xorK k b gd ga c14 true) gd 1 (x ^^^ zr) ∧
    IssuesG s k (.ltK k b gd ga c14 true) gd 1 (if x.toInt < sg.toInt then 1 else 0) ∧
    IssuesG s k (.ltuK k b gd ga c14 true) gd 1 (if x.toNat < zr.toNat then 1 else 0) ∧
    IssuesG s k (.mulK k b gd ga c14 true) gd 3 (x * sg) ∧
    IssuesG s k (.setu k b gd c18 true) gd 1 (BitVec.ofNat 32 (c18.toNat * 2 ^ 14)) ∧
    (c14.toNat < 32 →
      IssuesG s k (.shlK k b gd ga c14 true) gd 1 (x <<< c14.toNat) ∧
      IssuesG s k (.shrK k b gd ga c14 true) gd 1 (x >>> c14.toNat) ∧
      IssuesG s k (.sarK k b gd ga c14 true) gd 1 (x.sshiftRight c14.toNat)) ∧
    (32 ≤ c14.toNat →
      ∀ i ∈ [Instr.shlK k b gd ga c14 true, .shrK k b gd ga c14 true, .sarK k b gd ga c14 true],
        FaultsOut s k i (if b then .B else .A) (illegal 1))

/-- Branches and jumps: when each is taken, where it goes, and the link written (R65, R66); a jmp.lr target that is not a
bundle address raises ACCESS_FAULT (R66). Relative targets outside instruction memory are not stated here (log entry 3). -/
def BranchResults : Prop :=
  ∀ (s : State) (k : Nat) (gd ga gb : GReg) (d15 : BitVec 15) (d17 : BitVec 17), coreFree s k = true →
    (s.core k).br = none → inLoopTail (s.core k) = false →
    let c := s.core k
    let x := readG c ga
    let y := readG c gb
    let link : Nat × RegWrite := (1, .g (physG c gd) (BitVec.ofNat 32 ((c.pc + 48) % 65536)))
    let goes (taken : Bool) (t : Nat) : OpOut := { branch := true, target := if taken then some t else none }
    (∀ t : Nat, (t : Int) = c.pc + 16 * d15.toInt → t < 65536 →
      IssuesOut s k (.bEq k false ga gb d15 true) (goes (x == y) t) ∧
      IssuesOut s k (.bNe k false ga gb d15 true) (goes (x != y) t) ∧
      IssuesOut s k (.bLt k false ga gb d15 true) (goes (decide (x.toInt < y.toInt)) t) ∧
      IssuesOut s k (.bGe k false ga gb d15 true) (goes (decide (y.toInt ≤ x.toInt)) t) ∧
      IssuesOut s k (.bLtu k false ga gb d15 true) (goes (decide (x.toNat < y.toNat)) t) ∧
      IssuesOut s k (.bGeu k false ga gb d15 true) (goes (decide (y.toNat ≤ x.toNat)) t)) ∧
    (∀ t : Nat, (t : Int) = c.pc + 16 * d17.toInt → t < 65536 →
      IssuesOut s k (.jmpL k false gd d17 true) { wr := [link], branch := true, target := some t }) ∧
    (x.toNat % 16 = 0 → x.toNat < 65536 →
      IssuesOut s k (.jmpLr k false gd ga true) { wr := [link], branch := true, target := some x.toNat }) ∧
    (x.toNat % 16 ≠ 0 ∨ 65536 ≤ x.toNat →
      FaultsOut s k (.jmpLr k false gd ga true) .A ⟨0x11, 0, x.toNat⟩)

/-- A taken branch leaves two delay slots: the two bundles after it issue and then the target (R79). -/
def DelaySlots : Prop :=
  ∀ (c : Core) (a : OpOut) (t : Nat), c.br = none → a.skip = none → a.branch = true → a.target = some t →
    loopNext c = (c, (c.pc + 16) % 65536) →
    let c1 := advance c a
    c1.pc = (c.pc + 16) % 65536 ∧ c1.br = some (2, some t) ∧
    (∀ a1, loopNext c1 = (c1, (c1.pc + 16) % 65536) →
      let c2 := advance c1 a1
      c2.pc = (c.pc + 32) % 65536 ∧ c2.br = some (1, some t) ∧
      ∀ a2, let c3 := advance c2 a2; c3.pc = t ∧ c3.br = none)

/-- A branch, jump, eret, trap or loop setup in a delay slot, and a branch or jump in the last three bundles of an active
loop, raises ILLEGAL with DETAIL 2; an operation of slot A presented in slot B raises ILLEGAL with DETAIL 1 (R66, R79, R82,
R86). -/
def PlacementRules : Prop :=
  ∀ (s : State) (k : Nat) (gd ga gb : GReg) (d15 : BitVec 15) (d17 : BitVec 17) (one rot : Bool) (n e : BitVec 12)
    (c13 : BitVec 13), coreFree s k = true →
    let jumps : List Instr := [.bEq k false ga gb d15 true, .bNe k false ga gb d15 true, .bLt k false ga gb d15 true,
      .bGe k false ga gb d15 true, .bLtu k false ga gb d15 true, .bGeu k false ga gb d15 true, .jmpL k false gd d17 true,
      .jmpLr k false gd ga true]
    let others : List Instr := [.eret k false true, .trap k false c13 true, .loopI k false one rot n e true,
      .loopR k false one rot ga e true]
    ((s.core k).br.isSome = true → ∀ i ∈ jumps ++ others, FaultsOut s k i .A (illegal 2)) ∧
    (inLoopTail (s.core k) = true → ∀ i ∈ jumps, FaultsOut s k i .A (illegal 2)) ∧
    (∀ i ∈ [Instr.bEq k true ga gb d15 true, .jmpL k true gd d17 true, .jmpLr k true gd ga true,
       .loopI k true one rot n e true, .loopR k true one rot ga e true, .ieOff k true true, .ieOn k true true,
       .eret k true true, .trap k true c13 true], FaultsOut s k i .B (illegal 1))

/-- A loop setup sets LBk, LEk, LCk and ROTk with latency 1; with a count of 0 issue continues after the loop; an END of 0
raises ILLEGAL (R80). -/
def LoopSetup : Prop :=
  ∀ (s : State) (k : Nat) (one rot : Bool) (count e : BitVec 12) (ga : GReg), coreFree s k = true → (s.core k).br = none →
    let c := s.core k
    let base := if one then 0x0B else 0x08
    let sets (n : Word) : OpOut :=
      { wr := [(1, .ctl base n), (1, .ctl (base + 1) (BitVec.ofNat 32 ((c.pc + 16) % 65536))),
               (1, .ctl (base + 2) (BitVec.ofNat 32 ((c.pc + 16 * e.toNat) % 65536))),
               (1, .statBit (if one then 4 else 3) rot)],
        skip := if n = 0 then some ((c.pc + 16 * e.toNat + 16) % 65536) else none }
    (e ≠ 0 → IssuesOut s k (.loopI k false one rot count e true) (sets (count.zeroExtend 32)) ∧
             IssuesOut s k (.loopR k false one rot ga e true) (sets (readG c ga))) ∧
    (e = 0 → FaultsOut s k (.loopI k false one rot count e true) .A (illegal 1) ∧
             FaultsOut s k (.loopR k false one rot ga e true) .A (illegal 1))

/-- At a bundle at LEk with LCk of 1 or more the count decrements and control goes back, or falls through at a count of 1;
loop 1 acts first, and loop 0 acts there only when loop 1 did not go back; a loop with LCk of 0, or with LPEN of 0, does
nothing (R81). -/
def LoopBackEdge : Prop :=
  ∀ (s : State) (k : Nat), coreFree s k = true → (s.core k).br = none →
    bitOf (s.core k).stat.toNat 2 = true → (s.core k).pend = [] →
    bitOf (s.core k).stat.toNat 0 = true → (s.core k).maskSince = none → s.fld ⟨.coreDbg, k⟩ Reg.GVI_DBG_BKPT 0 1 = 0 →
    let c := s.core k
    let went (pc : Nat) (t : State) : Prop := (t.core k).pc = pc ∧ (t.core k).cnt = c.cnt + 1 ∧ t = { s with cores := t.cores }
    (c.pc = c.le1.toNat → 1 < c.lc1.toNat →
      Runs (.loopBackEdge k) s fun t => went c.lb1.toNat t ∧ (t.core k).lc1 = c.lc1 - 1 ∧ (t.core k).lc0 = c.lc0) ∧
    ((c.pc ≠ c.le1.toNat ∨ c.lc1 = 0) → c.pc = c.le0.toNat → 1 < c.lc0.toNat →
      Runs (.loopBackEdge k) s fun t => went c.lb0.toNat t ∧ (t.core k).lc0 = c.lc0 - 1 ∧ (t.core k).lc1 = c.lc1) ∧
    ((c.pc ≠ c.le1.toNat ∨ c.lc1 = 0) → c.pc = c.le0.toNat → c.lc0 = 1 →
      Runs (.loopBackEdge k) s fun t => went ((c.pc + 16) % 65536) t ∧ (t.core k).lc0 = 0 ∧ (t.core k).lc1 = c.lc1) ∧
    (c.pc = c.le1.toNat → c.lc1 = 1 → c.pc ≠ c.le0.toNat ∨ c.lc0 = 0 →
      Runs (.loopBackEdge k) s fun t => went ((c.pc + 16) % 65536) t ∧ (t.core k).lc1 = 0 ∧ (t.core k).lc0 = c.lc0) ∧
    (c.pc = c.le1.toNat → c.lc1 = 1 → c.pc = c.le0.toNat → 1 < c.lc0.toNat →
      Runs (.loopBackEdge k) s fun t => went c.lb0.toNat t ∧ (t.core k).lc1 = 0 ∧ (t.core k).lc0 = c.lc0 - 1) ∧
    (c.pc = c.le1.toNat → c.lc1 = 1 → c.pc = c.le0.toNat → c.lc0 = 1 →
      Runs (.loopBackEdge k) s fun t => went ((c.pc + 16) % 65536) t ∧ (t.core k).lc1 = 0 ∧ (t.core k).lc0 = 0) ∧
    ((c.pc ≠ c.le1.toNat ∨ c.lc1 = 0) → c.pc ≠ c.le0.toNat ∨ c.lc0 = 0 → loopNext c = (c, (c.pc + 16) % 65536)) ∧
    loopNext { c with stat := c.stat &&& ~~~4 } = ({ c with stat := c.stat &&& ~~~4 }, (c.pc + 16) % 65536)

/-- What taking a synchronous exception saves and leaves: EPC, ESTAT, ECAUSE, EADDR, the status bits, the pc, and that nothing
else of the core or of memory changes (R85, R86). -/
def ExceptionEntry : Prop :=
  ∀ (s : State) (k : Nat) (sl : Slot) (e : OpFault) (epc : Nat) (vres : Bool),
    (s.core k).pend = [] → bitOf (s.core k).stat.toNat 1 = false →
    let c := s.core k
    let t := coreSync s k sl e epc vres
    let d := t.core k
    d.epc = BitVec.ofNat 32 epc ∧
    d.estat = BitVec.ofNat 32 (c.stat.toNat % 32 + if vres then 256 else 0) ∧
    d.ecause = BitVec.ofNat 32 (e.cause + sl.code * 256 + e.detail % 65536 * 65536) ∧
    (e.cause ≠ 0x10 → d.eaddr = BitVec.ofNat 32 e.addr) ∧
    d.stat.getLsbD 0 = false ∧ d.stat.getLsbD 1 = true ∧ d.stat.getLsbD 2 = false ∧
    d.stat.getLsbD 3 = c.stat.getLsbD 3 ∧ d.stat.getLsbD 4 = c.stat.getLsbD 4 ∧
    d.pc = 0 ∧ d.br = none ∧ d.bundle = [] ∧ d.waiting = false ∧ d.g = c.g ∧ d.f = c.f ∧
    t.reg (pgCore k) Reg.GVC_LAST_ECAUSE = d.ecause ∧
    t.mem = s.mem ∧ ∀ j, j ≠ k → t.core j = s.core j

/-- PREEMPT is taken at a boundary that allows it and held while IE is 0 (R84, R88, R102); MASK_OVERRUN after 4,096 Tc of
masking (R94); FETCH_POISON ends the task and asks for a reload (R89). -/
def CoreEvents : Prop :=
  ∀ (s : State) (k : Nat), (s.core k).run = .running → (s.core k).pend = [] →
    let c := s.core k
    (s.fab.preempting.any (fun p => p.2 == k) = true → c.stat.getLsbD 0 = true → c.br = none → c.halted = false →
      Runs (.preempt k) s fun t =>
        (t.core k).ecause = 0x01 ∧ (t.core k).epc = BitVec.ofNat 32 c.pc ∧ (t.core k).pc = 0 ∧
        (t.core k).stat.getLsbD 1 = true ∧ (t.core k).stat.getLsbD 0 = false ∧ (t.core k).preempt = false ∧
        (t.core k).estat = BitVec.ofNat 32 (c.stat.toNat % 32 + if c.vresume then 256 else 0) ∧ t.mem = s.mem) ∧
    (s.fab.preempting.any (fun p => p.2 == k) = true → c.stat.getLsbD 0 = false →
      s.fld ⟨.coreDbg, k⟩ Reg.GVI_DBG_BKPT 0 1 = 0 →
      Gives (.preempt k) s (s.setCore k { c with preempt := true })) ∧
    (∀ since, c.maskSince = some since → since + 4096 ≤ s.airtime →
      Gives (.maskOverrun k) s (coreFail s k 0x21 0)) ∧
    (c.halted = false →
      Runs (.fetchPoison k) s fun t =>
        (t.core k).reload = true ∧ (t.core k).run = .idle ∧ t.part (pgCore k) = stTending ∧
        (t.reg (pgCore k) Reg.GVC_LAST_ECAUSE).toNat % 256 = 0x20)

/-- trap enters its handler with DETAIL k13 and EPC the next bundle; eret restores STAT from ESTAT and continues at EPC,
resuming a vector operation where VRESUME says so (R66, R86, R90). -/
def TrapAndReturn : Prop :=
  ∀ (s : State) (k : Nat) (c13 : BitVec 13), coreFree s k = true → (s.core k).br = none → (s.core k).pend = [] →
    let c := s.core k
    (bitOf c.stat.toNat 1 = false →
      Runs (.trap k false c13 true) s fun t =>
        (t.core k).ecause = BitVec.ofNat 32 (0x02 + c13.toNat * 65536) ∧ (t.core k).pc = 0 ∧
        (t.core k).epc = BitVec.ofNat 32 (loopNext c).2 ∧ (t.core k).estat = BitVec.ofNat 32 (c.stat.toNat % 32) ∧
        (t.core k).stat.getLsbD 0 = false ∧ (t.core k).stat.getLsbD 1 = true ∧ (t.core k).stat.getLsbD 2 = false ∧
        (t.core k).cnt = c.cnt + 1 ∧ (t.core k).g = c.g ∧ t.mem = s.mem) ∧
    Runs (.eret k false true) s fun t =>
      (t.core k).stat = BitVec.ofNat 32 (c.estat.toNat % 32) ∧ (t.core k).pc = c.epc.toNat ∧
      (t.core k).vresume = c.estat.getLsbD 8 ∧ (t.core k).epc = c.epc ∧ (t.core k).g = c.g ∧ (t.core k).f = c.f ∧
      t.mem = s.mem

/-- On a terminal cause the core is idle, GVC_LAST_ECAUSE holds the cause, and the task has failed with it (R89). -/
def TerminalCause : Prop :=
  ∀ (s : State) (k cause detail : Nat),
    let t := coreFail s k cause detail
    (t.core k).run = .idle ∧ (t.core k).waiting = false ∧ (t.core k).bundle = [] ∧ (t.core k).br = none ∧
    (t.core k).maskSince = none ∧
    t.reg (pgCore k) Reg.GVC_LAST_ECAUSE = BitVec.ofNat 32 (cause + detail % 65536 * 65536) ∧
    (∀ it, s.coreItem k = some it →
      ∃ j, j ∈ t.fab.items ∧ j.sn = it.sn ∧ j.phase = .completed ∧ j.ended = some ⟨false, cause⟩)

/-- The near scalar loads: width, extension, alignment and latency (R62, R69, R73), or LOAD_POISON or ACCESS_FAULT (R70, R72,
R86). -/
def ScalarLoads : Prop :=
  ∀ (s : State) (k : Nat) (rd base : GReg) (off : BitVec 16), coreFree s k = true →
    let c := s.core k
    NearLoad s k (.ldB k rd base off true) rd base off.toInt 1 (fun x => (BitVec.ofNat 8 x).signExtend 32) [] ∧
    NearLoad s k (.ldBu k rd base off true) rd base off.toInt 1 (fun x => BitVec.ofNat 32 x) [] ∧
    NearLoad s k (.ldH k rd base off true) rd base off.toInt 2 (fun x => (BitVec.ofNat 16 x).signExtend 32) [] ∧
    NearLoad s k (.ldHu k rd base off true) rd base off.toInt 2 (fun x => BitVec.ofNat 32 x) [] ∧
    NearLoad s k (.ldW k rd base off true) rd base off.toInt 4 (fun x => BitVec.ofNat 32 x) [] ∧
    NearLoad s k (.ldWPm k rd base off true) rd base 0 4 (fun x => BitVec.ofNat 32 x)
      [(1, .g (physG c base) (readG c base + off.signExtend 32))]

/-- The near scalar stores and the postmodify forms: the bytes that leave and the base register that moves on (R69, R74). -/
def ScalarStores : Prop :=
  ∀ (s : State) (k : Nat) (rs base : GReg) (off : BitVec 16), coreFree s k = true →
    let c := s.core k
    let x := (readG c rs).toNat
    NearStore s k (.stB k rs base off true) base off.toInt 1 (leBytes 1 x) [] ∧
    NearStore s k (.stH k rs base off true) base off.toInt 2 (leBytes 2 x) [] ∧
    NearStore s k (.stW k rs base off true) base off.toInt 4 (leBytes 4 x) [] ∧
    NearStore s k (.stWPm k rs base off true) base 0 4 (leBytes 4 x)
      [(1, .g (physG c base) (readG c base + off.signExtend 32))]

/-- Where a core's store goes: into the memory it owns at once, or into its store-gather buffer; every other byte of memory
reads as before (R73, R74, R75). -/
def CoreStoreEffect : Prop :=
  ∀ (s : State) (k a : Nat) (bs : List Byte), s.mem.wf = true → s.links.rv = [] → bs.length ≤ 64 → a % 64 + bs.length ≤ 64 →
    (ownData k a = true → (s.region a).isLine = false →
      (∀ i, i < bs.length → s.serve (a + i) = .yes) →
      let t := coreStore s k a bs
      (∀ i, i < bs.length → memByte t.mem.cells (a + i) = bs.getD i 0) ∧
      (∀ x, x < a ∨ a + bs.length ≤ x → memByte t.mem.cells x = memByte s.mem.cells x)) ∧
    (ownData k a = false → bs ≠ [] →
      ((s.core k).sg.any (fun e => e.blk == lineOf a) = true ∨ (s.core k).sg.length < 16) →
      let t := coreStore s k a bs
      t.mem = s.mem ∧ ∀ i, i < bs.length → sgByte (t.core k) (a + i) = some (bs.getD i 0))

/-- What a core's load changes and answers: memory as before, and the bytes of its own data memory unless one is poisoned
(R72, R73, R75). -/
def CoreLoadEffect : Prop :=
  ∀ (s : State) (k a n : Nat),
    let r := coreLoad s k a n
    (∀ x, memByte r.1.mem.cells x = memByte s.mem.cells x) ∧ r.1.fab = s.fab ∧ r.1.hostMem = s.hostMem ∧
    (∀ bs, r.2 = some bs → bs.length = n) ∧
    (ownData k a = true → ownData k (a + n - 1) = true → (s.core k).sg = [] →
      r.1 = s ∧
      ((∀ i, i < n → s.readsBad (a + i) = false) → r.2 = some (memGets s.mem.cells a n)) ∧
      (∀ i, i < n → s.readsBad (a + i) = true → r.2 = none))

/-- csave, crest, asave, arest and settle: what they store, restore and write (R74, R76, R95, R131, R132). -/
def BlocksAndImages : Prop :=
  ∀ (s : State) (k : Nat) (gd base : GReg) (fs : FReg) (h a : Bool) (o5 : BitVec 5) (m : BitVec 16) (off : BitVec 16),
    coreFree s k = true →
    let c := s.core k
    let blk := nearEa c base (64 * o5.toNat)
    let img := nearEa c base off.toInt
    IssuesG s k (.mfr k gd fs h true) gd 4 (BitVec.ofNat 32 ((readF c fs).toNat / (if h then 2 ^ 32 else 1) % 2 ^ 32)) ∧
    Gives (.settle k true) s (issued (settleCore (taken s k) k) k {}) ∧
    StoreTo s k (.asave k a base off true) (nearCheck s k img 640 64)
      ((accRead c a).flatMap fun L => leBytes 5 L.re.toNat ++ leBytes 5 L.im.toNat) [] ∧
    LoadFrom s k (.arest k a base off true) (nearCheck s k img 640 64) 640 ⟨0x12, 0, img⟩ (fun bs =>
      [(4, .accLoad a ((List.range 64).map fun j =>
        (j, ⟨BitVec.ofNat 40 (ofLe ((bs.drop (10 * j)).take 5)), BitVec.ofNat 40 (ofLe ((bs.drop (10 * j + 5)).take 5))⟩)))]) ∧
    (m.getLsbD 15 = false → ∀ d, nearCheck s k blk 64 4 = .ok d →
      Gives (.csave k o5 base m true) s
        (issued ((blockWords m).foldl (fun t n =>
          coreStore t k (d + 4 * n) (leBytes 4 ((readCtl c (blockSel.getD n 0)).getD 0).toNat)) (taken s k)) k {}) ∧
      ∀ t ws, crestRead k d (blockWords m) (taken s k) = (t, some ws) →
        Gives (.crest k o5 base m true) s (issued t k { wr := ws })) ∧
    (m.getLsbD 15 = true →
      FaultsOut s k (.csave k o5 base m true) .M (illegal 1) ∧ FaultsOut s k (.crest k o5 base m true) .M (illegal 1))

/-- A store-gather entry drains into memory and leaves the buffer (R74, R76). -/
def GatherDrain : Prop :=
  ∀ (s : State) (k e : Nat) (x : SgEntry), (s.core k).sg[e]? = some x → s.serve x.blk = .yes →
    let t := (s.setCore k { s.core k with sg := (s.core k).sg.eraseIdx e }).writeSome x.blk x.bytes
    Gives (.storeGatherDrain k e) s t.1 ∧ (t.1.core k).sg = (s.core k).sg.eraseIdx e ∧ t.1.fab = s.fab ∧
    ((s.core k).sg.length ≤ 16 → ((settleCore s k).core k).sg = [] ∧ ((settleCore s k).core k).rb = [])

/-- done, wait.task and yield.pre: how the task ends or is suspended and the core becomes idle (R96, R99, R103). -/
def TaskEnds : Prop :=
  ∀ (s : State) (k : Nat) (status : Byte), coreFree s k = true → (s.core k).pend = [] → (s.core k).br = none →
    let idle (t : State) : Prop := (t.core k).run = .idle ∧ (t.core k).waiting = false ∧ (t.core k).bundle = [] ∧
      (t.core k).sg = [] ∧ (t.core k).rb = []
    ((s.core k).sg.length ≤ 16 →
      Runs (.done k status true) s fun t => idle t ∧
        ∀ it, s.coreItem k = some it →
          ∃ j, j ∈ t.fab.items ∧ j.sn = it.sn ∧ j.phase = .completed ∧ j.ended = some ⟨true, status.toNat⟩) ∧
    ((s.core k).sg.length ≤ 16 → (s.core k).stat.getLsbD 1 = true →
      Runs (.yieldPre k true) s fun t => idle t ∧
        ∀ it, s.coreItem k = some it →
          (∃ j, j ∈ t.fab.items ∧ j.sn = it.sn ∧ j.phase = .suspended ∧ j.ended = it.ended) ∧
          it.taskid.toNat ∈ (t.core k).suspended) ∧
    ((s.core k).stat.getLsbD 0 = true →
      Runs (.waitTask k true) s fun t =>
        (t.core k).run = .idle ∧ (t.core k).g = (s.core k).g ∧ t.mem = s.mem ∧ (∀ j, j ≠ k → t.core j = s.core j)) ∧
    ((s.core k).stat.getLsbD 1 = false → FaultsOut s k (.yieldPre k true) .M (illegal 1)) ∧
    ((s.core k).stat.getLsbD 0 = false → FaultsOut s k (.waitTask k true) .M (illegal 5))

/-- wait.ev waits until its entries match and then returns the mask of the matched ones (R86, R101, R294). -/
def WaitForEvents : Prop :=
  ∀ (s t : State) (k : Nat) (rd rs : GReg) (n : Nat) (any : Bool) (d : Nat) (bs : List Byte) (it : Item),
    coreFree s k = true → (s.core k).stat.getLsbD 0 = true → 1 ≤ n → n ≤ 4 →
    s.coreItem k = some it → it.wait = none → s.item? it.sn = some it →
    nearCheck s k (readG (s.core k) rs).toNat (16 * n) 16 = .ok d →
    coreLoad (taken s k) k d (16 * n) = (t, some bs) →
    let imm : BitVec 11 := BitVec.ofNat 11 (n + if any then 8 else 0)
    let entries : List (List Word) := (List.range n).map fun j =>
      (List.range 4).map fun w => BitVec.ofNat 32 (ofLe ((bs.drop (16 * j + 4 * w)).take 4))
    let w := drainHeld ⟨(readG (s.core k) rs).toNat, entries, any, []⟩ it.heldEv
    (w.1.met = true →
      Runs (.waitEv k rd rs imm true) s fun u =>
        (u.core k).waiting = false ∧ (u.core k).cnt = (s.core k).cnt + 1 ∧
        (⟨(s.core k).cnt + 4, .g (physG (s.core k) rd) w.1.mask⟩ : Pend) ∈ (u.core k).pend ∧
        ∃ j, u.item? it.sn = some j ∧ j.wait = none ∧ j.inWait = false ∧ j.heldEv = w.2) ∧
    (w.1.met = false → dDeadline it.words = 0 ∨ s.airtime < dDeadline it.words →
      Runs (.waitEv k rd rs imm true) s fun u =>
        (u.core k).waiting = true ∧ (u.core k).bundle = [.waitEv k rd rs imm true] ∧ (u.core k).cnt = (s.core k).cnt ∧
        ∃ j, u.item? it.sn = some j ∧ j.wait = some w.1 ∧ j.inWait = true ∧ j.heldEv = w.2)

/-- Whole-vector loads and stores: the bytes and the registers (R127, R138). -/
def VectorLoadsStores : Prop :=
  ∀ (s : State) (k : Nat) (G : Grp) (v : BitVec 3) (gb : GReg) (off : BitVec 16), coreFree s k = true →
    let c := s.core k
    let a := nearEa c gb off.toInt
    let a0 := nearEa c gb 0
    let step : Nat × RegWrite := (1, .g (physG c gb) (readG c gb + off.signExtend 32))
    let put (long : Bool) (g : Grp) (n : Nat) (bs : List Byte) : List (Nat × RegWrite) :=
      (byteWrites (grpRegs c long g) ((List.range n).map fun i => (i, bs.getD i 0))).map fun w => (4, w)
    let get (long : Bool) (g : Grp) (n : Nat) : List Byte :=
      (List.range n).map fun i => BitVec.ofNat 8 (getElem c (grpRegs c long g) 8 i)
    LoadFrom s k (.vldQ k G gb off true) (nearCheck s k a 64 4) 64 ⟨0x12, 0, a⟩ (put false G 64) ∧
    LoadFrom s k (.vldQPm k G gb off true) (nearCheck s k a0 64 4) 64 ⟨0x12, 0, a0⟩ (fun bs => put false G 64 bs ++ [step]) ∧
    LoadFrom s k (.vldV k v gb off true) (nearCheck s k a 256 64) 256 ⟨0x12, 0, a⟩ (put true (longG v) 256) ∧
    StoreTo s k (.vstQ k G gb off true) (nearCheck s k a 64 4) (get false G 64) [] ∧
    StoreTo s k (.vstQPm k G gb off true) (nearCheck s k a0 64 4) (get false G 64) [step] ∧
    StoreTo s k (.vstV k v gb off true) (nearCheck s k a 256 64) (get true (longG v) 256) [] ∧
    (∀ f, farAddr c gb off.toInt = .ok f →
      LoadFrom s k (.vldfQ k G gb off true) (farCheck s f 64 4) 64 ⟨0x12, f / 2 ^ 32 % 65536, f⟩ (put false G 64) ∧
      StoreTo s k (.vstfQ k G gb off true) (farCheck s f 64 4) (get false G 64) [])

/-- Loads and stores of block floating point: the packed bytes and their unpacking (R112, R114, R127). -/
def BfpLoadsStores : Prop :=
  ∀ (s : State) (k : Nat) (v : BitVec 3) (gb : GReg) (off : BitVec 16), coreFree s k = true →
    let c := s.core k
    let n := vN c
    let P := min (vCount c) 5
    let len := P * (1 + 3 * n)
    let regs := grpRegs c true (longG v)
    let a := nearEa c gb off.toInt
    let a0 := nearEa c gb 0
    let step : Nat × RegWrite := (1, .g (physG c gb) (readG c gb + BitVec.ofNat 32 len))
    let put (bs : List Byte) : List (Nat × RegWrite) :=
      (bfpOut regs ((List.range P).map fun p => bfpUnpack n ((bs.drop (p * (1 + 3 * n))).take (1 + 3 * n)))).wr.map
        fun w => (4, w.2)
    let blocks := (List.range P).map fun p =>
      bfpPack (vWrap c) n (bfpExp c regs p) ((List.range 24).map fun j => bfpMant c regs p j)
    let sat : List (Nat × RegWrite) := if blocks.any (·.2) then [(1, .satf)] else []
    (vET c = 7 → 1 ≤ n → n ≤ 16 →
      LoadFrom s k (.vldB k v gb off true) (vCheck s k false a len 1) len ⟨0x12, 0, a⟩ put ∧
      LoadFrom s k (.vldBPm k v gb 0 true) (vCheck s k false a0 len 1) len ⟨0x12, 0, a0⟩ (fun bs => put bs ++ [step]) ∧
      StoreTo s k (.vstB k v gb off true) (vCheck s k false a len 1) (blocks.flatMap (·.1)) sat ∧
      StoreTo s k (.vstBPm k v gb 0 true) (vCheck s k false a0 len 1) (blocks.flatMap (·.1)) (sat ++ [step]) ∧
      (∀ f, farAddr c gb off.toInt = .ok f →
        LoadFrom s k (.vldfB k v gb off true) (vCheck s k true f len 1) len ⟨0x12, f / 2 ^ 32 % 65536, f⟩ put ∧
        StoreTo s k (.vstfB k v gb off true) (vCheck s k true f len 1) (blocks.flatMap (·.1)) sat)) ∧
    (vET c ≠ 7 ∨ n = 0 ∨ 16 < n →
      ∀ i ∈ [Instr.vldB k v gb off true, .vstB k v gb off true, .vldBPm k v gb 0 true, .vstBPm k v gb 0 true,
        .vldfB k v gb off true, .vstfB k v gb off true], FaultsOut s k i .M (illegal 1))

/-- Strided and indexed element accesses: the addresses in order and the element at which a fault stops (R128, R129, R133). -/
def ElementAccesses : Prop :=
  ∀ (s : State) (k : Nat) (long : Bool) (v ix : Grp) (base stride : GReg), coreFree s k = true →
    let c := s.core k
    let w := etBits (vET c)
    let n := effCount c long [vET c]
    let m := min n (if long then 64 else 16)
    let sEa (i : Nat) : Nat := ((readG c base).toNat + i * (readG c stride).toNat) % 2 ^ 32
    let xEa (i : Nat) : Nat := ((readG c base).toNat + getElem c (grpRegs c long ix) 32 i) % 2 ^ 32
    let elem (i : Nat) : Nat := getElem c (grpRegs c long v) w i
    let load (i : Instr) (r : VRun) : Prop := r.bad = none →
      Gives i s (issued r.st k { wr := (elemWrites (grpRegs c long v) w r.got).map fun e => (4, e) })
    let store (i : Instr) (r : VRun) : Prop := r.bad = none → Gives i s (issued r.st k {})
    vET c < 7 → (long = true → v.toNat % 4 = 0 ∧ ix.toNat % 4 = 0) →
    load (.vlds k long v base stride true) (vElems k none (w / 8) sEa n 0 (taken s k)) ∧
    store (.vsts k long v base stride true) (vElems k (some elem) (w / 8) sEa n 0 (taken s k)) ∧
    (v ≠ ix → load (.vgth k long v base ix true) (vElems k none (w / 8) xEa m 0 (taken s k))) ∧
    store (.vsct k long v base ix true) (vElems k (some elem) (w / 8) xEa m 0 (taken s k)) ∧
    (v = ix → FaultsOut s k (.vgth k long v base ix true) .V (illegal 1))

/-- Accumulator moves, reductions and searches: their results (R121, R122). -/
def AccumulatorAndSearch : Prop :=
  ∀ (s : State) (k : Nat) (long ad cj a abs : Bool) (tb : BitVec 2) (vd va vb : Grp) (sh : BitVec 6) (fd : FReg),
    coreFree s k = true →
    let c := s.core k
    let does (i : Instr) (r : Except OpFault OpOut) : Prop :=
      match r with
      | .ok o => IssuesOut s k i o
      | .error e => e.cause = 0x10 ∧ FaultsOut s k i .V e
    does (.cmac k long ad tb cj va vb true) (cMacOp c true long ad tb cj va vb) ∧
    does (.cmul k long ad tb cj va vb true) (cMacOp c false long ad tb cj va vb) ∧
    does (.ardC k long vd a sh true) (ardCOp c long vd a sh) ∧
    does (.ardV k vd a sh true) (ardVOp c vd a sh) ∧
    does (.vminIx k long fd va abs true) (vSearchOp c false long fd va abs) ∧
    does (.vmaxIx k long fd va abs true) (vSearchOp c true long fd va abs) ∧
    does (.vmin2Ix k long fd va abs true) (vMin2Op c long fd va abs) ∧
    (vET c < 7 → IssuesOut s k (.aclr k ad true)
      { wr := [(6, .accVis ad ((List.range 64).map fun j => (j, Lane.zero)))],
        chain := [(ad, (List.range 64).map fun j => (j, Lane.zero))] })

/-- Complex multiply and multiply-accumulate of 16-bit elements: exact products, 40-bit accumulation (R122, R123). -/
def ComplexMac : Prop :=
  ∀ (c : Core) (mac long ad cj : Bool) (va vb : Grp), vET c = 5 → vWrap c = false →
    (long = true → va.toNat % 4 = 0 ∧ vb.toNat % 4 = 0) →
    ∃ o, cMacOp c mac long ad 0 cj va vb = .ok o ∧ ∃ ls, o.chain = [(ad, ls)] ∧
      ls.length = min (vCount c) (if long then 64 else 16) ∧
      ∀ j, j < ls.length →
        let p := getElem c (grpRegs c long va) 32 j
        let q := getElem c (grpRegs c long vb) 32 j
        let ar := sx 16 p
        let ai := sx 16 (p / 65536)
        let br := sx 16 q
        let bi := if cj then -sx 16 (q / 65536) else sx 16 (q / 65536)
        let old := if mac then (if ad then c.ch1 else c.ch0).getD j Lane.zero else Lane.zero
        let clip (x : Int) : Int := max (-(2 ^ 39)) (min (2 ^ 39 - 1) x)
        ls[j]? = some (j, ⟨BitVec.ofInt 40 (clip (old.re.toInt + (ar * br - ai * bi))),
                           BitVec.ofInt 40 (clip (old.im.toInt + (ar * bi + ai * br)))⟩)

/-- The checks that every engine command makes before its own: opcode and version, poison, context, and the STATUS of each
failure (R141, R142). -/
def EngineHeader : Prop :=
  ∀ (s : State) (cls i op : Nat) (it : Item) (h : List Byte),
    let late (dl : Nat) : Prop := dl ≠ 0 ∧ dl ≤ s.airtime
    let a := dCmdAddr it.words
    (late (dDeadline it.words) → s.engBegin cls i it op = .ends 0x05) ∧
    (¬late (dDeadline it.words) → s.read a 32 = .ok h →
      let opc := ofLe (h.take 1)
      let size := ofLe ((h.drop 2).take 1)
      (headOk cls h = false → s.engBegin cls i it op = .ends 0x03) ∧
      (headOk cls h = true → late (ofLe ((h.drop 8).take 8)) → s.engBegin cls i it op = .ends 0x05) ∧
      (headOk cls h = true → ¬late (ofLe ((h.drop 8).take 8)) → h.length = 32 → (opc, size) ∉ engOps cls →
        s.engBegin cls i it op = .ends 0x03)) ∧
    (¬late (dDeadline it.words) → s.read a 32 = .access → s.engBegin cls i it op = .ends 0x02) ∧
    (∀ x, ¬late (dDeadline it.words) → s.read a 32 = .poison x →
      ∃ st, s.engBegin cls i it op = .ends st ∧ st % 256 = 0x01)

/-- How a command ends: it leaves its window, is tallied, its event goes to its task's core, and its outcome is recorded
(R142, R143). -/
def EngineCompletion : Prop :=
  ∀ (s : State) (it : Item) (i st k g : Nat) (tid : Word),
    it.issuer = .core k tid g → tid ≠ 0 → (s.core k).waiting = false → st < 256 → s.item? it.sn = some it →
    let cls := (s.qcb it.q).cls
    2 ≤ cls → cls ≤ 8 →
    let t := s.engEnd it cls i st
    let n := lookupD 0 ((0x10 + cls) * 4096 + i) s.fab.seqs
    t.fab.evs = s.fab.evs ++
      [⟨evWord (0x10 + cls) i n (BitVec.ofNat 32 (0x30 * 2 ^ 24 + st * 2 ^ 16 + g % 2 ^ 16)), .task tid⟩] ∧
    (t.core k).tagsOut = (s.core k).tagsOut.filter (· != g) ∧
    t.reg (engPage cls i) (engTallyRegs cls).1 =
      BitVec.ofNat 32 (min ((s.reg (engPage cls i) (engTallyRegs cls).1).toNat + 1) (2 ^ 32 - 1)) ∧
    t.mem = s.mem ∧ it.sn ∉ t.window cls i ∧
    ∃ j, t.item? it.sn = some j ∧ j.phase = .completed ∧ j.ended = some ⟨true, st⟩

/-- Opening, closing, saving and restoring contexts; and commands shed because they are late (R142, R145, R147). -/
def ContextCommands : Prop :=
  ∀ (s : State) (cls i sn : Nat) (it : Item),
    (s.engTurn cls i sn = some it → ¬(dDeadline it.words ≠ 0 ∧ dDeadline it.words ≤ s.airtime) →
      (∀ keep, it.kind = .esave keep →
        let r := engEsave s it cls i keep
        Gives (.engineEsave cls i sn) s (r.1.engEnd it cls i r.2) ∧
        (ctxSlots cls = 0 → r = (s, 0x03)) ∧
        (∀ h, ctxSlots cls ≠ 0 → s.read (dCmdAddr it.words) 4 = .ok h →
          let id := ofLe (h.take 2)
          (s.ctxHere cls i it.fn id = none → r = (s, 0x04)) ∧
          (∀ c, s.ctxHere cls i it.fn id = some c →
            let w := s.emit [(dCmdAddr it.words, leBytes 4 (c.ctx + 2 ^ 16 * cls) ++ leBytes 4 (c.size / 64) ++
              leBytes 56 0 ++ memGets c.img 0 c.size)]
            w.2 = true → r = (if keep then w.1 else w.1.dropCtx c, 0x00)))) ∧
      (it.kind = .erest →
        let r := engErest s it cls i
        Gives (.engineErest cls i sn) s (r.1.engEnd it cls i r.2) ∧
        (∀ h b, ctxSlots cls ≠ 0 → s.read (dCmdAddr it.words) 64 = .ok h → bF h 0 16 16 = cls → cls < 16 →
          bZero h 8 56 = true → 64 * bW h 4 ≤ 64 + 64 * 65536 →
          s.read (dCmdAddr it.words + 64) (64 * bW h 4) = .ok b → imageOk cls (64 * bW h 4) b = true →
          r.2 = 0x00 ∧ r.1.mem.cells = s.mem.cells ∧
          ∃ c, c ∈ r.1.ctxs ∧ c.cls = cls ∧ c.inst = i ∧ c.fn = it.fn ∧ c.ctx = bF h 0 0 16 ∧ c.size = 64 * bW h 4 ∧
            c.img = memPuts [] 0 b))) ∧
    (s.engTurn cls i sn = some it → it.kind ≠ .block → dDeadline it.words ≠ 0 → dDeadline it.words ≤ s.airtime →
      Gives (.engineEsave cls i sn) s (s.engEnd it cls i 0x05) ∧ Gives (.engineErest cls i sn) s (s.engEnd it cls i 0x05)) ∧
    (s.item? sn = some it → dKind it.words = 1 → it.started = false → dDeadline it.words ≠ 0 →
      dDeadline it.words ≤ s.airtime → it.phase = .dispatched → it.exec = some (.engine cls i) →
      Gives (.cmdShed sn) s (s.engEnd it cls i 0x05))

/-- The HARQ scan marks as LOST the entries whose stored block lies in a channel out of service (R243). -/
def HarqScanMarks : Prop :=
  ∀ (s : State) (ch : Nat), s.ready pgHqd = true → ch < 128 → s.serving ⟨.hbmPc, ch⟩ = false →
    Gives (.harqScan ch) s (s.harqScan ch) ∧
    (s.fld pgHqd Reg.HQD_ENTRIES 0 17 = 0 →
      s.harqScan ch = s.setReg pgHqd Reg.HQD_SCAN (BitVec.ofNat 32 (2 * ch))) ∧
    (∀ ws, s.fld pgHqd Reg.HQD_ENTRIES 0 17 = 1 → s.hqEntry 0 = .ok ws →
      (∀ r, r < 160 → hqStored ws r = true →
        s.region ((ws.getD 2 0).toNat + 2 ^ 32 * (ws.getD 3 0).toNat + r * (ws.getD 4 0).toNat) ≠ .hbmLocal ch) →
      s.harqScan ch = s.setReg pgHqd Reg.HQD_SCAN (BitVec.ofNat 32 (2 * ch))) ∧
    (∀ ws r, s.fld pgHqd Reg.HQD_ENTRIES 0 17 = 1 → s.hqEntry 0 = .ok ws → hqValid ws = true → r < 160 →
      hqStored ws r = true → wfld ws 5 31 1 = 0 →
      s.region ((ws.getD 2 0).toNat + 2 ^ 32 * (ws.getD 3 0).toNat + r * (ws.getD 4 0).toNat) = .hbmLocal ch →
      s.harqScan ch = ((s.setReg pgHqd Reg.HQD_SCAN (BitVec.ofNat 32 (2 * ch))).hqWrite 0
        (BitVec.ofNat 32 (setBits (ws.getD 0 0).toNat 0 2 2) :: ((ws.take 6).drop 1 ++ List.replicate 10 0))).count
          pgHqd Reg.HQD_TALLY_LOST 1)

/-- An enqueue is REFUSED by a queue that is disabled, of another owner or of another kind; otherwise ACCEPTED with a sequence
number, or held or dropped at a full queue as the queue's OVERFLOW says (R265, R266, R268, R281). -/
def EnqueueOutcomes : Prop :=
  ∀ (s : State) (q fn : Nat) (d : List Word), s.fabOn = true → isSvc q = false → d.length = 16 →
    let c := s.qcb q
    let t := s.enqueue q fn d .notify .block .other true
    Gives (.enqueue q fn d) s t.1 ∧
    (c.enabled = false ∨ c.owner ≠ fn ∨ kindAccepted c.cls (dKind d) = false → t = (s, .refused)) ∧
    (c.enabled = true → c.owner = fn → kindAccepted c.cls (dKind d) = true → c.overflow ≠ 2 →
      (s.fullFor q d = false → t.2 = .accepted ∧ t.1.fab.items.length = s.fab.items.length + 1 ∧ t.1.mem = s.mem ∧
        t.1.fab.nextSn = s.fab.nextSn + 1 ∧
        ∃ it ∈ t.1.fab.items, it.sn = s.fab.nextSn ∧ it.q = q ∧ it.words = d ∧ it.fn = fn ∧ it.taskid = 0) ∧
      (s.fullFor q d = true → c.overflow = 0 →
        t.2 = .held ∧ t.1.fab.items = s.fab.items ∧ t.1.fab.held = s.fab.held ++ [⟨q, fn, d, .notify, .block, .other⟩]) ∧
      (s.fullFor q d = true → c.overflow = 1 → c.noteEn = false → t.2 = .dropped ∧ t.1.fab.items = s.fab.items ∧
        t.1.fab.held = s.fab.held))

/-- A held descriptor enters its queue once there is room, is dropped when the queue is disabled, and stays otherwise (R283).
-/
def StallEndOutcomes : Prop :=
  ∀ (s : State) (q : Nat) (h : Held), s.fabOn = true → s.fab.held.find? (fun x => x.q == q) = some h → h.who = .other →
    ((s.qcb q).enabled = true → s.fullFor q h.words = false →
      Runs (.stallEnd q) s fun t => t.fab.held = s.fab.held.erase h ∧
        ∃ it ∈ t.fab.items, it.sn = s.fab.nextSn ∧ it.q = q ∧ it.words = h.words ∧ it.fn = h.fn) ∧
    ((s.qcb q).enabled = false →
      Runs (.stallEnd q) s fun t => t.fab = { s.fab with held := s.fab.held.erase h }) ∧
    ((s.qcb q).enabled = true → s.fullFor q h.words = true → Gives (.stallEnd q) s s)

/-- An event reaches the task or queue it names, in the order of its producer; one whose task is gone is tallied (R288, R294).
-/
def EventDelivery : Prop :=
  ∀ (s : State) (n : Nat) (e : Ev), s.fabOn = true → s.fab.evs[n]? = some e →
    (∀ x ∈ s.fab.evs.take n, ¬(x.word.toNat / 2 ^ 44 % 2 ^ 20 = e.word.toNat / 2 ^ 44 % 2 ^ 20 ∧ x.dest = e.dest)) →
    let s1 : State := { s with fab := { s.fab with evs := s.fab.evs.eraseIdx n } }
    Gives (.event n) s (s1.deliver e) ∧
    (∀ tid it, e.dest = .task tid → s.task? tid = some it → it.phase ≠ .completed → it.wait = none →
      (∀ k, it.exec = some (.core k) → (s.core k).waiting = false) →
      Runs (.event n) s fun t => t = { s with fab := { s.fab with evs := s.fab.evs.eraseIdx n, items := t.fab.items } } ∧
        ∀ j ∈ t.fab.items, j.sn = it.sn → ∃ i ∈ s.fab.items, i.sn = it.sn ∧ j = { i with heldEv := i.heldEv ++ [e.word] }) ∧
    (∀ tid, e.dest = .task tid → s.task? tid = none →
      Gives (.event n) s (s1.count pgFabric Reg.TFB_TALLY_NOTEDROP 1)) ∧
    (∀ q ws, e.dest = .queue q ws → Gives (.event n) s (s1.note q ws))

/-- A descriptor that an event releases becomes ready with the event in its words 4 and 5 (R267). -/
def TriggerRelease : Prop :=
  ∀ (s : State) (it : Item) (w : DWord), (s.qcb it.q).overflow ≠ 2 → s.item? it.sn = some it → it.words.length = 16 →
    (s.qcb it.q).order = 0 → s.links.rv = [] →
    let t := s.releaseTrigger it w
    ∃ j, t.item? it.sn = some j ∧ j.phase = .ready ∧ j.ev = some w ∧
      j.words.getD 4 0 = BitVec.ofNat 32 w.toNat ∧ j.words.getD 5 0 = BitVec.ofNat 32 (w.toNat / 2 ^ 32) ∧
      (∀ x, x < 16 → x ≠ 4 → x ≠ 5 → j.words.getD x 0 = it.words.getD x 0)

/-- A task whose work is done is released, or its chain is taken (R276, R277). -/
def TaskRelease : Prop :=
  ∀ (s : State) (tid : Word) (it : Item), s.task? tid = some it → s.fabOn = true →
    (s.mayRelease it = true → it.freed = false → it.chains = false →
      Runs (.taskRelease tid) s fun t => t = (s.releaseRes it).releaseEnd it ∧ ∀ i ∈ t.fab.items, i.sn ≠ it.sn) ∧
    (s.mayRelease it = true → it.freed = false → it.chains = true →
      Runs (.taskRelease tid) s fun t => ∃ j ∈ t.fab.items, j.sn = it.sn ∧ j.freed = true ∧ j.handles = [] ∧
        j.save = none ∧ j.heldEv = []) ∧
    (it.phase = .completed → it.freed = true → it.chains = true → s.fab.held.any (fun h => h.who == .chain it.sn) = false →
      ∀ ws, s.readFor (s.qcb it.q).owner (dChainAddr it.words) 16 = some ws →
      let r := s.enqueue (dChainQ it.words) (s.qcb it.q).owner ws .notify .block (.chain it.sn) true
      (r.2 = .accepted ∨ r.2 = .dropped → Gives (.chainedEnqueue tid) s (r.1.releaseEnd it)) ∧
      (r.2 = .held → Gives (.chainedEnqueue tid) s r.1) ∧
      (r.2 = .refused → Gives (.chainedEnqueue tid) s ((r.1.chainSkip it).releaseEnd it)))

/-- Pre-emption is ordered of a core whose task allows it; a suspended task is resumed on its core (R278, R279). -/
def PreemptAndResume : Prop :=
  ∀ (s : State) (sn k : Nat) (it : Item), s.fabOn = true → s.quiet = false →
    (∀ v, s.tilthOn = true → s.item? sn = some it → it.phase = .ready → it.blocked = false → (s.qcb it.q).cls = 0 →
      (s.qcb it.q).preempts = true → (∀ j ∈ s.readyItems 0, s.before j it = false) →
      (∀ x ∈ classExecs 0, ¬(s.execFree x = true ∧ s.eligible it x = true)) →
      s.victimOf it k = some v →
      (∀ n w, n < 272 → s.victimOf it n = some w → w.1 < v.1 ∨ (w.1 = v.1 ∧ w.2 ≤ v.2)) →
      (∀ p ∈ s.fab.preempting, p.1 ≠ sn) →
      Runs (.preemptDecision sn k) s fun t =>
        t.fab.preempting = s.fab.preempting ++ [(sn, k)] ∧ t.cores = s.cores ∧ t.fab.items = s.fab.items) ∧
    (s.bestSuspended k = some it → s.serving (pgCore k) = true → s.execFree (.core k) = true →
      (∀ j ∈ s.readyItems 0, s.itemLevel j < s.itemLevel it → s.eligible j (.core k) = false) →
      Runs (.taskResume k) s fun t =>
        (t.core k).run = .running ∧ (t.core k).taskid = it.taskid ∧ (t.core k).stat = 0x02 ∧
        it.taskid.toNat ∉ (t.core k).suspended ∧
        ∃ j ∈ t.fab.items, j.sn = it.sn ∧ j.phase = .dispatched ∧ j.tStart = s.airtime ∧ j.runTc = it.runTc)

/-- A late or flushed descriptor is shed, reported as its queue asks (R268, R282, R329). -/
def Shedding : Prop :=
  ∀ (s : State) (sn : Nat) (it : Item), s.item? sn = some it → s.fabOn = true →
    let gone (i : Instr) : Prop := Runs i s fun t => ∀ j ∈ t.fab.items, j.sn ≠ sn
    (it.phase = .ready → it.rerun = false → (s.qcb it.q).overflow = 2 → dDeadline it.words ≠ 0 →
      dDeadline it.words < s.airtime + 64 * dRunEst it.words →
      Gives (.shedQueued sn) s (s.shed it 1 0x08 0) ∧ gone (.shedQueued sn)) ∧
    (it.phase = .armed → dDeadline it.words ≠ 0 → dDeadline it.words ≤ s.airtime → gone (.expired sn)) ∧
    (∀ d, s.tilthOn = true → it.phase = .ready → it.rerun = false → 4 ≤ (s.qcb it.q).level → (s.qcb it.q).overflow = 2 →
      poolShedEn (s.pool (s.qcb it.q).pool) = true → dDeadline it.words ≠ 0 → s.slackOverrun it = some d →
      gone (.shedSlack sn) ∧
      Runs (.shedSlack sn) s fun t => lookupD 0 (s.qcb it.q).pool t.tilth.sheds =
        min (lookupD 0 (s.qcb it.q).pool s.tilth.sheds + 1) (2 ^ 32 - 1))

/-- A task is aborted with its reason, and a core task fails with cause ABORT (R284, R285, R298). -/
def Aborts : Prop :=
  ∀ (s : State) (tid : Word) (it : Item), s.task? tid = some it → s.fabOn = true → dKind it.words = 0 →
    let aborted (i : Instr) (reason : Nat) : Prop := Runs i s fun t =>
      ∃ j ∈ t.fab.items, j.sn = it.sn ∧ j.phase = .completed ∧ j.ended = some ⟨false, reason⟩
    let past : Prop := dDeadline it.words ≠ 0 ∧ dDeadline it.words ≤ s.airtime
    (it.phase = .dispatched → it.inWait = true → past → aborted (.deadlineWait tid) 0x31) ∧
    ((s.qcb it.q).abortLate = true → past → (it.phase = .dispatched ∧ it.inWait = false) ∨ it.phase = .suspended →
      aborted (.deadlineRun tid) 0x32) ∧
    (it.phase = .dispatched → dRunLimit it.words ≠ 0 →
      1024 * dRunLimit it.words ≤ it.runTc + (s.airtime - it.tStart) → aborted (.watchdog tid) 0x33) ∧
    (∀ fn group g, s.fab.groups.find? (fun x => x.fn == fn && x.group == group) = some g → g.reported = false →
      s.deadlocked g = true →
      Runs (.deadlock fn group) s fun t => (∀ h ∈ t.fab.groups, h.fn = fn → h.group = group → h.reported = true) ∧
        t.fab.groups.length = s.fab.groups.length)

/-- READ, WRITE, ENABLE, DISABLE and FLUSH of the queue window, and why each is refused (R260, R261, R262). -/
def QueueWindow : Prop :=
  ∀ (s : State) (a : Agent), allowed s a pgFabric = true → agTrusted a = true →
    let q := s.fld pgFabric Reg.TFB_QSEL 0 20
    let c := s.qcb q
    let result (t : State) : Nat := t.fld pgFabric Reg.TFB_QCMD 9 3
    (isSvc q = false →
      (Runs (.qcmdRead a) s fun t => result t = 0 ∧ t.reg pgFabric Reg.TFB_QCFG_LO = c.words.getD 0 0 ∧
        t.reg pgFabric Reg.TFB_QCFG_HI = c.words.getD 1 0 ∧ t.reg pgFabric Reg.TFB_QNOTE_LO = c.words.getD 2 0 ∧
        t.reg pgFabric Reg.TFB_QBODY_LO = c.words.getD 4 0 ∧ t.reg pgFabric Reg.TFB_QBODY_HI = c.words.getD 5 0 ∧
        (t.qcb q).noteLost = false ∧ (t.qcb q).words = c.words ∧ t.fab.items = s.fab.items) ∧
      (c.enabled = false → (∀ i ∈ s.fab.items, i.q ≠ q) → s.qcbOk { c with words := s.qStaged } = true →
        bitOf ((s.qStaged.getD 0 0).toNat) 22 = false →
        Runs (.qcmdWrite a) s fun t => result t = 0 ∧ (t.qcb q).words = s.qStaged ∧ (t.qcb q).enabled = false ∧
          t.fab.items = s.fab.items) ∧
      (c.enabled = true → Runs (.qcmdWrite a) s fun t => result t = 1 ∧ t.fab = s.fab) ∧
      (s.qcbOk c = true → c.words.length = 6 →
        Runs (.qcmdEnable a) s fun t => result t = 0 ∧ (t.qcb q).enabled = true ∧ t.fab.items = s.fab.items) ∧
      (s.qcbOk c = false → Runs (.qcmdEnable a) s fun t => result t = 2 ∧ t.fab = s.fab) ∧
      (c.words.length = 6 → s.fab.held = [] →
        Runs (.qcmdDisable a) s fun t => result t = 0 ∧ (t.qcb q).enabled = false ∧ t.fab.items = s.fab.items) ∧
      (c.enabled = false → c.noteEn = false → (∀ i ∈ s.fab.items, i.q = q → dKind i.words ≠ 1) →
        Runs (.qcmdFlush a) s fun t => result t = 0 ∧ ∀ i ∈ t.fab.items, i.q = q → i.counts = false) ∧
      (c.enabled = true → Runs (.qcmdFlush a) s fun t => result t = 1 ∧ t.fab = s.fab)) ∧
    (isSvc q = true →
      ∀ i ∈ [Instr.qcmdWrite a, .qcmdEnable a, .qcmdDisable a, .qcmdFlush a],
        Runs i s fun t => result t = 3 ∧ t.fab = s.fab)

/-- Tilth's pool and handle windows: READ, COMMIT, BIND and RELEASE with their results (R307, R308, R320, R623). -/
def TilthWindows : Prop :=
  ∀ (s : State) (a : Agent), allowed s a pgTilth = true →
    let p := s.fld pgTilth Reg.TLT_PSEL 0 10
    let presult (t : State) : Nat := t.fld pgTilth Reg.TLT_PCMD 9 3
    let hresult (t : State) : Nat := t.fld pgTilth Reg.TLT_HCMD 9 3
    (agWard a = true →
      (Runs (.pcmdRead a) s fun t => presult t = 0 ∧
        t.tilth = { s.tilth with staged := (s.pool p ++ List.replicate 24 0).take 24 ++ s.poolStatus p }) ∧
      (∀ r, s.poolJudge p (s.tilth.staged.take 24) = r → r < 8 →
        Runs (.pcmdCommit a) s fun t => presult t = r ∧
          t.tilth.pools = if r = 0 then insertKey p (s.tilth.staged.take 24) s.tilth.pools else s.tilth.pools)) ∧
    (agWard a = false → ∀ i ∈ [Instr.pcmdRead a, .pcmdCommit a], Runs i s fun t => presult t = 5 ∧ t.tilth = s.tilth) ∧
    (∀ h e, s.hPick a = some (h, e) →
      (Runs (.hcmdRead a) s fun t => hresult t = 0 ∧ t.reg pgTilth Reg.TLT_HADDR_LO = e.getD 2 0 ∧
        t.reg pgTilth Reg.TLT_HREFS = BitVec.ofNat 32 (eRefs e + eLeft e * 65536) ∧ t.mem = s.mem) ∧
      (∀ place x m, eState e = 0 → eDecl e = true → eUses e = 0 → s.tilthOn = true → eSize e ≠ 0 → eHint e ≠ 3 →
        s.judge h e none none noItem place = .at_ x m →
        Runs (.hcmdBind a place) s fun t => hresult t = 0 ∧ t.reg pgTilth Reg.TLT_HADDR_LO = BitVec.ofNat 32 x) ∧
      (eState e ≠ 0 → eUses e = 0 → eRefs e = 0 → Gives (.hcmdRelease a) s ((s.freeHandle none h e).hResult 0)) ∧
      (eState e ≠ 0 → eUses e = 0 → eRefs e ≠ 0 → Runs (.hcmdRelease a) s fun t => hresult t = 3 ∧ t.mem = s.mem)) ∧
    (s.hPick a = none → ∀ i ∈ [Instr.hcmdRead a, .hcmdBind a 0, .hcmdRelease a],
      Runs i s fun t => hresult t = 5 ∧ t.mem = s.mem ∧ t.tilth = s.tilth)

/-- A DMA request is taken or turned away; a burst reads its source and writes its destination, or stops with its cause (R396
to R400, R405). -/
def DmaBursts : Prop :=
  (∀ (s : State) (line addr len : Nat) (data : List Byte), s.quiet = false → s.pins.on = true → line < 224 →
    0 < len → len ≤ 4096 → data.length = len →
    let r : DmaReq := if line < 136 then ⟨addr, len, data, none⟩ else ⟨0, 0, [], none⟩
    ((s.lineReqs line).length < 16 →
      Runs (.dmaRequest line addr len data) s fun t => t.lineReqs line = s.lineReqs line ++ [r] ∧
        t = { s with dmaLines := t.dmaLines }) ∧
    (∀ ch, 16 ≤ (s.lineReqs line).length → s.lineChan line = some ch →
      Gives (.dmaRequest line addr len data) s (s.count (pgDma ch) Reg.DMA_CH_TALLY_LINEFULL 1))) ∧
  (∀ (s : State) (ch : Nat) (r : DmaReq) (rs : List DmaReq) (host : List Byte), ch < 64 → s.dmaCanStart ch = true →
    s.dmaTurn ch = true → s.lineReqs (s.chanLine ch) = r :: rs →
    let own := s.owner (pgDma ch)
    let c := s.dmaChan ch
    let n := s.dmaBurst ch
    let started (t : State) : Prop := t.lineReqs (s.chanLine ch) = rs ∧ lookupD 15 (ch / 16) t.dmaLast = ch % 16
    (∀ u w, s.dmaKind ch = 0 → addressed (s.dmaLine ch) = true → s.dmaMode ch = 0 →
      dmaPut (dmaWr ch) s own r.addr r.data = (u, w) →
      Runs (.dmaBurst ch 0 0 0 host) s fun t => started t ∧ t.mem = u.mem ∧
        t.dmaChan ch = { c with flight := c.flight ++ [if w = .access then ⟨r, c.pos, false, some (2, r.addr), [], 0, []⟩
          else ⟨r, c.pos, w == .poison, none, [], 0, []⟩] }) ∧
    (∀ u h x, s.dmaKind ch = 1 → addressed (s.dmaLine ch) = true → dmaGet (dmaRd ch) s own host r.addr r.len = (u, h, x) →
      Runs (.dmaBurst ch 0 0 0 host) s fun t => started t ∧ t.mem = u.mem ∧
        t.dmaChan ch = { c with flight := c.flight ++ [match x with
          | .ok bs => ⟨r, c.pos, false, none, [], 0, bs⟩
          | .poison a => ⟨r, c.pos, false, some (1, a), [], 0, []⟩
          | .access => ⟨r, c.pos, false, some (2, r.addr), [], 0, []⟩] }) ∧
    (∀ u h rfAt bs, s.dmaKind ch = 1 → addressed (s.dmaLine ch) = true →
      dmaGet (dmaRd ch) s own host r.addr r.len = (u, h, .ok bs) →
      Runs (.dmaBurst ch 2 rfAt 0 host) s fun t => started t ∧
        t.dmaChan ch = { c with flight := c.flight ++ [⟨r, c.pos, false, some (3, rfAt), [], 0, []⟩] }) ∧
    (∀ h1 h2 h3 bs u w e1 e2, s.dmaKind ch = 2 → s.dmaMode ch = 0 →
      dmaEntry (dmaRd ch) s own host 0 (s.dmaAddr ch Reg.DMA_CH_SRC_LO) c.pos.srcE n 1 = (s, h1, .ok e1) →
      dmaGet (dmaRd ch) s own h1 (e1.addr + c.pos.srcO) n = (s, h2, .ok bs) →
      dmaEntry (dmaRd ch) s own h2 1 (s.dmaAddr ch Reg.DMA_CH_DST_LO) c.pos.dstE n 1 = (s, h3, .ok e2) →
      dmaPut (dmaWr ch) s own (e2.addr + c.pos.dstO) bs = (u, w) → w ≠ .access →
      let a := e1.advance 0 c.pos.srcE c.pos.srcO n
      let b := e2.advance 1 c.pos.dstE c.pos.dstO n
      Runs (.dmaBurst ch 0 0 0 host) s fun t => started t ∧ t.mem = u.mem ∧
        t.dmaChan ch = { c with
          pos := ⟨a.1, a.2.1, b.1, b.2.1⟩
          flight := c.flight ++ [⟨r, c.pos, w == .poison, none, a.2.2 ++ b.2.2, 0, []⟩] }) ∧
    (∀ u h e, s.dmaKind ch = 2 → s.dmaMode ch = 0 → c.flight = [] →
      dmaEntry (dmaRd ch) s own host 0 (s.dmaAddr ch Reg.DMA_CH_SRC_LO) c.pos.srcE n 1 = (u, h, .error (.ended 0 e)) →
      Runs (.dmaBurst ch 0 0 0 host) s fun t => t.dmaChan ch = { c with run := 4 } ∧ t.mem = u.mem))

/-- How a burst is acknowledged, and RESUME, SKIP, RESET and KICK of a channel (R397, R405, R406, R408). -/
def DmaEndsAndCommands : Prop :=
  ∀ (s : State) (ch : Nat), ch < 64 →
    let c := s.dmaChan ch
    let p := pgDma ch
    let line := s.chanLine ch
    (∀ b rest, c.flight = b :: rest → s.ready p = true →
      (∀ cause addr, b.fail = some (cause, addr) →
        Runs (.burstComplete ch) s fun t =>
          t.dmaChan ch = { c with flight := rest, run := 3, cause := cause, held := some b.req } ∧
          t.reg p Reg.DMA_CH_FAIL_LO = BitVec.ofNat 32 addr ∧
          t.reg p Reg.DMA_CH_FAIL_HI = BitVec.ofNat 32 (addr / 2 ^ 32 % 2 ^ 16) ∧
          t.reg p Reg.DMA_CH_TALLY_HALT = tallied (s.reg p Reg.DMA_CH_TALLY_HALT) 1 ∧ t.dmaLines = s.dmaLines ∧ t.mem = s.mem) ∧
      (b.fail = none → b.poisonWr = false → b.done = [] → b.sat = 0 → 136 ≤ line → line < 224 ∨ 256 ≤ line →
        Runs (.burstComplete ch) s fun t =>
          t.dmaChan ch = { c with flight := rest, count := c.count + 1 } ∧
          t.reg p Reg.DMA_CH_TALLY_BURST = tallied (s.reg p Reg.DMA_CH_TALLY_BURST) 1 ∧ t.dmaLines = s.dmaLines ∧
          t.mem = s.mem ∧ t.fab = s.fab)) ∧
    (∀ a, allowed s a p = true →
      (c.run = 3 →
        (Runs (.dmaResume a ch) s fun t => t.lineReqs line = c.held.toList ++ s.lineReqs line ∧
          t.dmaChan ch = { c with run := 0, cause := 0, held := none } ∧ t.regs = s.regs ∧ t.mem = s.mem) ∧
        (s.dmaKind ch = 0 → s.dmaLineEn ch = true → addressed (s.dmaLine ch) = true →
          Runs (.dmaSkip a ch) s fun t => t.dmaChan ch = { c with run := 0, cause := 0, held := none } ∧ t.mem = s.mem)) ∧
      (c.run ≠ 3 → Gives (.dmaResume a ch) s s ∧ Gives (.dmaSkip a ch) s s) ∧
      (Runs (.dmaReset a ch) s fun t => t.dmaChan ch = DmaChan.reset ∧ t.lineReqs line = [] ∧ t.mem = s.mem) ∧
      (s.dmaKind ch = 2 → s.dmaLineEn ch = false → s.ready p = true → (s.lineReqs (kickLine ch)).length < 16 →
        Runs (.kick a ch) s fun t => t.lineReqs (kickLine ch) = s.lineReqs (kickLine ch) ++ [⟨0, 0, [], none⟩] ∧
          t = { s with dmaLines := t.dmaLines }))

/-- Slip, lock, alignment, recalibration, eye and sweep commands of a lane, and the references of a lane group (R416, R420 to
R425, R432, R436). -/
def LaneCommands : Prop :=
  ∀ (s : State) (l : Nat) (a : Agent), l < 64 →
    let p := pgLane l
    let x := s.laneSt l
    let on (r v : Nat) : Prop := s.fld p r v 1 = 1
    (allowed s a p = true →
      (∀ n, alignPositions (s.fld p Reg.LN_CFG 12 2) = some n →
        Runs (.slip a l) s fun t => t.fld p Reg.LN_ALIGN 4 7 = (s.fld p Reg.LN_ALIGN 4 7 + 1) % n ∧
          t.fld p Reg.LN_ALIGN 2 1 = 0 ∧ t.fld p Reg.LN_ALIGN 3 1 = s.fld p Reg.LN_ALIGN 3 1 ∧ t.links = s.links) ∧
      (alignPositions (s.fld p Reg.LN_CFG 12 2) = none →
        Runs (.slip a l) s fun t => t.fld p Reg.LN_ALIGN 2 1 = 0 ∧
          t.fld p Reg.LN_ALIGN 4 7 = (s.fresh 7).1.toNat ∧ t.links = s.links) ∧
      (s.fld p Reg.LN_RECAL 2 1 = 0 → s.part p = stTending →
        (Runs (.recalTx a l) s fun t => t.fld p Reg.LN_RECAL 2 1 = 1 ∧ (t.laneSt l).recal = 2) ∧
        ∀ both, Runs (.recalRx a l both) s fun t => t.fld p Reg.LN_RECAL 2 1 = 1 ∧ (t.laneSt l).recal = 1 + bit both * 2) ∧
      (s.fld p Reg.LN_RECAL 2 1 = 0 → s.part p ≠ stTending → ∀ i ∈ [Instr.recalTx a l, .recalRx a l false, .recalRx a l true],
        Runs i s fun t => t.fld p Reg.LN_RECAL 3 1 = 1 ∧ t.fld p Reg.LN_RECAL 4 2 = 3 ∧ t.links = s.links) ∧
      (∀ v n, State.writeInRange p Reg.LN_EYE_CTRL (v.toNat ||| 1) false = true → s.fld p Reg.LN_SWEEP_CTRL 1 1 = 0 →
        Runs (.eyeMeasure a l v n) s fun t => t.reg p Reg.LN_EYE_COUNT =
          BitVec.ofNat 32 (min n (min (2 ^ t.fld p Reg.LN_EYE_CTRL 20 5) (2 ^ 32 - 1))) ∧ t.links.lanes = s.links.lanes) ∧
      (∀ n, s.part p ≠ stTending → Runs (.sweep a l n) s fun t =>
        t.fld p Reg.LN_SWEEP_CTRL 0 32 = s.fld p Reg.LN_SWEEP_CTRL 0 32 ∧ t.links.lanes = s.links.lanes) ∧
      (∀ n, 0 < n → n < 1024 → s.part p = stTending → s.fld p Reg.LN_SWEEP_CTRL 1 1 = 0 →
        Runs (.sweep a l n) s fun t => t.fld p Reg.LN_SWEEP_CTRL 1 1 = 1 ∧ t.fld p Reg.LN_SWEEP_CTRL 2 10 = n ∧
          (t.laneSt l).saved = [s.reg p Reg.LN_RXEQ, s.reg p Reg.LN_RXFFE0, s.reg p Reg.LN_RXFFE1, s.reg p Reg.LN_RXFFE2])) ∧
    (∀ tx rx, tx < 2 ^ 20 → rx < 2 ^ 20 → s.ready p = true → x.cdr = true → s.rxSampling l = true →
      Runs (.alignLock l tx rx) s fun t => t.fld p Reg.LN_ALIGN 2 1 = 1 ∧ t.fld p Reg.LN_LAT_TX 0 20 = tx ∧
        t.fld p Reg.LN_LAT_RX 0 20 = rx ∧ t.links = s.links) ∧
    (x.confirm = true → s.rxSampling l = true →
      Gives (.lockConfirm l true) s (s.setLane l { x with confirm := false }) ∧
      Runs (.lockConfirm l false) s fun t => t.fld p Reg.LN_ALIGN 2 1 = 0 ∧ t.fld p Reg.LN_ALIGN 3 1 = 1 ∧
        t.reg p Reg.LN_TALLY_ALIGNLOST = tallied (s.reg p Reg.LN_TALLY_ALIGNLOST) 1 ∧ bitOf (t.reg p Reg.PG_IRQ_STAT).toNat 0 = true) ∧
    (s.ready p = true → x.cdr = true →
      Runs (.cdrLoss l) s fun t => t.laneSt l = { x with cdr := false } ∧ bitOf (t.reg p Reg.PG_IRQ_STAT).toNat 3 = true ∧
        t.reg p Reg.LN_TALLY_CDRLOSS = tallied (s.reg p Reg.LN_TALLY_CDRLOSS) 1) ∧
    (∀ eye cdr, eye < 2 ^ 16 → on Reg.LN_RECAL 2 → Runs (.recalDone l eye cdr) s fun t =>
      t.fld p Reg.LN_RECAL 2 1 = 0 ∧ t.fld p Reg.LN_RECAL 3 1 = 1 ∧
      t.fld p Reg.LN_RECAL 4 2 = (if bitOf x.recal 0 = false then 0 else if cdr = false then 2 else if eye < x.eyeMin then 1 else 0) ∧
      (bitOf x.recal 0 = true → cdr = true → t.fld p Reg.LN_RECAL 16 16 = eye) ∧ bitOf (t.reg p Reg.PG_IRQ_STAT).toNat 1 = true) ∧
    (∀ found, on Reg.LN_SWEEP_CTRL 1 → found.length = s.fld p Reg.LN_SWEEP_CTRL 2 10 → x.saved.length = 4 →
      Runs (.sweepDone l found) s fun t => t.fld p Reg.LN_SWEEP_CTRL 1 1 = 0 ∧
        [t.reg p Reg.LN_RXEQ, t.reg p Reg.LN_RXFFE0, t.reg p Reg.LN_RXFFE1, t.reg p Reg.LN_RXFFE2] = x.saved ∧
        bitOf (t.reg p Reg.PG_IRQ_STAT).toNat 2 = true) ∧
    (s.part p = stRising → s.ready (pgLng (l / 8)) = true → s.rxSampling l = true →
      Runs (.cdrLock l) s fun t => t.part p = stReady ∧ (t.laneSt l).cdr = true) ∧
    (∀ o, o < 8 → s.part (pgLng o) = stRising →
      (Runs (.refOk o true true true) s fun t => t.part (pgLng o) = stReady ∧ t.fld (pgLng o) Reg.LNG_REF 16 3 = 7) ∧
      (Runs (.refOk o true true false) s fun t => t.part (pgLng o) = stRising ∧ t.fld (pgLng o) Reg.LNG_REF 16 3 = 3))

/-- Sleep of transmitter and receiver, sleep windows, and schedules (R426 to R430, R435). -/
def LaneSleep : Prop :=
  (∀ (s : State) (l : Nat) (a : Agent), l < 64 →
    let p := pgLane l
    let x := s.laneSt l
    (allowed s a p = true →
      (∀ on, Runs (.txSleep a l on) s fun t => t.fld p Reg.LN_SLEEP 0 1 = bit on ∧ t.fld p Reg.LN_SLEEP 2 1 = bit on ∧
        t.fld p Reg.LN_SLEEP 1 1 = s.fld p Reg.LN_SLEEP 1 1) ∧
      (∀ on, x.window = none → Runs (.rxSleep a l on) s fun t => t.fld p Reg.LN_SLEEP 1 1 = bit on ∧
        t.fld p Reg.LN_SLEEP 3 1 = bit on ∧ t.fld p Reg.LN_SLEEP 0 1 = s.fld p Reg.LN_SLEEP 0 1 ∧
        t.fld p Reg.LN_SLEEP 2 1 = s.fld p Reg.LN_SLEEP 0 1) ∧
      (x.window = none → s.fld p Reg.LN_SLEEP 3 1 = 1 → s.fld p Reg.LN_ALIGN 2 1 = 1 →
        Runs (.rxSleep a l false) s fun t => (t.laneSt l).confirm = true) ∧
      (x.window = none → s.fld p Reg.LN_SLEEP 3 1 = 0 →
        Runs (.rxSleep a l true) s fun t =>
          t.reg p Reg.LN_TALLY_RXSLEEP = tallied (s.reg p Reg.LN_TALLY_RXSLEEP) 1 ∧ t.links.scheds = s.links.scheds)) ∧
    (∀ c e, s.laneSched l = some c → c.openAt s.airtime = some e → x.skip ≠ some e → x.window = none →
      Runs (.windowOpen l) s fun t => (t.laneSt l).window = some e ∧ t.fld p Reg.LN_SLEEP 3 1 = 1) ∧
    (s.laneSched l = none → Gives (.windowOpen l) s s) ∧
    (∀ e, x.window = some e → s.fld p Reg.LN_SLEEP 1 1 = 0 → e ≤ s.airtime + 4096 →
      (s.airtime < e → (s.laneSched l).isSome = true → s.fld p Reg.LN_SLEEP 3 1 = 1 →
        Runs (.windowWake l) s fun t => t.fld p Reg.LN_SLEEP 4 1 = 1 ∧ t.fld p Reg.LN_SLEEP 3 1 = 1) ∧
      (e ≤ s.airtime → Runs (.windowWake l) s fun t => t.fld p Reg.LN_SLEEP 3 1 = 0 ∧ (t.laneSt l).window = none))) ∧
  (∀ (s : State) (a : Agent) (o k : Nat), o < 8 → k < 2 →
    let g := pgLng o
    let base := s.reg64 g (Reg.LNG_SCHED0_BASE_LO + 32 * k)
    let period := (s.reg g (Reg.LNG_SCHED0_PERIOD + 32 * k)).toNat
    let ws := s.stagedWins g k
    let good : Prop := 8192 ≤ period ∧ period ≤ 19660800 ∧ (∀ w ∈ ws, w.1 < w.2 ∧ w.2 ≤ period) ∧ winsApart ws = true
    (allowed s a g = true →
      (good → Runs (.schedCommit a o k) s fun t => t.fld g Reg.LNG_SCHED_CTRL (4 + k) 1 = 1 ∧ t.fld g Reg.LNG_SCHED_CTRL 6 2 = 0 ∧
        ∃ c, lookup? (2 * o + k) t.links.pendScheds = some c ∧ c.base = base ∧ c.period = period ∧ s.airtime < c.due ∧
          (∀ w, w ∈ c.wins ↔ w ∈ ws ∧ w.1 + 8192 ≤ w.2) ∧ t.links.scheds = s.links.scheds) ∧
      (¬good → Runs (.schedCommit a o k) s fun t => t.fld g Reg.LNG_SCHED_CTRL 6 2 = 1 ∧ t.links = s.links)) ∧
    (∀ c, lookup? (2 * o + k) s.links.pendScheds = some c →
      (c.due ≤ s.airtime → Runs (.schedApply o k) s fun t => lookup? (2 * o + k) t.links.scheds = some c ∧
        t.links.pendScheds = eraseKey (2 * o + k) s.links.pendScheds ∧ t.fld g Reg.LNG_SCHED_CTRL (4 + k) 1 = 0) ∧
      (s.airtime < c.due → Gives (.schedApply o k) s s)))

/-- SLEW, STEP, timed requests, generator writes, and what each leaves of AIRTIME (R43 to R45, R457, R458, R466, R467). -/
def TimeBaseCommands : Prop :=
  (∀ (s : State) (g : Nat) (k : Tick), g < 64 → s.genOn g = true → s.serving pgTime = true → s.mode ≠ modeSafe →
    s.nextTick g = some k →
    (k.code / 2 ≤ s.airtime + s.genLead g →
      let low := k.sym * 2 ^ 2 + k.slot * 2 ^ 6 + k.sfn * 2 ^ 13 + bit (s.tickLate g k) * 2 ^ 23 + (0x10 + k.code % 2) * 2 ^ 24
      Runs (.tick g) s fun t =>
        t.fab.evs = s.fab.evs ++
          [⟨evWord 0x01 g (lookupD 0 (4096 + g) s.fab.seqs) (BitVec.ofNat 32 low), .published (s.owner pgTime)⟩] ∧
        t.time = { s.time with genFrom := t.time.genFrom } ∧ t.regs = s.regs ∧ t.mem = s.mem ∧
        ∀ k2, t.nextTick g = some k2 → k.code < k2.code) ∧
    (s.airtime + s.genLead g < k.code / 2 → Gives (.tick g) s s)) ∧
  (∀ (s : State) (a : Agent) (v : Word), allowed s a pgTime = true →
    (s.time.slew = 0 → Gives (.slew a v) s (s.setTime { s.time with slew := v.toInt * 2 ^ 40 })) ∧
    (s.time.slew ≠ 0 → Runs (.slew a v) s fun t => t.time = s.time ∧ t.airtime = s.airtime)) ∧
  (∀ (s : State) (a : Agent) (v : DWord), allowed s a pgTime = true → s.time.held = none →
    (0 ≤ v.toInt → Runs (.step a v) s fun t => t.airtime = s.airtime + v.toInt.toNat ∧
      t.time = { s.time with steps := s.time.steps ++ [(s.airtime, s.airtime + v.toInt.toNat)] }) ∧
    (v.toInt < 0 → v.toInt.natAbs ≤ s.airtime → s.noGen = true →
      Runs (.step a v) s fun t => t.airtime + v.toInt.natAbs = s.airtime) ∧
    (v.toInt < 0 → v.toInt.natAbs ≤ s.airtime → s.noGen = false →
      Runs (.step a v) s fun t => t.airtime = s.airtime ∧ t.time = { s.time with held := some v.toInt.natAbs } ∧
        t.fld pgTime Reg.TB_CTRL 4 1 = 1) ∧
    (v.toInt < 0 → s.airtime < v.toInt.natAbs → Runs (.step a v) s fun t => t.airtime = s.airtime ∧ t.time = s.time)) ∧
  (∀ (s : State) (d : Nat), s.time.held = some d →
    (s.noGen = true → Runs .stepApply s fun t => t.airtime = s.airtime - d ∧ t.time.held = none ∧ t.fld pgTime Reg.TB_CTRL 4 1 = 0) ∧
    (s.noGen = false → Gives .stepApply s s)) ∧
  (∀ (s : State) (a : Agent) (g : Nat) (v : Word), g < 64 → allowed s a pgTime = true →
    let off := genOff g Reg.GEN_CFG
    (s.genOn g = false → (genCfgOf v.toNat).ok = true →
      Runs (.genEnable a g v) s fun t => t.reg pgTime off = BitVec.ofNat 32 (v.toNat % 32) ∧
        (bitOf v.toNat 4 = true → lookup? g t.time.genFrom = some (2 * (s.airtime + s.genLead g)))) ∧
    (s.genOn g = false → (genCfgOf v.toNat).ok = false → bitOf v.toNat 4 = true →
      Runs (.genEnable a g v) s fun t => t.reg pgTime off = s.reg pgTime off ∧ t.time = s.time) ∧
    (s.genOn g = true → Runs (.genEnable a g v) s fun t => t.fld pgTime off 0 4 = s.fld pgTime off 0 4 ∧
      t.fld pgTime off 4 1 = bitsOf v.toNat 4 1 ∧ t.time = s.time)) ∧
  (∀ (s : State) (n : Nat), n < 20 → s.serving pgTime = true →
    let per := s.fld pgTime (Reg.TB_TREQ_PERIOD + 16 * n) 0 31
    let base := s.reg64 pgTime (Reg.TB_TREQ_BASE_LO + 16 * n)
    let at_ := lookupD 0 n s.time.treqFrom
    s.fld pgTime (Reg.TB_TREQ_PERIOD + 16 * n) 31 1 = 1 → (s.lineReqs (204 + n)).length < 16 →
    (∀ x, x ≤ s.airtime → (at_ ≤ base ∧ x = base) ∨ (base < at_ ∧ 0 < per ∧ at_ ≤ x ∧ x < at_ + per ∧ (x - base) % per = 0 ∧ base ≤ x) →
      Runs (.timedRequest n) s fun t => t.lineReqs (204 + n) = s.lineReqs (204 + n) ++ [⟨0, 0, [], none⟩] ∧
        t.time = { s.time with treqFrom := insertKey n (x + 1) s.time.treqFrom } ∧ t.regs = s.regs) ∧
    (base < at_ → per = 0 → Gives (.timedRequest n) s s))

/-- PPS in and out, time-of-day messages and PTP frames (R462, R463, R464). -/
def PulsesAndStamps : Prop :=
  (∀ (s : State), s.pins.on = true → s.fld pgTime Reg.TB_PPS_OUT 31 1 = 1 →
    ∀ e, e ≤ s.airtime → s.airtime ≤ e + 5 → e % 1966080000 = s.fld pgTime Reg.TB_PPS_OUT 0 31 % 1966080000 →
      s.time.ppsAt ≠ some e →
      Runs .ppsOut s fun t => t.time.ppsAt = some e ∧ t.links.sent = s.links.sent ++ [⟨0x100, s.airtime, []⟩] ∧
        t.pins.ppsHigh = some (e + s.fld pgTime Reg.TB_PPS_WIDTH 0 8 * 1966080) ∧
        (s.fld pgTime Reg.TB_TOD_CTRL 0 1 = 1 → t.time.tod = some e)) ∧
  (∀ (s : State) (sub : Nat), s.airtime + 4 < 2 ^ 64 →
    Runs (.ppsIn sub) s fun t => t.reg64 pgTime Reg.TB_PPS_IN_LO = s.airtime + sub % 4 ∧
      (∀ r, s.rest = some r → t.rest = some { r with edges := r.edges + 1 }) ∧ t.time = s.time ∧ t.mem = s.mem) ∧
  (∀ (s : State) (utc : BitVec 16) (e : Nat), s.time.tod = some e → s.fld pgTime Reg.TB_TOD_CTRL 0 1 = 1 →
    s.airtime ≤ e + 196608000 →
    Runs (.todTx utc) s fun t => t.time = { s.time with tod := none } ∧
      ∃ m : List Byte, t.links.sent = s.links.sent ++ [⟨0x101, s.airtime, m⟩] ∧ m.length = 16 ∧ m.take 2 = [0xA5, 0x5A] ∧
        numBe ((m.drop 2).take 6) = (ptpTime e).1 % 2 ^ 48 ∧ numBe ((m.drop 8).take 2) = utc.toNat ∧
        m.getD 10 0 = BitVec.ofNat 8 (s.fld pgTime Reg.TB_CTRL 3 1) ∧ (m.drop 11).take 4 = [0, 0, 0, 0] ∧
        m.getD 15 0 = ((m.drop 2).take 13).foldl (· + ·) 0) ∧
  (∀ (s : State) (m : List Byte), m.length = 16 → m.take 2 = [0xA5, 0x5A] →
    (m.getD 15 0 = ((m.drop 2).take 13).foldl (· + ·) 0 →
      Runs (.todRx m) s fun t => t.reg64 pgTime Reg.TB_TOD_RX_LO = numBe ((m.drop 2).take 6) ∧
        t.time = { s.time with todPps := s.reg64 pgTime Reg.TB_PPS_IN_LO }) ∧
    (m.getD 15 0 ≠ ((m.drop 2).take 13).foldl (· + ·) 0 → Gives (.todRx m) s s)) ∧
  (∀ (s : State) (host : List Byte), s.serving pgTime = true →
    let n := s.fld pgTime Reg.TB_PTP_SIZE 16 12
    let j := s.time.ptpTx
    let e := s.ptpGet (s.reg64 pgTime Reg.TB_PTP_TX_LO + 2048 * j) 2048 host
    let w := ofLe (e.take 4)
    0 < n → j ≠ s.fld pgTime Reg.TB_PTP_TX_TAIL 0 12 → bitOf w 0 = true →
    Runs (.ptpTx host) s fun t => t.time = { s.time with ptpTx := (j + 1) % n } ∧
      lookupD [] 7 (t.mac (bitsOf w 14 6)).queues =
        lookupD [] 7 (s.mac (bitsOf w 14 6)).queues ++ [⟨(e.drop 32).take (bitsOf w 1 13), some (4096 * w + j), none, none⟩] ∧
      t.mem = s.mem ∧ t.regs = s.regs) ∧
  (∀ (t : Nat), t % 1966080000 = 0 → ptpTime t = (t / 1966080000 + 315964819, 0))

/-- Power-on, RESET_N, AON_POR, power-off and device reset: what each resets and keeps (R545, R546, R582, R620). -/
def DeviceResets : Prop :=
  (∀ (s : State) (pars : List Word), mbxFront s 0x207 0 pars →
    Gives (.deviceReset false) s ((mbxTaken s).mbxReply 0 ((s.win 0).mbxReq.getD 0 0) ⟨0, []⟩).deviceReset) ∧
  (∀ (s : State), s.pins.on = true → s.mode = modeSafe → s.ward.stopped = false →
    Gives (.deviceReset true) s s.deviceReset) ∧
  (∀ (s : State), s.mode ≠ modeSafe → Gives (.deviceReset true) s s) ∧
  (∀ (s : State), let t := s.deviceReset
    t.mode = modeBoot ∧ t.airtime = s.airtime ∧ t.pins = s.pins ∧ t.cores = [] ∧ t.fab = State.reset.fab ∧ t.mem = State.reset.mem ∧
    t.ward.otp = s.ward.otp ∧ t.ward.flash = s.ward.flash ∧ t.hostMem = s.hostMem ∧ t.faultLog = [] ∧ t.noGen = true ∧
    t.reg pgWard Reg.WRD_POLICY = s.reg pgWard Reg.WRD_POLICY ∧ t.reg pgTime Reg.TB_FREQ = s.reg pgTime Reg.TB_FREQ) ∧
  (∀ (s : State) (gpio : Nat),
    let after (t : State) : Prop := t.pins.on = true ∧ t.pins.gpio = gpio % 65536 ∧ t.pins.perstLow = s.pins.perstLow ∧
      t.airtime = State.reset.airtime ∧ t.regs = State.reset.regs ∧ t.cores = State.reset.cores ∧ t.fab = State.reset.fab ∧
      t.mem = State.reset.mem ∧ t.ward.otp = s.ward.otp ∧ t.ward.flash = s.ward.flash
    (s.pins.on = true → Runs (.resetN gpio) s after ∧ Runs (.aonPor gpio) s after ∧ Gives (.powerOn gpio) s s) ∧
    (s.pins.on = false → Runs (.powerOn gpio) s after ∧ Gives (.resetN gpio) s s ∧ Gives (.aonPor gpio) s s)) ∧
  (∀ (s : State), Runs .powerOff s fun t => t.mode = 0 ∧ t.pins.on = false ∧ t.ward.otp = s.ward.otp ∧
    t.ward.flash = s.ward.flash ∧ t.mem = State.reset.mem)

/-- BOOT: the rails and identity, the slot chosen, fallback, and recovery (R547, R548, R552, R553). -/
def BootOutcomes : Prop :=
  ∀ (s : State), s.pins.on = true → s.mode = modeBoot → s.fld pgWard Reg.WRD_BOOT 2 2 ≠ 2 →
    let b := s.bootOtp
    let result (t : State) : Nat := t.fld pgWard Reg.WRD_BOOT 2 2
    let slot (t : State) : Nat := t.fld pgWard Reg.WRD_BOOT 0 1
    let recovers (t : State) : Prop := result t = 2 ∧ t.mode = modeBoot ∧ (s.pins.perstLow = false → t.ready pgHif = true)
    (Runs .boot s fun t => (∀ o, o < 8 → t.fld ⟨.octant, o⟩ Reg.PWR_OCT_VOLT 0 10 = 680) ∧
      t.reg64 pgWard Reg.WRD_DEVICE_ID_LO = s.otpNum otpDevId 8 % 2 ^ 64 ∧ t.mem = s.mem ∧ t.fab = s.fab) ∧
    (b.bootRec = none → Runs .boot s recovers) ∧
    (∀ at_ r, b.bootRec = some (at_, r) →
      let c := bootChoice r
      let u := if c.2 = r.getD 2 0 then b else b.setBootFlags c.2
      (brCommitted r (brPreferred r) = true → c.1 = brPreferred r ∧ u = b) ∧
      (brCommitted r (brPreferred r) = false → brTries r > 0 → c.1 = brPreferred r) ∧
      (brCommitted r (brPreferred r) = false → brTries r = 0 → c.1 = 1 - brPreferred r) ∧
      (∀ a, u.wardImage c.1 = some a →
        Runs .boot s fun t => t.mode = modeRise ∧ result t = 0 ∧ slot t = c.1 ∧ t.fld pgWard Reg.WRD_PAIRS 0 1 = 0) ∧
      (u.wardImage c.1 = none → ∀ a, brCommitted r (1 - c.1) = true → u.wardImage (1 - c.1) = some a →
        Runs .boot s fun t => t.mode = modeRise ∧ result t = 1 ∧ slot t = 1 - c.1) ∧
      (u.wardImage c.1 = none → brCommitted r (1 - c.1) = false ∨ u.wardImage (1 - c.1) = none → Runs .boot s recovers))

/-- RISE, DRAIN, TEND, RESUME, RETIRE and RETAIN: from which state each goes where, and how it is refused (R390, R506 to R509,
R516, R561, R572, R621, R622). -/
def PartCommands : Prop :=
  ∀ (s : State) (pg : Nat) (p : Page) (a : Agent), pageAt pg = some p → agTrusted a = true → allowed s a p = true →
    let h := p.home
    let st := s.part h
    let last (t : State) : Nat := t.fld h Reg.PG_STATE 8 3
    let busy (t : State) : Nat := t.fld h Reg.PG_STATE 11 1
    let res (t : State) : Nat := t.fld h Reg.PG_STATE 12 3
    let plain : Prop := h.kind ≠ .timeBase ∧ h.kind ≠ .fabric ∧ h.kind ≠ .sediment
    let cap (n : Nat) : Prop := bitOf h.caps n = true
    st ≠ stAbsent → st ≠ stRetired →
    (busy s = 1 → st ≠ stDraining → ∀ i ∈ [Instr.rise a pg .slow, .drain a pg, .tend a pg, .resume a pg .slow, .retire a pg .slow, .retain a pg],
      Gives i s (s.setFld h Reg.PG_STATE 12 3 crBusy)) ∧
    (busy s = 0 →
      (st = stDown → s.riseCheck h = none → s.prereqsOk h = true →
        (Runs (.rise a pg .slow) s fun t => t.part h = stRising ∧ last t = 1 ∧ busy t = 1) ∧
        (risesByEvent h.kind = false → Runs (.rise a pg .ready) s fun t => t.part h = stReady ∧ last t = 1 ∧ busy t = 0 ∧ res t = crOk) ∧
        (∀ r d, r < 256 → Runs (.rise a pg (.fails r d)) s fun t => t.part h = stDown ∧ last t = 1 ∧ busy t = 0 ∧ res t = crRefused ∧
          t.reg h Reg.PG_FAULT_INFO = BitVec.ofNat 32 (r + d % 2 ^ 24 * 2 ^ 8))) ∧
      (st = stDown → s.riseCheck h = none → s.prereqsOk h = false →
        ∀ how, Runs (.rise a pg how) s fun t => t.part h = stDown ∧ last t = 1 ∧ busy t = 1) ∧
      (∀ r d how, st = stDown → s.riseCheck h = some (r, d) →
        Runs (.rise a pg how) s fun t => t.part h = stDown ∧ busy t = 0 ∧ res t = crRefused ∧
          t.reg h Reg.PG_FAULT_INFO = BitVec.ofNat 32 (r + d % 2 ^ 24 * 2 ^ 8)) ∧
      (st ≠ stDown → ∀ how, Gives (.rise a pg how) s (s.setFld h Reg.PG_STATE 12 3 crIllegal)) ∧
      (plain → st = stReady → cap 3 → h.kind ≠ .tilth → (h.kind = .hbmPc → (s.roomFor h.ix).isSome = true) →
        (Runs (.drain a pg) s fun t => t.part h = stDraining ∧ last t = 2 ∧ busy t = 1) ∧
        (Runs (.tend a pg) s fun t => t.part h = stDraining ∧ last t = 3 ∧ busy t = 1)) ∧
      (plain → st = stReady → cap 3 → h.kind = .hbmPc → s.roomFor h.ix = none →
        Runs (.drain a pg) s fun t => t.part h = stReady ∧ res t = crRefused ∧ t.fld h Reg.MEM_BK_ROW_CMD 2 2 = 3) ∧
      (plain → st = stDown ∨ st = stFaulted → cap 3 → Runs (.tend a pg) s fun t => t.part h = stTending ∧ busy t = 0 ∧ res t = crOk) ∧
      (plain → st = stTending → s.riseCheck h = none → s.prereqsOk h = true →
        (Runs (.resume a pg .slow) s fun t => t.part h = stRising ∧ last t = 4 ∧ busy t = 1) ∧
        (risesByEvent h.kind = false → Runs (.resume a pg .ready) s fun t => t.part h = stReady ∧ busy t = 0 ∧ res t = crOk)) ∧
      (plain → st = stReady → cap 2 → s.retainOk h = true →
        Runs (.retain a pg) s fun t => t.part h = stDraining ∧ last t = 6 ∧ busy t = 1) ∧
      (plain → st = stReady → ¬cap 2 → Gives (.retain a pg) s (s.setFld h Reg.PG_STATE 12 3 crIllegal)) ∧
      (plain → st = stDown ∨ st = stTending ∨ st = stFaulted → cap 4 →
        (Runs (.retire a pg .slow) s fun t => t.part h = stRetired ∧ last t = 5 ∧ res t = crOk) ∧
        (∀ n q, s.identity h = some n → spareOf h = some q → q ≠ h → s.part q = stDown → s.identity q = none → s.ward.stopped = false →
          Runs (.retire a pg .slow) s fun t => t.identity q = some n ∧ t.identity h = none)) ∧
      (plain → st = stReady → Gives (.retire a pg .slow) s (s.setFld h Reg.PG_STATE 12 3 crIllegal))) ∧
    (plain → st = stDraining → Runs (.resume a pg .slow) s fun t => t.part h = stReady ∧ last t = 4 ∧ busy t = 0)

/-- Drains that end, rise timeouts, part faults, SAFE, automatic retirement, reloads and lockstep mismatches (R326, R352,
R390, R507, R561, R567, R568, R573, R575, R579, R580). -/
def PartTransitions : Prop :=
  (∀ (s : State) (pg : Nat) (p : Page), pageAt pg = some p → p.kind ≠ .coreDbg →
    let st := s.part p
    let last := s.fld p Reg.PG_STATE 8 3
    let res (t : State) : Nat := t.fld p Reg.PG_STATE 12 3
    (st = stDraining → s.drained p = false → Gives (.drainComplete pg) s s) ∧
    (st ≠ stDraining → Gives (.drainComplete pg) s s) ∧
    (st = stDraining → s.drained p = true →
      (last = 6 → Runs (.drainComplete pg) s fun t => t.part p = stRetained ∧ res t = crOk) ∧
      (last ≠ 6 → p.kind ≠ .hbmPc → Runs (.drainComplete pg) s fun t => t.part p = stTending ∧ res t = crOk) ∧
      (∀ cs, last ≠ 6 → p.kind = .hbmPc → s.roomFor p.ix = some cs →
        Runs (.drainComplete pg) s fun t => t.part p = stRetired ∧ p.ix ∈ t.mem.moved ∧ t.mem.cells = s.mem.cells)) ∧
    (lookupD 0 p.addr s.cmdAt + s.riseCeiling p ≤ s.airtime → st = stRising →
      Runs (.riseTimeout pg) s fun t => t.part p = (if last = 1 then stDown else stTending) ∧ res t = crRefused ∧
        t.reg p Reg.PG_FAULT_INFO = BitVec.ofNat 32 rsTimeout) ∧
    (s.airtime < lookupD 0 p.addr s.cmdAt + s.riseCeiling p → Gives (.riseTimeout pg) s s) ∧
    (st = stDown → s.fld p Reg.PG_STATE 11 1 = 0 → last = 0 → s.mode = modeRise → s.ward.stopped = false → s.inRiseSet p = true →
      p.kind = .hif → s.pins.perstLow = false → Runs (.riseSequence pg .ready) s fun t => t.part p = stReady) ∧
    (st = stDown → s.fld p Reg.PG_STATE 11 1 = 0 → last = 0 → s.mode = modeRise → s.ward.stopped = false → s.inRiseSet p = true →
      p.kind ≠ .hif → s.riseCheck p = none → s.prereqsOk p = true →
      Runs (.riseSequence pg .slow) s fun t => t.part p = stRising ∧ t.fld p Reg.PG_STATE 8 3 = 1) ∧
    (st = stRising → p.kind ≠ .hif → risesByEvent p.kind = false →
      Runs (.riseSequence pg .ready) s fun t => t.part p = stReady ∧ res t = crOk) ∧
    (∀ r d, s.pins.on = true → noPart p.kind = false → r < 256 → st ≠ stAbsent → st ≠ stRetired →
      let rec_ (c : Bool) : FaultRec := ⟨s.airtime, p.addr, r, d, c⟩
      (p.kind ∉ [.timeBase, .fabric, .tilth] → Runs (.partFault pg r d true) s fun t => t.part p = stFaulted ∧
        t.reg p Reg.PG_FAULT_INFO = BitVec.ofNat 32 (r + d % 2 ^ 24 * 2 ^ 8) ∧ rec_ true ∈ t.faultLog) ∧
      (s.mode ≠ modeRest → Runs (.partFault pg r d false) s fun t => t.mode = modeSafe ∧ t.part p = stFaulted ∧
        rec_ false ∈ t.faultLog)) ∧
    (∀ w, identBits p = some w → st = stFaulted → s.ward.stopped = false → s.mode ≠ modeSafe → s.mode ≠ modeRest →
      s.fld pgWard Reg.WRD_POLICY 0 1 = 1 → s.fld p Reg.PG_STATE 11 1 = 0 →
      (Runs (.autoRetire pg false .slow) s fun t => t.part p = stRetired) ∧
      (((lookupD [] p.addr s.ward.faults).filter fun x => decide (s.airtime ≤ x + 24 * 3600 * 1966080000)).length < 2 →
        s.prereqsOk p = true → Runs (.autoRetire pg true .ready) s fun t => t.part p = stReady ∧
          s.airtime ∈ lookupD [] p.addr t.ward.faults))) ∧
  (∀ (s : State) (r d : Nat), s.pins.on = true → s.mode ≠ modeRest → r < 256 → d < 2 ^ 24 →
    Runs (.safe r d) s fun t => t.mode = modeSafe ∧ t.mem = s.mem ∧ t.fab = s.fab ∧
      (s.mode ≠ modeSafe → ∀ k ∈ planeKinds, ∀ p ∈ pagesOf k, s.part p ≠ stAbsent → s.part p ≠ stRetired → t.part p = stFaulted)) ∧
  (∀ (s : State) (k : Nat) (how : RiseHow), k < 272 → s.part ⟨.coreCtl, k⟩ = stTending → (s.core k).reload = true →
    s.ward.stopped = false →
    let p : Page := ⟨.coreCtl, k⟩
    let u := (s.wardLoad (s.fld pgWard Reg.WRD_BOOT 0 1) p).1
    if (s.wardLoad (s.fld pgWard Reg.WRD_BOOT 0 1) p).2 = true then
      Gives (.coreReload k how) s ((u.setCore k { u.core k with reload := false }).partCmdBy .ward p pcResume how)
    else Runs (.coreReload k how) s fun t => t.faultLog = s.faultLog ++ [⟨s.airtime, p.addr, rsImage, k, true⟩] ∧
      t.part p = stTending ∧ t.regs = s.regs) ∧
  (∀ (s : State) (pair : Nat), pair < 2 → s.ward.stopped = false → s.pins.on = true →
    let act := s.fld pgWard Reg.WRD_PAIRS 0 1
    let state (t : State) : Nat := t.fld pgWard Reg.WRD_PAIRS 1 2
    (pair ≠ act → Runs (.lockstepMismatch pair) s fun t => t.fld pgWard Reg.WRD_PAIRS 0 1 = act ∧ state t = 3 ∧ t.ward.stopped = false) ∧
    (pair = act → s.fld pgWard Reg.WRD_PAIRS 1 2 = 2 → Runs (.lockstepMismatch pair) s fun t =>
      t.fld pgWard Reg.WRD_PAIRS 0 1 = 1 - act ∧ state t = 3 ∧ t.ward.stopped = false ∧ t.cores = s.cores ∧ t.fab = s.fab) ∧
    (pair = act → s.fld pgWard Reg.WRD_PAIRS 1 2 ≠ 2 → Runs (.lockstepMismatch pair) s fun t => t.ward.stopped = true ∧
      t.mode = s.mode))

end Sys2Proof.Claims

open Sys2Proof Sys2Proof.Machine Sys2Proof.Safety

/-- A step takes the command at the front of the queue and is exec of it with the queue's rest. This is the model's own frame
for a block; the manual has no command queue (log entry 49). -/
def Obligations.StepRunsFront : Prop :=
  ∀ (s : State) (c : Instr) (rest : List Instr), s.pending = c :: rest → Machine.step s = Machine.exec c { s with pending := rest }

/-- Every command completes, and none changes the queue of waiting commands: EveryCommandCompletes, QueueUntouched. -/
def Obligations.CommandsCompleteAndKeepQueue : Prop :=
  Sys2Proof.Claims.EveryCommandCompletes ∧ Sys2Proof.Claims.QueueUntouched

/-- The idle step is a clock cycle; the state after reset: IdleClock, ResetState. -/
def Obligations.IdleClockAndReset : Prop :=
  Sys2Proof.Claims.IdleClock ∧ Sys2Proof.Claims.ResetState

/-- Every step keeps the memory's canonical form: addresses strictly rising and no entry equal to the zero that an unlisted
byte reads as (R620). -/
def Obligations.StepKeepsMemoryCanonical : Prop :=
  ∀ (s t : State), s.mem.wf = true → Machine.step s = .next t → t.mem.wf = true

/-- Register g0 of every core stays zero and no core gains or loses a scalar register, whatever the step (R56). -/
def Obligations.StepKeepsZeroRegister : Prop :=
  ∀ (s t : State), (∀ k, (s.core k).g.getD 0 0 = 0 ∧ (s.core k).g.length = 32) → Machine.step s = .next t →
    ∀ k, (t.core k).g.getD 0 0 = 0 ∧ (t.core k).g.length = 32

/-- Scalar arithmetic: result, latency and nothing else: ScalarTResults, ScalarKResults. -/
def Obligations.ScalarAluResults : Prop :=
  Sys2Proof.Claims.ScalarTResults ∧ Sys2Proof.Claims.ScalarKResults

/-- Branches, jumps, delay slots and forbidden places: BranchResults, DelaySlots, PlacementRules. -/
def Obligations.BranchesAndPlacement : Prop :=
  Sys2Proof.Claims.BranchResults ∧ Sys2Proof.Claims.DelaySlots ∧ Sys2Proof.Claims.PlacementRules

/-- Hardware loops: the setup and the back-edge: LoopSetup, LoopBackEdge. -/
def Obligations.HardwareLoops : Prop :=
  Sys2Proof.Claims.LoopSetup ∧ Sys2Proof.Claims.LoopBackEdge

/-- rdc and wrc of every control register, the selectors and the read-only registers that raise ILLEGAL, ie.off and ie.on
(R57, R66, R86). -/
def Obligations.ControlRegisters : Prop :=
  ∀ (s : State) (k : Nat) (b : Bool) (gd ga : GReg) (sel : BitVec 6), coreFree s k = true →
    let c := s.core k
    (∀ v, readCtl c sel.toNat = some v → IssuesG s k (.rdc k b gd sel true) gd 1 v) ∧
    (readCtl c sel.toNat = none → FaultsOut s k (.rdc k b gd sel true) (if b then .B else .A) (illegal 4)) ∧
    ((readCtl c sel.toNat).isSome = true → sel.toNat ≠ 0x03 → sel.toNat ≠ 0x04 → sel.toNat ≠ 0x07 →
      IssuesWr s k (.wrc k false sel ga true) [(1, .ctl sel.toNat (readG c ga))]) ∧
    (readCtl c sel.toNat = none ∨ sel.toNat = 0x03 ∨ sel.toNat = 0x04 ∨ sel.toNat = 0x07 →
      FaultsOut s k (.wrc k false sel ga true) .A (illegal 4)) ∧
    IssuesWr s k (.ieOff k false true) [(1, .statBit 0 false)] ∧
    (bitOf c.stat.toNat 1 = false → IssuesWr s k (.ieOn k false true) [(1, .statBit 0 true)]) ∧
    (bitOf c.stat.toNat 1 = true → IssuesWr s k (.ieOn k false true) [])

/-- Exception entry, pre-emption, mask overrun and fetch poison: ExceptionEntry, CoreEvents. -/
def Obligations.CoreExceptions : Prop :=
  Sys2Proof.Claims.ExceptionEntry ∧ Sys2Proof.Claims.CoreEvents

/-- trap, eret and terminal causes: TrapAndReturn, TerminalCause. -/
def Obligations.TrapReturnAndTerminal : Prop :=
  Sys2Proof.Claims.TrapAndReturn ∧ Sys2Proof.Claims.TerminalCause

/-- Near scalar loads and stores: ScalarLoads, ScalarStores. -/
def Obligations.ScalarLoadsAndStores : Prop :=
  Sys2Proof.Claims.ScalarLoads ∧ Sys2Proof.Claims.ScalarStores

/-- 64-bit accesses, accesses to far addresses, and their faults (R69, R71, R72). -/
def Obligations.DoubleAndFarAccesses : Prop :=
  ∀ (s : State) (k : Nat) (r base : GReg) (fr : FReg) (off : BitVec 16) (o13 : BitVec 13), coreFree s k = true →
    let c := s.core k
    let near := nearEa c base (8 * o13.toInt)
    let full (bs : List Byte) : List (Nat × RegWrite) :=
      [(4, .f (physF c fr.toNat) (BitVec.allOnes 64) (BitVec.ofNat 64 (ofLe bs)))]
    LoadFrom s k (.ldD k fr base o13 true) (nearCheck s k near 8 8) 8 ⟨0x12, 0, near⟩ full ∧
    StoreTo s k (.stD k fr base o13 true) (nearCheck s k near 8 8) (leBytes 8 (readF c fr).toNat) [] ∧
    (base.toNat % 2 = 0 →
      let far (d : Int) : Nat :=
        (((readG c (base + 1)).toNat % 65536 * 2 ^ 32 + (readG c base).toNat + d) % (2 ^ 48 : Int)).toNat
      let w := far off.toInt
      let q := far (8 * o13.toInt)
      LoadFrom s k (.ldfW k r base off true) (farCheck s w 4 4) 4 ⟨0x12, w / 2 ^ 32 % 65536, w⟩
        (fun bs => [(4, .g (physG c r) (BitVec.ofNat 32 (ofLe bs)))]) ∧
      StoreTo s k (.stfW k r base off true) (farCheck s w 4 4) (leBytes 4 (readG c r).toNat) [] ∧
      LoadFrom s k (.ldfD k fr base o13 true) (farCheck s q 8 8) 8 ⟨0x12, q / 2 ^ 32 % 65536, q⟩ full ∧
      StoreTo s k (.stfD k fr base o13 true) (farCheck s q 8 8) (leBytes 8 (readF c fr).toNat) []) ∧
    (base.toNat % 2 = 1 →
      ∀ i ∈ [Instr.ldfW k r base off true, .stfW k r base off true, .ldfD k fr base o13 true, .stfD k fr base o13 true],
        FaultsOut s k i .M (illegal 1))

/-- What a core's stores and loads do to memory: CoreStoreEffect, CoreLoadEffect. -/
def Obligations.CoreMemoryEffect : Prop :=
  Sys2Proof.Claims.CoreStoreEffect ∧ Sys2Proof.Claims.CoreLoadEffect

/-- Saved images, accumulators and the store-gather buffer: BlocksAndImages, GatherDrain. -/
def Obligations.GatherAndImages : Prop :=
  Sys2Proof.Claims.BlocksAndImages ∧ Sys2Proof.Claims.GatherDrain

/-- How a task ends, is suspended or waits: TaskEnds, WaitForEvents. -/
def Obligations.TaskEndsAndWaits : Prop :=
  Sys2Proof.Claims.TaskEnds ∧ Sys2Proof.Claims.WaitForEvents

/-- q.push, eq.push, esave and erest: the descriptor built, the status and tag returned, and the wait at a full STALL queue
(R100, R139, R140, R145). -/
def Obligations.PushOutcomes : Prop :=
  ∀ (s : State) (k : Nat) (rd rs rt : GReg) (far keep : Bool), coreFree s k = true → (s.core k).stat.getLsbD 0 = true →
    (s.core k).pushRes = none → heldBy s k = false →
    let c := s.core k
    let gives (i : Instr) (t : State) (v : Nat) : Prop :=
      Gives i s (issued (t.setCore k { t.core k with pushRes := none }) k
        { wr := [(4, .g (physG c rd) (BitVec.ofNat 32 v))] })
    (∀ d ws, nearCheck s k (readG c rs).toNat 64 64 = .ok d → (settleCore (taken s k) k).readWords d 16 = some ws →
      let push := (settleCore (taken s k) k).enqueue ((readG c rt).toNat % 2 ^ 20) (coreOwner s k) ws .notify .block (.core k) true
      let op : Instr := .qPush k rd rs rt 0 true
      (push.2 = .accepted → gives op push.1 0) ∧ (push.2 = .dropped → gives op push.1 1) ∧
      (push.2 = .refused → gives op push.1 2) ∧ (push.2 = .held → Waits s k op push.1)) ∧
    (∀ a, pushAddr (taken s k) k rs far = .ok a → c.tagsOut.length < 256 →
      let s1 := settleCore (taken s k) k
      let q := (readG c rt).toNat % 2 ^ 20
      let fb : Nat := if far then 1 else 0
      let eq : Instr := .eqPush k rd rs rt (BitVec.ofNat 11 fb) true
      let es : Instr := .esave k rd rs rt (BitVec.ofNat 11 (fb + if keep then 2 else 0)) true
      let er : Instr := .erest k rd rs rt (BitVec.ofNat 11 fb) true
      let own := ((s.coreItem k).map fun it => dDeadline it.words).getD 0
      let blk := ((s1.readWords (a + 8) 2).map fun w => (w.getD 0 0).toNat + 2 ^ 32 * (w.getD 1 0).toNat).getD 0
      let tag := nextTag c.tagsOut 256 c.tag
      let push (dl : Nat) (kind : CmdKind) := (s1.fresh 16).2.enqueue q (coreOwner s k)
        (cmdWords tag dl a (s1.fresh 16).1) (.core k c.taskid tag) kind (.core k) true
      let ends (i : Instr) (r : State × Enq) : Prop :=
        (r.2 = .accepted → gives i (takeTag r.1 k tag) tag) ∧ (r.2 = .dropped → gives i r.1 0x10000) ∧
        (r.2 = .refused → gives i r.1 0x20000) ∧ (r.2 = .held → Waits s k i r.1)
      (1 ≤ (s1.qcb q).cls ∧ (s1.qcb q).cls ≤ 8 ∧ isSvc q = false →
        ends eq (push (if blk = 0 then own else blk) .block) ∧ ends es (push own (.esave keep)) ∧ ends er (push own .erest)) ∧
      (¬(1 ≤ (s1.qcb q).cls ∧ (s1.qcb q).cls ≤ 8 ∧ isSvc q = false) →
        gives eq s1 0x20000 ∧ gives es s1 0x20000 ∧ gives er s1 0x20000))

/-- Vector loads and stores: VectorLoadsStores, BfpLoadsStores, ElementAccesses. -/
def Obligations.VectorMemory : Prop :=
  Sys2Proof.Claims.VectorLoadsStores ∧ Sys2Proof.Claims.BfpLoadsStores ∧ Sys2Proof.Claims.ElementAccesses

/-- Every V-slot operation issues with its own results and latency, or raises ILLEGAL for a type it does not take (R111, R112,
R120, R121). -/
def Obligations.VectorOpsIssue : Prop :=
  ∀ (s : State) (k : Nat) (long sc cj : Bool) (vd va vb : Grp) (t : BitVec 5) (tgt : BitVec 4) (gb : GReg), coreFree s k = true →
    let c := s.core k
    let does (i : Instr) (r : Except OpFault OpOut) : Prop :=
      match r with
      | .ok o => IssuesOut s k i o
      | .error e => e.cause = 0x10 ∧ FaultsOut s k i .V e
    does (.vadd k long vd va vb sc true) (vAddSub c false long vd va vb sc) ∧
    does (.vsub k long vd va vb sc true) (vAddSub c true long vd va vb sc) ∧
    does (.vmul k long vd va vb sc cj true) (vMulOp c long vd va vb sc cj) ∧
    does (.vmin k long vd va vb sc true) (vMinMax c false long vd va vb sc) ∧
    does (.vmax k long vd va vb sc true) (vMinMax c true long vd va vb sc) ∧
    does (.vand k long vd va vb sc true) (vLogic c long vd va vb sc (fun x y => x &&& y)) ∧
    does (.vor k long vd va vb sc true) (vLogic c long vd va vb sc (fun x y => x ||| y)) ∧
    does (.vxor k long vd va vb sc true) (vLogic c long vd va vb sc (fun x y => x ^^^ y)) ∧
    does (.vsra k long vd va t true) (vShift c false long vd va t) ∧
    does (.vsll k long vd va t true) (vShift c true long vd va t) ∧
    does (.vpow k long vd va true) (vPowOp c long vd va) ∧
    does (.vcvt k long vd va tgt true) (vCvtOp c long vd va tgt) ∧
    does (.vbcst k long vd gb true) (vBcstOp c long vd gb) ∧
    does (.vmov k long vd va true) (vMovOp c long vd (some va)) ∧
    does (.vzero k long vd true) (vMovOp c long vd none)

/-- The element results of the integer vector operations (R111, R118, R121). -/
def Obligations.IntegerVectorResults : Prop :=
  ∀ (c : Core) (long : Bool) (vd va vb : Grp) (t : BitVec 5), vET c ≤ 2 →
    (long = true → vd.toNat % 4 = 0 ∧ va.toNat % 4 = 0 ∧ vb.toNat % 4 = 0) →
    let w := 8 * 2 ^ vET c
    let count := min (vCount c) ((if long then 2048 else 512) / w)
    let x (i : Nat) : Int := sx w (getElem c (grpRegs c long va) w i)
    let y (i : Nat) : Int := sx w (getElem c (grpRegs c long vb) w i)
    let lo : Int := -(2 ^ (w - 1) : Int)
    let hi : Int := 2 ^ (w - 1) - 1
    let out (f : Nat → Int) : OpOut :=
      vOut (grpRegs c long vd) w ((List.range count).map fun i =>
        (i, (pat w (if vWrap c then f i else max lo (min hi (f i))), decide (f i < lo) || decide (hi < f i))))
    vAddSub c false long vd va vb false = .ok (out fun i => x i + y i) ∧
    vAddSub c true long vd va vb false = .ok (out fun i => x i - y i) ∧
    vMinMax c false long vd va vb false = .ok (out fun i => min (x i) (y i)) ∧
    vMinMax c true long vd va vb false = .ok (out fun i => max (x i) (y i)) ∧
    vMulOp c long vd va vb false false = .ok (out fun i => rnd (vTrunc c) (x i * y i) (w - 1)) ∧
    vShift c false long vd va t = .ok (out fun i => rnd (vTrunc c) (x i) t.toNat) ∧
    vShift c true long vd va t = .ok (out fun i => x i * 2 ^ t.toNat)

/-- Accumulators, searches and complex multiplication: AccumulatorAndSearch, ComplexMac. -/
def Obligations.AccumulatorsAndComplexMac : Prop :=
  Sys2Proof.Claims.AccumulatorAndSearch ∧ Sys2Proof.Claims.ComplexMac

/-- Commands of the beamforming, detection and transform engines: the command at the front of the window is carried out by its
engine and its STATUS reported (R141, R142, R148 to R191). -/
def Obligations.BeamAndDetectCommands : Prop :=
  ∀ (s : State) (i : Nat),
    let withCtx (f : State → List Byte → Ctx → State × Nat) (t : State) (_ : Item) (b : List Byte) (c : Option Ctx) :
        State × Nat :=
      match c with
      | some c => f t b c
      | none => (t, csFormat)
    EngineRow s 1 1 i (.combine i) (withCtx (bfeData false i)) ∧
    EngineRow s 1 2 i (.precode i) (withCtx (bfeData true i)) ∧
    EngineRow s 1 3 i (.loadWeights i) (withCtx (bfeLoad i)) ∧
    EngineRow s 2 1 i (.detect i) (fun t _ b _ => detectRun i t b) ∧
    EngineRow s 2 2 i (.demap i) (fun t _ b _ => demapRun i t b) ∧
    EngineRow s 2 3 i (.weightCalc i) (fun t _ b _ => weightRun i t b) ∧
    EngineRow s 2 4 i (.hinv i) (fun t _ b _ => hinvRun i t b) ∧
    EngineRow s 3 1 i (.transform i) (fun t _ b _ => tfeRun i t b)

/-- Commands of the coding engines: the same for encoding, decoding and rate matching (R141, R142, R228, R234, R246). -/
def Obligations.CodingCommands : Prop :=
  ∀ (s : State) (i : Nat),
    EngineRow s 5 1 i (.decode i) (fun t it b _ => ldeRun i t it b) ∧
    EngineRow s 5 2 i (.tbcrc i) (fun t it b _ => tbcrcRun i t it b) ∧
    EngineRow s 6 1 i (.encode i) (fun t _ b _ =>
      if (encodeFieldsOk b && decide (1 ≤ dcR b) && decide (dcR b ≤ 1023) && bF b 0x50 22 10 == 0) = false then (t, csFormat)
      else
        let p := ldpcParams (dcA b) (dcR b) (bF b 0x50 0 22)
        encodeRun 6 i t b fun g tb =>
          if ldpcGeom p g (enNl b) (enQm b) = false then none
          else some (p.c, (List.range p.c).flatMap fun r =>
            ldpcSent p (enRv b) (ldpcE p g (enNl b) (enQm b) r) (enQm b) ((ldpcSegments p tb).getD r []))) ∧
    EngineRow s 7 1 i (.pceEncode i) (fun t _ b _ => pceEncodeRun i t b) ∧
    EngineRow s 7 2 i (.pceDecode i) (fun t _ b _ => pceDecodeRun i t b) ∧
    EngineRow s 8 1 i (.turboDec i) (fun t it b _ => tceRun i t it b) ∧
    EngineRow s 8 2 i (.turboEnc i) (fun t _ b _ =>
      if (encodeFieldsOk b && dcR b == 0 && bF b 0x50 23 9 == 0) = false then (t, csFormat)
      else
        let p := turboParams (dcA b)
        encodeRun 8 i t b fun g tb =>
          if turboGeom p g (enNl b) (enQm b) = false then none
          else some (p.c, (List.range p.c).flatMap fun r =>
            turboSent p (bF b 0x50 0 23) (enRv b) r (turboE p g (enNl b) (enQm b) r) ((turboSegments p tb).getD r [])))

/-- How an engine command is checked and ends: EngineHeader, EngineCompletion. -/
def Obligations.EngineHeaderAndCompletion : Prop :=
  Sys2Proof.Claims.EngineHeader ∧ Sys2Proof.Claims.EngineCompletion

/-- Commands of the filter engine: slices, controls and coefficients (R141, R142). -/
def Obligations.FilterCommands : Prop :=
  ∀ (s : State) (i sn : Nat) (it : Item) (b : List Byte) (c : Ctx),
    (s.fdcTurn i sn 1 = some (it, .go b (some c)) → filterOk b = true →
      Runs (.filter i sn) s fun t =>
        (∃ j, j ∈ t.fdcJobs ∧ j.sn = sn ∧ j.inst = i ∧ j.ctx = c.ctx ∧ j.blk = b ∧ j.inN = 0 ∧ j.outN = 0) ∧
        t.mem = s.mem ∧ t.fab.evs = s.fab.evs ∧ ∀ x ∈ t.fab.items, x.sn = sn → x.started = true) ∧
    (s.fdcTurn i sn 1 = some (it, .go b (some c)) → filterOk b = false →
      Gives (.filter i sn) s (s.engEnd it 4 i 0x03)) ∧
    (s.fdcTurn i sn 2 = some (it, .go b (some c)) → controlOk b c = false →
      Gives (.control i sn) s (s.engEnd it 4 i 0x03)) ∧
    (s.fdcTurn i sn 2 = some (it, .go b (some c)) → controlOk b c = true → bF b 0x30 4 1 = 0 → bQ b 0x28 = 0 →
      let r := fdcChange c b []
      let t := if r.2 then (s.setCtx r.1).count (pgFdc i) Reg.FDC_TALLY_SYNC 1 else s.setCtx r.1
      Gives (.control i sn) s (t.engEnd it 4 i 0x00)) ∧
    (∀ j, s.engOn 4 i = true → s.fdcNext i = some (j, c) → j.reqWait = false →
      Gives (.fdcSlice i) s (fdcServe { s with fdcLast := insertKey i c.slot s.fdcLast } j c))

/-- Contexts and the HARQ scan: ContextCommands, HarqScanMarks. -/
def Obligations.ContextsAndHarq : Prop :=
  Sys2Proof.Claims.ContextCommands ∧ Sys2Proof.Claims.HarqScanMarks

/-- Enqueues and the end of a stall: EnqueueOutcomes, StallEndOutcomes. -/
def Obligations.EnqueueAndStall : Prop :=
  Sys2Proof.Claims.EnqueueOutcomes ∧ Sys2Proof.Claims.StallEndOutcomes

/-- WG_OPEN, WG_CLOSE, POST and ABORT: what each does and where it has no effect (R286, R287, R295, R296). -/
def Obligations.ServiceDescriptors : Prop :=
  ∀ (s : State) (fn group sup : Nat) (ext : Bool) (core : Option Nat) (v tid : Word), s.fabOn = true → group < 65536 →
    sup < 2 ^ 20 →
    (group ≠ 0 → s.fab.groups.length < 4096 → s.fab.groups.any (fun g => g.fn == fn && g.group == group) = false →
      Gives (.wgOpen fn group sup ext) s
        { s with fab := { s.fab with groups := s.fab.groups ++ [⟨fn, group, sup, ext, false⟩] } }) ∧
    (group = 0 ∨ s.fab.groups.any (fun g => g.fn == fn && g.group == group) = true →
      Runs (.wgOpen fn group sup ext) s fun t => t.fab.groups = s.fab.groups) ∧
    (Runs (.wgClose fn group) s fun t =>
      (∀ g ∈ t.fab.groups, ¬(g.fn = fn ∧ g.group = group)) ∧
      (∀ g ∈ s.fab.groups, ¬(g.fn = fn ∧ g.group = group) → g ∈ t.fab.groups) ∧
      t = { s with fab := { s.fab with groups := t.fab.groups } }) ∧
    (0x80000000 ≤ v.toNat →
      let cls := if core.isSome then 0x04 else 0x05
      let inst := core.getD fn
      let n := lookupD 0 (cls * 4096 + inst) s.fab.seqs
      Runs (.post fn core v) s fun t =>
        t.fab.evs = s.fab.evs ++ [⟨evWord cls inst n v, .published fn⟩] ∧ t.mem = s.mem ∧ t.regs = s.regs) ∧
    (v.toNat < 0x80000000 → Gives (.post fn core v) s (s.count pgFabric Reg.TFB_TALLY_NOTEDROP 1)) ∧
    (∀ it, s.task? tid = some it → dKind it.words = 0 → it.fn = fn → it.phase = .dispatched ∨ it.phase = .suspended →
      Runs (.abort fn tid) s fun t =>
        ∃ j ∈ t.fab.items, j.sn = it.sn ∧ j.phase = .completed ∧ j.ended = some ⟨false, 0x34⟩ ∧ j.save = none) ∧
    (∀ it, s.task? tid = some it → it.fn ≠ fn → Gives (.abort fn tid) s s)

/-- Events and the descriptors they release: EventDelivery, TriggerRelease. -/
def Obligations.EventsAndTriggers : Prop :=
  Sys2Proof.Claims.EventDelivery ∧ Sys2Proof.Claims.TriggerRelease

/-- A ready descriptor is dispatched to a core or a host executor, or placed on an engine, when the executor is free (R96,
R97, R269, R272, R273). -/
def Obligations.Dispatching : Prop :=
  ∀ (s : State) (sn save : Nat) (tid : Word) (places : List Nat) (it : Item) (k : Nat),
    s.item? sn = some it → s.fabOn = true → s.tilthOn = true → s.freeTid tid = true → s.quiet = false →
    (s.failsPinned it = true → ∀ x, Gives (.dispatch x sn tid save places) s (s.malformed it tid)) ∧
    (s.failsPinned it = false → ∀ x, s.selected it x = true → s.chosen it x = true →
      (∀ c, x = .core c → dKind it.words = 0 → dPreemptible it.words = true → save < 4 ∧ save ∉ s.savesUsed c) →
      Gives (.dispatch x sn tid save places) s ((s.recordHolds it x).dispatchTo it x tid save places)) ∧
    (∀ hs bufs mc, (s.qcb it.q).abortLate = false →
      let t := s.handOver it (.core k) tid save hs bufs mc
      let c := t.core k
      c.run = .running ∧ c.taskid = tid ∧ c.stat = 0x05 ∧ c.vl = 0x40 ∧ c.vtype = 0x105 ∧ c.rot = 0xF8 ∧ c.lc0 = 0 ∧
      c.lc1 = 0 ∧ c.pc % 16 = 0 ∧ c.pend = [] ∧ c.bundle = [] ∧ c.waiting = false ∧
      t.reg (pgCore k) Reg.GVC_TASKID = tid ∧
      ∃ j ∈ t.fab.items, j.sn = sn ∧ j.phase = .dispatched ∧ j.exec = some (.core k) ∧ j.taskid = tid ∧
        j.tStart = s.airtime)

/-- Release, pre-emption and resumption of tasks: TaskRelease, PreemptAndResume. -/
def Obligations.TaskReleaseAndPreemption : Prop :=
  Sys2Proof.Claims.TaskRelease ∧ Sys2Proof.Claims.PreemptAndResume

/-- Shedding and aborts: Shedding, Aborts. -/
def Obligations.SheddingAndAborts : Prop :=
  Sys2Proof.Claims.Shedding ∧ Sys2Proof.Claims.Aborts

/-- Doorbells, descriptor rings, push windows, DONE writes: what each host write does (R300, R301, R494, R495, R498). -/
def Obligations.HostPaths : Prop :=
  ∀ (s : State) (f n : Nat) (v : Word) (d : List Word), s.winUp f = true → n < 64 → d.length = 16 →
    let w := s.win f
    let r := lookupD FnRing.reset n w.rings
    let cfg := Reg.HIF_FN_RING_CFG + 16 * n
    let size := 2 ^ s.fld ⟨.fnPage, f⟩ cfg 20 5
    let tail := v.toNat % 65536
    (s.ready pgFabric = true →
      let r1 : FnRing := if tail < size then { r with tail := tail } else { r with err := true }
      Gives (.hfwDb f n v) s (s.setWin f { w with rings := insertKey n r1 w.rings })) ∧
    (s.ready pgFabric = false → Gives (.hfwDb f n v) s s) ∧
    (s.fabOn = true → s.quiet = false → f < 64 → s.fld ⟨.fnPage, f⟩ cfg 25 1 = 1 → r.next ≠ r.tail → s.bme f = true →
      s.fab.held.any (fun h => h.who == .ring f n) = false →
      let s1 := s.setWin f { w with rings := insertKey n { r with next := (r.next + 1) % size } w.rings }
      let e := s1.enqueue (s.fld ⟨.fnPage, f⟩ cfg 0 20) f d .notify .block (.ring f n) true
      (e.2 = .refused → Gives (.ringFetch f n d) s (e.1.count ⟨.fnPage, f⟩ Reg.HIF_FN_TALLY_REFUSED 1)) ∧
      (e.2 ≠ .refused → Gives (.ringFetch f n d) s e.1)) ∧
    (s.quiet = false → s.fabOn = true → s.fld ⟨.fnPage, f⟩ (Reg.HIF_FN_PUSH + 4 * n) 20 1 = 1 →
      s.fullFor (s.fld ⟨.fnPage, f⟩ (Reg.HIF_FN_PUSH + 4 * n) 0 20) d = false →
      Gives (.pushSlot f n d true) s
        (s.enqueue (s.fld ⟨.fnPage, f⟩ (Reg.HIF_FN_PUSH + 4 * n) 0 20) f d .notify .block .other false).1) ∧
    (s.quiet = true → Gives (.pushSlot f n d true) s (s.count pgFabric Reg.TFB_TALLY_PUSHDROP 1)) ∧
    (∀ it ring, s.fabOn = true → s.task? w.doneLo = some it → it.exec = some (.host f ring) → it.phase = .dispatched →
      Gives (.hfwDoneHi f v) s (s.endTask it.sn true (v.toNat % 256))) ∧
    (s.fabOn = true → s.task? w.doneLo = none →
      Gives (.hfwDoneHi f v) s (s.count ⟨.fnPage, f⟩ Reg.HIF_FN_TALLY_BADDONE 1))

/-- The fabric's and Tilth's windows: QueueWindow, TilthWindows. -/
def Obligations.QueueAndTilthWindows : Prop :=
  Sys2Proof.Claims.QueueWindow ∧ Sys2Proof.Claims.TilthWindows

/-- Migration, replacement, slack shedding and re-run placement (R315, R325, R326, R327). -/
def Obligations.TilthDecisions : Prop :=
  ∀ (s : State) (h : Word) (e : List Word) (sn : Nat) (it : Item), s.tilthOn = true →
    (∀ m, s.hNamed h = true → s.hEntry h = some e → s.tilth.migr.find? (fun m => m.handle == h) = some m → eState e = 2 →
      Runs (.migrate h false 0) s fun t =>
        (∀ x ∈ t.tilth.migr, x.handle ≠ h) ∧ (∀ x ∈ t.tilth.allocs, x.handle = h → x.addr ≠ eAddr e)) ∧
    (∀ place l, s.hNamed h = true → s.hEntry h = some e → eState e = 1 → eRefs e = 0 → eMcls e ≠ 0 →
      s.tilth.migr.any (fun m => m.handle == h) = false → s.drainingAt (eAddr e) = true →
      (allowedLocs e none ((List.range 16).map Loc.clodMem ++ (List.range 8).map (fun o => Loc.deepAt (stopDB o)) ++
        [Loc.hbm])).find? (fun l => s.locEver (hPool h) l && s.locRoom (hPool h) l (eSize e) &&
          s.locAt (hPool h) false l (eSize e) place) = some l →
      let dst : Alloc := ⟨h, place, roundUp (eSize e) (granule l.mcls), l.mcls⟩
      Runs (.migrate h true place) s fun t =>
        t.tilth.migr = s.tilth.migr ++ [⟨h, dst⟩] ∧ t.tilth.allocs = s.tilth.allocs ++ [dst]) ∧
    (∀ cls i inst, s.item? sn = some it → it.exec = some (.engine cls i) → it.phase = .dispatched → it.started = false →
      inst ≠ i → dDeadline it.words ≠ 0 → s.eligible it (.engine cls inst) = true →
      s.execFree (.engine cls inst) = true →
      dDeadline it.words < s.airtime + ((((s.window cls i).takeWhile (· != sn)).filterMap s.item?).foldl
        (fun a j => a + s.estRun j (.engine cls i)) 0 + s.estRun it (.engine cls i)) →
      s.airtime + s.estFinish it (.engine cls inst) ≤ dDeadline it.words → s.tilth.replaceAt + 4096 ≤ s.airtime →
      Runs (.replace sn inst) s fun t =>
        sn ∉ t.window cls i ∧ t.window cls inst = s.window cls inst ++ [sn] ∧ t.tilth.replaceAt = s.airtime ∧
        ∀ j ∈ t.fab.items, j.sn = sn → j.exec = some (.engine cls inst)) ∧
    (∀ cls src ctx fn dst c, s.ctxs.find? (fun c => c.cls == cls && c.inst == src && c.ctx == ctx && c.fn == fn) = some c →
      s.part ⟨engKind cls, src⟩ = stDraining → s.window cls src = [] → s.ready ⟨engKind cls, dst⟩ = true → 1 ≤ cls →
      cls ≤ 8 → s.ctxRoom cls dst c.size = true → dst ≠ src →
      Runs (.ctxMove cls src ctx fn dst) s fun t =>
        { c with inst := dst, slot := s.freeSlot cls dst } ∈ t.ctxs ∧ t.fab = s.fab ∧ t.ctxs.length = s.ctxs.length) ∧
    (∀ places u, s.item? sn = some it → s.fabOn = true → it.phase = .abandoned →
      dDeadline it.words = 0 ∨ s.airtime + 64 * dRunEst it.words ≤ dDeadline it.words →
      rebind it it.handles.eraseDups places s = some u → u.item? sn = some it →
      Runs (.rerunPlace sn places) s fun t =>
        ∃ j ∈ t.fab.items, j.sn = sn ∧ j.phase = .ready ∧ j.exec = none ∧ j.started = false ∧
          ∀ x ∈ u.fab.items, j.readyAt < x.readyAt)

/-- Writes, read requests, responses and credits on the rings (R337, R340, R342, R343). -/
def Obligations.RingTransfers : Prop :=
  (∀ (s : State) (f : Flit), s.flitOk f = true → noProbe s →
    let k := 128 * f.src + f.dst
    let id : OpId := ⟨f.src, f.agent, f.tag⟩
    let bytes := (List.range 64).map fun j => (j, f.data.getD j 0)
    (lookupD 0 k s.rings.used ≥ 64 → Gives (.write f) s s) ∧
    (lookupD 0 k s.rings.used < 64 → (∀ b ∈ s.rings.bursts, ¬(b.id = id ∧ b.target = f.dst)) → f.seq = 0 → f.last = true →
      f.len = 64 → f.data.length = 64 → f.addr % 64 = 0 → f.mask = none → f.unc = [] →
      s.passThrough f.dst = false → s.addrStop f.addr = some f.dst →
      (∀ j, j < 64 → s.serve (f.addr + j) = .yes) →
      Runs (.write f) s fun t =>
        t.rings.resps = s.rings.resps ++ [⟨3, id, f.dst, 0, true, bit (s.writeSome f.addr bytes).2, false, [], f.addr⟩] ∧
        t.mem = (s.writeSome f.addr bytes).1.mem ∧ t.rings.bursts = s.rings.bursts ∧
        lookupD 0 k t.rings.used = lookupD 0 k s.rings.used + 1 ∧ lookupD 0 k t.rings.owed = lookupD 0 k s.rings.owed + 1 ∧
        t.cores = s.cores ∧ t.fab = s.fab) ∧
    (f.data = [] → 0 < f.len → f.len ≤ 128 → s.passThrough f.dst = false → s.addrStop f.addr = some f.dst →
      s.addrStop (f.addr + f.len - 1) = some f.dst → (∀ l ∈ linesOf f.addr f.len, s.serve l ≠ .no) →
      ∀ u bs, s.fetch f.addr f.len = (u, .ok bs) →
        Runs (.readReq f) s fun t =>
          t.rings.resps = s.rings.resps ++ [⟨2, id, f.dst, 0, true, 0, false, bs, f.addr⟩] ∧ t.mem = u.mem ∧
          (⟨id, true, f.dst, f.addr, f.len, none, []⟩ : RingOp) ∈ t.rings.ops) ∧
    (f.data = [] → s.addrStop f.addr ≠ some f.dst →
      Runs (.readReq f) s fun t =>
        t.rings.resps = s.rings.resps ++ [⟨5, id, f.dst, 0, true, 2, false, [], f.addr⟩] ∧ t.mem = s.mem)) ∧
  (∀ (s : State) (n ring : Nat) (r : Resp), s.rings.resps[n]? = some r → r.src < 86 → r.id.stop < 86 →
    (∀ x ∈ s.rings.resps.take n, ¬(x.src = r.src ∧ x.id.stop = r.id.stop)) → s.ringOf 1 r.src r.id.stop = some ring →
    let p := pgStop r.id.stop
    let ends (o : RingOp) (st : Nat) : RingOp := if o.id = r.id then { o with status := some (max st (o.status.getD 0)) } else o
    let row : Instr := if r.kind = 2 then .readData n 0 0 0 else if r.kind = 3 then .writeAck n else .error n
    r.kind = 2 ∨ r.kind = 3 ∨ r.kind = 5 →
    (r.id ∈ s.rings.dead →
      Runs row s fun t => t.rings.resps = s.rings.resps.eraseIdx n ∧ t.rings.ops = s.rings.ops ∧
        (noProbe s → t.reg p Reg.RNG_TALLY_ABSORB = tallied (s.reg p Reg.RNG_TALLY_ABSORB) 1)) ∧
    (r.id ∉ s.rings.dead → r.kind ≠ 2 →
      Runs row s fun t => t.rings.resps = s.rings.resps.eraseIdx n ∧ t.rings.ops = s.rings.ops.map (ends · r.status)) ∧
    (r.id ∉ s.rings.dead → r.kind = 2 → r.poison = false → r.status = 0 → r.last = true →
      Runs row s fun t => t.rings.resps = s.rings.resps.eraseIdx n ∧
        t.rings.ops = s.rings.ops.map fun o =>
          if o.id = r.id then { o with data := o.data ++ r.data, status := some (o.status.getD 0) } else o)) ∧
  (∀ (s : State) (src dst n ring : Nat), src < 86 → dst < 86 → s.ringOf 1 dst src = some ring →
    let k := 128 * src + dst
    0 < n → n ≤ lookupD 0 k s.rings.owed →
    Runs (.credit src dst n) s fun t =>
      lookupD 0 k t.rings.used = lookupD 0 k s.rings.used - n ∧ lookupD 0 k t.rings.owed = lookupD 0 k s.rings.owed - n ∧
      t.rings.resps = s.rings.resps ∧ t.rings.ops = s.rings.ops)

/-- Abort tails, errors, NAKs and re-sent control requests, a failed segment and the probe control (R347, R350, R351, R353,
R361). -/
def Obligations.RingFailures : Prop :=
  (∀ (s : State) (ring src agent dst tag seq : Nat) (b : Burst), ring < 4 → seq ≤ 32 → dst < 86 → noProbe s →
    let id : OpId := ⟨src, agent, tag⟩
    s.rings.bursts.find? (fun b => b.id == id && b.target == dst) = some b → s.mayRide 0 src dst ring b.unord = true →
    b.tails = [] → (∀ j, j < seq → j ∈ b.seqs) →
    Runs (.abortTail ring src agent dst tag seq) s fun t =>
      (∀ x ∈ t.rings.bursts, ¬(x.id = id ∧ x.target = dst)) ∧
      t.rings.resps = s.rings.resps ++ [⟨3, id, dst, 0, true, 3, false, [], b.addr⟩] ∧ t.mem = s.mem ∧
      (∀ o ∈ t.rings.ops, o.id ≠ id) ∧ ((∃ o ∈ s.rings.ops, o.id = id ∧ o.status = none) → id ∈ t.rings.dead) ∧
      t.reg (pgStop dst) Reg.RNG_LAST_ABORT_HI = BitVec.ofNat 32 (b.written % 2 ^ 13 + b.held.length % 64 * 2 ^ 13)) ∧
  (∀ (s : State), (∀ b ∈ s.rings.bursts, b.id.stop = stopPcie → ∀ j, j < b.seqs.length → j ∈ b.seqs) →
    Runs .linkReset s fun t =>
      (∀ b ∈ t.rings.bursts, b.id.stop ≠ stopPcie) ∧ (∀ o ∈ t.rings.ops, o.id.stop ≠ stopPcie) ∧ t.mem = s.mem ∧
      t.fab = s.fab) ∧
  (∀ (s : State) (src agent dst seq off : Nat), src < 86 → dst < 86 → agent < 32 → seq < 4096 → s.pins.on = true →
    let k := (src * 32 + agent) * 4096 + seq
    let n := lookupD 0 k s.rings.crcFails
    let t : State := s.count (pgStop dst) Reg.RNG_TALLY_CRCNAK 1
    let t : State := { t with rings := { t.rings with crcFails := insertKey k (n + 1) t.rings.crcFails } }
    Gives (.nak src agent dst seq) s (if n = 2 then t.hardpan (pgStop dst) rsRing (src + 128 * agent) else t) ∧
    (lookup? k s.rings.copies = none → seq ∈ lookupD [] (src * 32 + agent) s.rings.applied →
      Gives (.ctrlRetransmit src agent dst seq off) s
        { s with rings := { s.rings with copies := insertKey k s.airtime s.rings.copies } }) ∧
    (lookup? k s.rings.copies = none → seq ∉ lookupD [] (src * 32 + agent) s.rings.applied → src = stopPcie → s.winUp 0 = true →
      let u : State := { s with rings := { s.rings with
        copies := insertKey k s.airtime s.rings.copies
        applied := insertKey (src * 32 + agent) ((seq :: lookupD [] (src * 32 + agent) s.rings.applied).take 2048)
          s.rings.applied } }
      let r := u.regRead (.fn 0) off 4
      Gives (.ctrlRetransmit src agent dst seq off) s (r.1.complete 0 cplOk (leBytes 4 r.2.toNat)))) ∧
  (∀ (s : State) (ring stop : Nat) (lost : List (Nat × Nat × Nat)), ring < 12 → stop < 86 → s.pins.on = true →
    s.ringFailed ring = false →
    (Runs (.segmentFail ring stop lost []) s fun t =>
      t.ringFailed ring = true ∧ t.reg pgRing (Reg.RNG_FAIL_SEG + 4 * ring) = BitVec.ofNat 32 (stop + 128) ∧
      t.rings.dead = s.rings.dead) ∧
    ((∀ rs ∈ [[0, 1, 2, 3], [4, 5, 6, 7], [8, 9]], ∃ r ∈ rs, r ≠ ring ∧ s.ringFailed r = false) →
      Runs (.segmentFail ring stop lost []) s fun t => t.mode = s.mode ∧
        ∀ o ∈ t.rings.ops, (o.id.stop, o.id.agent, o.id.tag) ∈ lost → ∃ st, o.status = some st ∧ 4 ≤ st) ∧
    ((∃ rs ∈ [[0, 1, 2, 3], [4, 5, 6, 7], [8, 9]], ring ∈ rs ∧ ∀ r ∈ rs, r ≠ ring → s.ringFailed r = true) → s.mode ≠ modeRest →
      Runs (.segmentFail ring stop lost []) s fun t => t.mode = modeSafe)) ∧
  (∀ (s : State) (a : Agent) (n : Nat) (v : Word), n < 32 → allowed s a (pgProbe n) = true →
    s.fld (pgProbe n) Reg.PRB_CTRL 0 1 = 0 → bitOf v.toNat 0 = true →
    Runs (.prbCtrl a n v) s fun t => t.reg (pgProbe n) Reg.PRB_CTRL = BitVec.ofNat 32 (v.toNat % 2 ^ 29) ∧
      t.reg64 (pgProbe n) Reg.PRB_FLITS_LO = 0 ∧ t.reg64 (pgProbe n) Reg.PRB_BYTES_LO = 0 ∧ t.mem = s.mem)

/-- Scrub, correction, poison, row retirement, pin failures, and the loss of a channel or a bank (R372, R376, R377, R379,
R381, R388). -/
def Obligations.MemoryCare : Prop :=
  (∀ (s : State) (pg kind sym : Nat) (p : Page), memPart pg = some (p, kind) → s.scrubbed p = true →
    let j := lookupD 0 p.addr s.mem.scrubAt
    (Runs (.scrub pg 0 sym) s fun t =>
      lookupD 0 p.addr t.mem.scrubAt = (j + 1) % scrubSize kind ∧ t.mem.cells = s.mem.cells ∧
      t.mem.poison = s.mem.poison ∧ t.fab = s.fab ∧ t.cores = s.cores) ∧
    (∀ a, s.scrubAddr p kind j = some a → s.bad1 a = false → s.bad2 a = false →
      Runs (.scrub pg 1 sym) s fun t => t.mem.wb = s.mem.wb ++ [a] ∧ t.mem.cells = s.mem.cells ∧
        t.reg pgMem Reg.MEM_TALLY_CORR = tallied (s.reg pgMem Reg.MEM_TALLY_CORR) 1 ∧
        t.reg p Reg.MEM_BK_TALLY_CORR = tallied (s.reg p Reg.MEM_BK_TALLY_CORR) 1)) ∧
  (∀ (s : State) (addr sym : Nat),
    (addr ∈ s.mem.wb → Gives (.correctionWriteback addr sym) s { s with mem := { s.mem with wb := s.mem.wb.erase addr } }) ∧
    (∀ p, addr ∉ s.mem.wb → (s.region addr).page = some p → s.serve addr = .yes → s.readsBad addr = false →
      Runs (.correctionWriteback addr sym) s fun t =>
        t.reg pgMem Reg.MEM_TALLY_CORR = tallied (s.reg pgMem Reg.MEM_TALLY_CORR) 1 ∧
        (Config.memRow ((memKind p.kind).getD 0) addr, s.airtime) ∈ lookupD [] p.addr t.mem.rowHits ∧
        t.mem.cells = s.mem.cells ∧ t.mem.poison = s.mem.poison)) ∧
  (∀ (s : State) (addr req : Nat) (p : Page), req < 16 → s.serve addr = .yes → (s.region addr).page = some p →
    (∀ x y, s.region addr ≠ .hbmMir x y) →
    let k := if (s.region addr).isLine then lineOf addr else addr
    (s.bad1 addr = true → Gives (.poisonWrite addr req false) s (s.noteBad addr req true)) ∧
    (s.bad1 addr = false → ((lookupD [] p.addr s.mem.uncHits).filter fun x => decide (s.airtime < x + 1966080)).length < 15 →
      Runs (.poisonWrite addr req false) s fun t => k ∈ t.mem.poison ∧ t.mem.cells = s.mem.cells ∧
        t.reg pgMem Reg.MEM_TALLY_UNCORR = tallied (s.reg pgMem Reg.MEM_TALLY_UNCORR) 1 ∧
        t.reg pgMem Reg.MEM_LAST_UNCORR_LO = BitVec.ofNat 32 k ∧
        t.faultLog = s.faultLog ++ [⟨s.airtime, p.addr, rsUncorrectable, addr / 64, true⟩] ∧ t.part p = s.part p)) ∧
  (∀ (s : State) (pg row kind : Nat) (p : Page), memPart pg = some (p, kind) → row < 2 ^ 24 →
    let used := s.fld p Reg.MEM_BK_SPARE 16 16
    let after (t : State) : Prop :=
      (Config.memRows kind ≤ row → t.fld p Reg.MEM_BK_ROW_CMD 2 2 = 2 ∧ t.mem.remap = s.mem.remap) ∧
      (row < Config.memRows kind → used < spareRows kind → used < 65535 → t.fld p Reg.MEM_BK_SPARE 16 16 = used + 1 ∧ t.fld p Reg.MEM_BK_ROW_CMD 2 2 = 0 ∧
        row ∈ lookupD [] p.addr t.mem.remap) ∧
      (row < Config.memRows kind → spareRows kind ≤ used → t.fld p Reg.MEM_BK_SPARE 16 16 = used ∧ t.fld p Reg.MEM_BK_ROW_CMD 2 2 = 1 ∧
        t.mem.remap = s.mem.remap) ∧
      (row < Config.memRows kind → t.fld p Reg.MEM_BK_ROW_CMD 8 24 = row) ∧ t.mem.cells = s.mem.cells ∧ t.part p = s.part p
    (s.serving p = true → s.fld pgMem Reg.MEM_RETIRE_CTRL 16 1 = 1 →
      s.fld pgMem Reg.MEM_RETIRE_CTRL 0 4 ≤ ((lookupD [] p.addr s.mem.rowHits).filter fun h =>
        h.1 == row && decide (s.airtime ≤ h.2 + s.fld pgMem Reg.MEM_RETIRE_CTRL 8 8 * 3600 * 1966080000)).length →
      Runs (.autoRowRetire pg row) s after) ∧
    (∀ a, allowed s a p = true → Runs (.tendRow a pg row) s after)) ∧
  (∀ (s : State) (p sym : Nat), p < 128 → sym < 72 → s.serving (pgPc p) = true →
    64 ≤ ((lookupD [] (pgPc p).addr s.mem.pinHits).filter fun h => h.1 == sym && decide (s.airtime ≤ h.2 + 1966080000)).length →
    (s.fld (pgPc p) Reg.MEM_BK_PIN 7 1 = 0 →
      Gives (.pinFail p sym) s (s.setReg (pgPc p) Reg.MEM_BK_PIN (BitVec.ofNat 32 (sym + 128)))) ∧
    (s.fld (pgPc p) Reg.MEM_BK_PIN 7 1 = 1 → s.fld (pgPc p) Reg.MEM_BK_PIN 0 7 ≠ sym →
      Runs (.pinFail p sym) s fun t => t.part (pgPc p) = stFaulted)) ∧
  (∀ (s : State) (p b reason detail : Nat), s.pins.on = true → reason < 256 →
    (p < 128 → s.part (pgPc p) = stReady →
      (Runs (.channelLoss p reason detail false) s fun t => t.part (pgPc p) = stFaulted ∧ t.mem.cells = s.mem.cells ∧
        t.reg (pgPc p) Reg.PG_FAULT_INFO = BitVec.ofNat 32 (reason + detail % 2 ^ 24 * 2 ^ 8)) ∧
      (∀ cs, s.roomFor p = some cs → Runs (.channelLoss p reason detail false) s fun t =>
        p ∈ t.mem.moved ∧ p ∈ t.mem.wiped ∧ lookupD [] p t.mem.movedTo = cs) ∧
      (s.roomFor p = none → Runs (.channelLoss p reason detail false) s fun t => p ∈ t.mem.lost ∧ t.mem.moved = s.mem.moved)) ∧
    (p < 128 → s.part (pgPc p) = stFaulted → p ∈ s.mem.moved → p ∉ s.mem.rebuilt →
      Runs (.channelLoss p reason detail true) s fun t => p ∈ t.mem.rebuilt ∧ t.mem.cells = s.mem.cells) ∧
    (b < 32 → s.part ⟨.dbBank, b⟩ = stReady →
      Runs (.bankLoss b reason detail) s fun t => t.part ⟨.dbBank, b⟩ = stFaulted ∧ t.mem = s.mem ∧
        t.reg ⟨.dbBank, b⟩ Reg.PG_FAULT_INFO = BitVec.ofNat 32 (reason + detail % 2 ^ 24 * 2 ^ 8)))

/-- Accesses of the host through BAR2: what is read and written, poisoned completions, and Unsupported Request (R378, R383,
R488, R489). -/
def Obligations.HostMemoryAccess : Prop :=
  ∀ (s : State) (f off : Nat), f < 64 → s.linkDown = false →
    (∀ len, 0 < len → len ≤ 4096 →
      (s.hostUp = false ∨ s.fnUp f = false ∨ s.bar2Run f off len = none →
        Gives (.hostBar2Read f off len) s { s with cpls := s.cpls ++ [⟨f, 1, []⟩] }) ∧
      (∀ a u bs, s.hostUp = true → s.fnUp f = true → s.bar2Run f off len = some a → s.fetch a len = (u, .ok bs) →
        Gives (.hostBar2Read f off len) s { u with cpls := u.cpls ++ [⟨f, 0, bs⟩] }) ∧
      (∀ a u x, s.hostUp = true → s.fnUp f = true → s.bar2Run f off len = some a → s.fetch a len = (u, .poison x) →
        Runs (.hostBar2Read f off len) s fun t => t.cpls = s.cpls ++ [⟨f, 3, List.replicate len 0xFF⟩] ∧ t.mem = s.mem)) ∧
    (∀ data : List Byte, data ≠ [] → data.length ≤ 512 → s.hostUp = true → s.fnUp f = true →
      (∀ a, s.bar2Run f off data.length = some a → (s.write a data).2 ≠ .access →
        Gives (.hostBar2Write f off data) s (s.write a data).1) ∧
      (s.bar2Run f off data.length = none → f ≠ 0 → Gives (.hostBar2Write f off data) s s) ∧
      (s.bar2Run f off data.length = none → f = 0 →
        Gives (.hostBar2Write f off data) s (s.count pgHif Reg.HIF_TALLY_ACCERR 1))) ∧
    (f ≠ 0 →
      s.bar2 f off =
        let p : Page := ⟨.fnPage, f⟩
        let o := Reg.HIF_FN_APT_LO + 16 * (off / 0x4000000)
        let y := off % 0x4000000
        if off / 0x4000000 < 16 ∧ s.fld p (o + 8) 15 1 = 1 ∧ y < s.fld p (o + 8) 0 15 * 4096 then some (s.reg64 p o + y) else none)

/-- DMA requests, bursts and channel commands: DmaBursts, DmaEndsAndCommands. -/
def Obligations.DmaTransfers : Prop :=
  Sys2Proof.Claims.DmaBursts ∧ Sys2Proof.Claims.DmaEndsAndCommands

/-- Serial lanes: LaneCommands, LaneSleep. -/
def Obligations.LaneOperations : Prop :=
  Sys2Proof.Claims.LaneCommands ∧ Sys2Proof.Claims.LaneSleep

/-- The time base, pulses and stamps: TimeBaseCommands, PulsesAndStamps. -/
def Obligations.TimeBaseAndStamps : Prop :=
  Sys2Proof.Claims.TimeBaseCommands ∧ Sys2Proof.Claims.PulsesAndStamps

/-- Frames received: what is dropped and tallied, and the samples and symbols that land (R54, R438, R440, R442, R444, R445,
R447). -/
def Obligations.FramerReceive : Prop :=
  (∀ (s : State) (p sub : Nat) (bytes host : List Byte), p < 64 → s.serving (pgPort p) = true → s.mode ≠ modeSafe →
    let g := pgPort p
    let bad : Prop := bytes.length < 64 ∨ s.fld g Reg.PORT_CFG 9 14 < bytes.length ∨ fcsOk bytes = false
    (bad → Gives (.rxFrame p sub bytes host) s (s.count g Reg.PORT_TALLY_BAD 1)) ∧
    (¬bad → ethParse bytes = none → Gives (.rxFrame p sub bytes host) s (s.count g Reg.PORT_TALLY_OTHER 1)) ∧
    (∀ vid ty rest, ¬bad → ethParse bytes = some (vid, ty, rest) →
      let m := rest.take (rest.length - 4)
      let peer := numBe ((bytes.drop 6).take 6)
      (∀ f n, ty = 0xAEFE → s.quiet = false → s.framerAs (s.fld g Reg.PORT_CFG 5 4) = some f → ecpriOk m = true → ecpriType m = 0 →
        ((s.framer f).portFlows p).find? (fun j =>
          let fl := (s.framer f).flow j
          !flDown fl && !flCplane fl && flEaxc fl == numBe ((ecpriBody m).take 2) && (!flVlan fl || vid == some (flVid fl))) = some n →
        Runs (.rxFrame p sub bytes host) s fun t =>
          (t.framer f).inbox = (s.framer f).inbox ++ [⟨p, s.airtime + sub % 4, n, peer, m⟩] ∧
          (t.framer f).syms = (s.framer f).syms ∧ t.reg g Reg.PORT_TALLY_RX = tallied (s.reg g Reg.PORT_TALLY_RX) 1 ∧ t.mem = s.mem) ∧
      (ty = 0xAEFE → s.framerAs (s.fld g Reg.PORT_CFG 5 4) = none →
        Runs (.rxFrame p sub bytes host) s fun t => t.links = s.links ∧
          t.reg g Reg.PORT_TALLY_NOFRAMER = tallied (s.reg g Reg.PORT_TALLY_NOFRAMER) 1) ∧
      (ty ≠ 0xAEFE → ptpFrame ty m = false →
        Runs (.rxFrame p sub bytes host) s fun t => t.links = s.links ∧
          t.reg g Reg.PORT_TALLY_OTHER = tallied (s.reg g Reg.PORT_TALLY_OTHER) 1) ∧
      (ty ≠ 0xAEFE → ptpFrame ty m = true → s.serving pgTime = true → s.fld pgTime Reg.TB_PTP_SIZE 0 12 = 0 →
        Runs (.rxFrame p sub bytes host) s fun t => t.links = s.links ∧
          t.reg pgTime Reg.TB_TALLY_PTPDROP = tallied (s.reg pgTime Reg.TB_TALLY_PTPDROP) 1))) ∧
  (∀ (s : State) (f : Nat) (m : InFrame) (rest : List InFrame) (a : SymAt) (secs : List (Nat × Nat × List Byte)) (short : Bool),
    s.framerOn f = true → (s.framer f).inbox = m :: rest → ecpriType m.bytes = 0 →
    let x := s.framer f
    let u := s.setFramer f { x with inbox := rest }
    let fl := x.flow m.flow
    let ca := x.carrier (flCarrier fl)
    let b := (ecpriBody m.bytes).drop 4
    let open_ : Int := a.start + caWinStart ca
    bitsOf (b.getD 0 0).toNat 4 3 = 1 → bitsOf (b.getD 0 0).toNat 7 1 = 0 → flowFits fl ca = true →
    flCarrier fl ∈ x.carrierOn → caDown ca = false → s.uParse fl ca m.at_ b = (some a, secs, true, short) →
    (open_ ≤ m.at_ → (m.at_ : Int) ≤ a.start + caWinEnd ca → Gives (.uPlaneFrame f) s (u.uProcess f m.flow a secs short)) ∧
    (open_ ≤ m.at_ → (a.start : Int) + caWinEnd ca < m.at_ →
      Gives (.uPlaneFrame f) s ((u.flowTally f m.flow 6 1).count (pgFrm f) Reg.FRM_TALLY_LATE 1)) ∧
    ((m.at_ : Int) < open_ → open_ ≤ m.at_ + (s.fld (pgFrm f) Reg.FRM_EARLY 0 24 : Nat) → x.early = [] → b.length ≤ 262144 →
      Runs (.uPlaneFrame f) s fun t => (t.framer f).early = [⟨m.flow, open_.toNat, m.at_, b⟩] ∧ (t.framer f).inbox = rest ∧
        t.mem = s.mem ∧ t.dmaLines = s.dmaLines)) ∧
  (∀ (s : State) (f : Nat) (e : EarlyFrame) (a : SymAt) (secs : List (Nat × Nat × List Byte)) (ok short : Bool),
    s.framerOn f = true → (s.framer f).early.find? (fun e => decide (e.openAt ≤ s.airtime)) = some e →
    let x := s.framer f
    let u := s.setFramer f { x with early := x.early.erase e }
    u.uParse (x.flow e.flow) (x.carrier (flCarrier (x.flow e.flow))) e.at_ e.bytes = (some a, secs, ok, short) →
    Gives (.earlyRelease f) s (u.uProcess f e.flow a secs short)) ∧
  (∀ (s : State) (f c start : Nat) (y : SymSt), s.framerOn f = true → (s.framer f).sym? c start = some y → y.posted = false →
    let x := s.framer f
    let miss := x.missing y
    (y.closed = none → (y.start : Int) + caWinEnd (x.carrier c) ≤ s.airtime →
      Runs (.rxWindowClose f c start) s fun t =>
        (t.framer f).sym? c start = some { y with got := y.got.filter fun p => !miss.contains p, closed := some miss.length } ∧ (miss = [] → t.mem = s.mem) ∧
        ((t.framer f).carrier c).getD 8 0 =
          (if ((x.carrier c).length ≤ 8) then 0 else tallied ((x.carrier c).getD 8 0) miss.length)) ∧
    ((s.airtime : Int) < y.start + caWinEnd (x.carrier c) → Gives (.rxWindowClose f c start) s s) ∧
    (y.closed = none → ¬(∀ p ∈ y.want, p ∈ y.got) → Gives (.symbolComplete f c start) s s) ∧
    (y.closed.isSome = true ∨ (∀ p ∈ y.want, p ∈ y.got) →
      (s.framerReqs f).any (fun r => r.carrier == c && r.start == start) = false →
      let low := 0x50 * 2 ^ 24 + c % 64 * 2 ^ 18 + y.sym % 16 * 2 ^ 14 + min (y.closed.getD 0) 16383
      Runs (.symbolComplete f c start) s fun t =>
        t.fab.evs = s.fab.evs ++ [⟨evWord 0x02 f (lookupD 0 (2 * 4096 + f) s.fab.seqs) (BitVec.ofNat 32 low),
          .published (s.owner (pgFrm f))⟩] ∧
        (∀ z, (t.framer f).sym? c start = some z → z.posted = true) ∧ t.mem = s.mem ∧ t.dmaLines = s.dmaLines)) ∧
  (∀ (s : State) (n : Nat) (m : Notice) (y : HalfSt), s.links.notices[n]? = some m → s.framerOn m.framer = true →
    let x := s.framer m.framer
    let ca := x.carrier m.carrier
    m.carrier ∈ x.carrierOn → caDown ca = false → x.half m.carrier (m.sym % 2) = some y → y.full = true → y.slot = m.slot →
    y.sym = m.sym →
    Runs (.stagingNotice n) s fun t => t.links.notices = s.links.notices.eraseIdx n ∧
      (t.framer m.framer).half m.carrier (m.sym % 2) =
        some { y with notices := y.notices + 1, full := decide (y.notices + 1 < caNotices ca) } ∧ t.mem = s.mem)

/-- Frames sent: symbols made ready, released, sent or missed; takeover; one-way delay messages (R439, R448, R449, R452,
R453). -/
def Obligations.FramerSend : Prop :=
  (∀ (s : State) (p q : Nat) (it : TxItem) (rest : List TxItem), p < 64 → s.serving (pgPort p) = true → s.mode ≠ modeSafe →
    (List.range 8).reverse.find? (s.mayEgress p) = some q → lookupD [] q (s.mac p).queues = it :: rest → it.ptp = none →
    it.symEnd = none →
    Runs (.txFrame p) s fun t => t.links.sent = s.links.sent ++ [⟨p, s.airtime, withFcs it.bytes⟩] ∧
      lookupD [] q (t.mac p).queues = rest ∧ t.mem = s.mem ∧
      t.reg (pgPort p) Reg.PORT_TALLY_TX = tallied (s.reg (pgPort p) Reg.PORT_TALLY_TX) 1) ∧
  (∀ (s : State) (f : Nat) (e : List Byte), s.framerOn f = true → (s.framer f).entry = none →
    0 < s.fld (pgFrm f) Reg.FRM_RING_SIZE 0 12 → s.fetch (s.ringAt f) 2048 = (s, .ok e) →
    let w := ofLe (e.take 4)
    (bitOf w 0 = true → bitsOf w 1 2 ≠ 3 → Gives (.ringPoll f) s (s.setFramer f { s.framer f with entry := some (e, s.airtime) })) ∧
    (bitOf w 0 = false → Gives (.ringPoll f) s s) ∧
    (bitOf w 0 = true → bitsOf w 1 2 = 3 →
      Gives (.ringPoll f) s ((s.count (pgFrm f) Reg.FRM_TALLY_UNSUPPORTED 1).ringNext f e))) ∧
  (∀ (s : State) (f : Nat) (e : List Byte) (at_ : Nat), s.framerOn f = true → (s.framer f).entry = some (e, at_) →
    let g := pgFrm f
    let w := ofLe (e.take 4)
    let x := s.framer f
    let n := bitsOf w 3 8
    let fl := x.flow n
    let tx := ofLe ((e.drop 8).take 8)
    let b := (e.drop 64).take (bitsOf w 11 11)
    tx ≤ s.airtime →
    (bitsOf w 1 2 = 0 → tx = 0 ∨ at_ ≤ tx + 65536 → (b.getD 5 0).toNat ∈ [0, 1, 3, 5, 6] → n ∈ x.flowOn → flDown fl = true →
      flCplane fl = true →
      let pc := beNum 2 (flEaxc fl) ++ [BitVec.ofNat 8 (lookupD 0 n x.seqIds), 0x80]
      Runs (.cplane f) s fun t =>
        lookupD [] (flEq fl) (t.mac (flPort fl)).queues =
          lookupD [] (flEq fl) (s.mac (flPort fl)).queues ++ [⟨s.flowFrame fl 2 (pc ++ b), none, none, some (f, n)⟩] ∧
        (t.framer f).entry = none ∧ lookupD 0 n (t.framer f).seqIds = (lookupD 0 n x.seqIds + 1) % 256) ∧
    (bitsOf w 1 2 = 0 → tx ≠ 0 → tx + 65536 < at_ →
      Runs (.cplane f) s fun t => t.links.macs = s.links.macs ∧ (t.framer f).entry = none ∧
        t.reg g Reg.FRM_TALLY_MISSED = tallied (s.reg g Reg.FRM_TALLY_MISSED) 1 ∧
        (⟨evWord 0x02 f (lookupD 0 (2 * 4096 + f) s.fab.seqs) (BitVec.ofNat 32 (0x52 * 2 ^ 24 + n)), .published (s.owner g)⟩ : Ev) ∈
          t.fab.evs) ∧
    (let w1 := ofLe ((e.drop 4).take 4)
     let ca := x.carrier (bitsOf w1 0 6)
     let did := (s.framerNotice f (bitsOf w1 0 6) (ofLe ((e.drop 16).take 8)) (bitsOf w1 6 4)).ringNext f e
     let stale := (s.count g Reg.FRM_TALLY_STALE 1).ringNext f e
     (bitsOf w 1 2 = 1 → Gives (.ready f) s (if caByRing ca = true ∧ caDown ca = true then did else stale)) ∧
     (bitsOf w 1 2 = 2 → Gives (.release f) s (if caByRing ca = true ∧ caDown ca = false then did else stale)))) ∧
  (∀ (s : State) (f c h start : Nat) (y : HalfSt), s.framerOn f = true → (s.framer f).half c h = some y →
    let x := s.framer f
    let ca := x.carrier c
    let g := pgFrm f
    caDown ca = true → s.symOf (caGen ca) y.slot y.sym = some start →
    (y.full = false ∨ (s.airtime : Int) < start + caWinStart ca → Gives (.egress f c h) s s) ∧
    (∀ r, y.full = true → (start : Int) + caWinStart ca ≤ s.airtime → (s.txParts f c start).drop y.next = [r] →
      s.lineReqs (8 * f + caLine ca) = [] →
      Runs (.egress f c h) s fun t => t.lineReqs (8 * f + caLine ca) =
        [⟨caAddr ca h r.ant r.prb, r.nprb * caPrbBytes ca, [], some { r with start := start }⟩] ∧ t.mem = s.mem) ∧
    (y.full = false → (start : Int) + caWinEnd ca ≤ s.airtime →
      Runs (.egressMissed f c h) s fun t => (t.framer f).half c h = none ∧
        t.reg g Reg.FRM_TALLY_MISSED = tallied (s.reg g Reg.FRM_TALLY_MISSED) 1 ∧
        t.fab.evs = s.fab.evs ++ [⟨evWord 0x02 f (lookupD 0 (2 * 4096 + f) s.fab.seqs)
          (BitVec.ofNat 32 (0x51 * 2 ^ 24 + c % 64 * 2 ^ 18 + y.sym % 16 * 2 ^ 14)), .published (s.owner g)⟩]) ∧
    (y.full = true → Gives (.egressMissed f c h) s s)) ∧
  (∀ (s : State) (f c h slot sym : Nat), s.framerOn f = true → h < 2 → (s.framer f).half c h = none →
    let x := s.framer f
    let ca := x.carrier c
    c ∈ x.carrierOn → caDown ca = true → s.symDue (caGen ca) h (s.airtime - caWinEnd ca) = some (slot, sym) →
    (16 * slot + sym < lookupD 0 (2 * c + h) x.ended → Gives (.egressMissed f c h) s s) ∧
    (lookupD 0 (2 * c + h) x.ended ≤ 16 * slot + sym →
      Runs (.egressMissed f c h) s fun t => lookupD 0 (2 * c + h) (t.framer f).ended = 1 + 16 * slot + sym ∧
        (t.framer f).halves = x.halves ∧ t.mem = s.mem ∧
        t.reg (pgFrm f) Reg.FRM_TALLY_MISSED = tallied (s.reg (pgFrm f) Reg.FRM_TALLY_MISSED) 1)) ∧
  (∀ (s : State) (f n : Nat), f < 16 → s.part (pgFrm f) = stFaulted → s.identity (pgFrm f) = some n →
    s.part (pgFrm 16) = stDown → s.identity (pgFrm 16) = none → s.ward.stopped = false → s.mode ≠ modeSafe →
    Runs (.framerTakeover f .slow) s fun t => t.identity (pgFrm 16) = some n ∧ t.identity (pgFrm f) = none ∧
      ((∀ j, j < 8 → s.lineReqs (8 * f + j) = []) →
        (t.framer 16).flows = (s.framer f).flows ∧ (t.framer 16).carriers = (s.framer f).carriers ∧
        (t.framer 16).halves = (s.framer f).halves)) ∧
  (∀ (s : State) (f : Nat) (m : InFrame) (rest : List InFrame), s.framerOn f = true → (s.framer f).inbox = m :: rest →
    ecpriType m.bytes = 5 →
    let b := ecpriBody m.bytes
    let x := s.framer f
    let fl := x.flow m.flow
    let id := (b.getD 0 0).toNat
    let msg (act t : Nat) : TxItem := ⟨s.flowFrame fl 5 ([BitVec.ofNat 8 id, BitVec.ofNat 8 act] ++ beNum 6 (ptpTime t).1 ++
      beNum 4 (ptpTime t).2 ++ beNum 8 0), none, none, some (f, m.flow)⟩
    let out (t : State) (it : TxItem) : Prop := lookupD [] (flEq fl) (t.mac (flPort fl)).queues =
      lookupD [] (flEq fl) (s.mac (flPort fl)).queues ++ [it] ∧ (t.framer f).inbox = rest ∧ t.regs = s.regs ∧ t.mem = s.mem
    ((b.getD 1 0).toNat = 0 → Runs (.owdRequest f) s fun t => out t (msg 2 m.at_)) ∧
    ((b.getD 1 0).toNat = 3 → Runs (.owdRemoteRequest f) s fun t => out t (msg 0 s.airtime) ∧
      lookup? id (t.framer f).owd = some s.airtime) ∧
    (∀ t1 : Nat, (b.getD 1 0).toNat = 2 → lookup? id x.owd = some t1 →
      let t2 := ptpToTc (numBe ((b.drop 2).take 6)) (numBe ((b.drop 8).take 4))
      let cv := (sx 64 (numBe ((b.drop 12).take 8)) * 1966080000 + 2 ^ 15 * 10 ^ 9) / (2 ^ 16 * 10 ^ 9)
      Runs (.owdResponse f) s fun t => t.reg (pgFrm f) Reg.FRM_OWD = BitVec.ofInt 32 (t2 - t1 + cv) ∧
        (t.framer f).owd = eraseKey id x.owd ∧ t.fab.evs = s.fab.evs ++ [⟨evWord 0x02 f (lookupD 0 (2 * 4096 + f) s.fab.seqs)
          (BitVec.ofNat 32 (0x53 * 2 ^ 24 + m.flow % 256)), .published (s.owner (pgFrm f))⟩]))

/-- The framer's table window, and CPRI hyperframes and underrun (R440, R441, R443, R454 to R456, R482). -/
def Obligations.FramerTablesAndCpri : Prop :=
  (∀ (s : State) (a : Agent) (f : Nat), f < 17 → allowed s a (pgFrm f) = true →
    let g := pgFrm f
    let x := s.framer f
    let n := s.fld g Reg.FRM_TSEL 0 8
    let result (t : State) : Nat := t.fld g Reg.FRM_TCMD 4 2
    let w := (List.range 4).map (fun k => x.staged.getD k 0) ++ (x.flow n).drop 4
    let w16 := (((List.range 16).map fun k => x.staged.getD k 0).set 8 ((x.carrier n).getD 8 0)).set 9 ((x.carrier n).getD 9 0)
    (s.fld g Reg.FRM_TSEL 8 1 = 0 →
      (Runs (.frmRead a f) s fun t => result t = 0 ∧ t.framer f = { x with staged := x.flow n }) ∧
      (Runs (.frmWrite a f) s fun t => result t = (if n ∈ x.flowOn then 1 else if flowOk w then 0 else 2) ∧
        t.framer f = if n ∉ x.flowOn ∧ flowOk w = true then { x with flows := insertKey n w x.flows } else x) ∧
      (Runs (.frmEnable a f) s fun t => result t = (if flowOk (x.flow n) then 0 else 2) ∧
        (n ∈ (t.framer f).flowOn ↔ n ∈ x.flowOn ∨ flowOk (x.flow n) = true) ∧ (t.framer f).flows = x.flows) ∧
      (Runs (.frmDisable a f) s fun t => result t = 0 ∧ t.framer f = { x with flowOn := x.flowOn.filter (· != n) })) ∧
    (s.fld g Reg.FRM_TSEL 8 1 = 1 → n < 64 →
      (Runs (.frmRead a f) s fun t => result t = 0 ∧ t.framer f = { x with staged := x.carrier n }) ∧
      (Runs (.frmWrite a f) s fun t => result t = (if n ∈ x.carrierOn then 1 else if carrierOk w16 then 0 else 2) ∧
        t.framer f = if n ∉ x.carrierOn ∧ carrierOk w16 = true then { x with carriers := insertKey n w16 x.carriers } else x) ∧
      (Runs (.frmEnable a f) s fun t => result t = (if carrierOk (x.carrier n) then 0 else 2) ∧
        (n ∈ (t.framer f).carrierOn ↔ n ∈ x.carrierOn ∨ carrierOk (x.carrier n) = true) ∧ (t.framer f).carriers = x.carriers) ∧
      (Runs (.frmDisable a f) s fun t => result t = 0 ∧ n ∉ (t.framer f).carrierOn ∧
        (∀ y ∈ (t.framer f).syms, y.carrier ≠ n) ∧ (∀ y ∈ (t.framer f).halves, y.carrier ≠ n))) ∧
    (s.fld g Reg.FRM_TSEL 8 1 = 1 → 64 ≤ n → ∀ i ∈ [Instr.frmRead a f, .frmWrite a f, .frmEnable a f, .frmDisable a f],
      Runs i s fun t => result t = 2 ∧ t.links = s.links)) ∧
  (∀ (s : State) (b : Nat), s.cpriOn b = true → s.cpriFld b 1 1 = 1 →
    let p := s.cpriPort b
    let x := s.cpriSt b
    s.serving (pgPort p) = true → s.fld (pgPort p) Reg.PORT_CFG 0 3 = 7 →
    Runs (.cpriUnderrun b) s fun t =>
      t.links.sent = s.links.sent ++ [⟨p, s.airtime, cpriOut (s.cpriIqw b) x.tx ++ List.replicate (4 * s.cpriFld b 12 5) 0⟩] ∧
      t.cpriSt b = { x with tx := [] } ∧ t.mem = s.mem ∧
      t.reg (pgPort p) Reg.PORT_TALLY_UNDERRUN = tallied (s.reg (pgPort p) Reg.PORT_TALLY_UNDERRUN) 1) ∧
  (∀ (s : State) (p sub : Nat), p < 32 → s.serving (pgPort p) = true → s.fld (pgPort p) Reg.PORT_CFG 0 3 = 7 →
    (∀ e, (s.mac p).hyper = some e → e ≤ s.airtime →
      Runs (.hyperframe p true sub) s fun t =>
        t.fld (pgPort p) Reg.PORT_CPRI_RTT 0 24 = (s.airtime + sub % 4 - e) % 2 ^ 24 ∧ t.links = s.links) ∧
    (∀ e, e ≤ s.airtime → s.airtime ≤ e + 5 → tcFrame ≤ e → s.genOffset (s.fld (pgPort p) Reg.PORT_CFG 26 6) < tcFrame →
      (e - s.genOffset (s.fld (pgPort p) Reg.PORT_CFG 26 6)) % tcFrame = 0 →
      Runs (.hyperframe p false sub) s fun t => (t.mac p).hyper = some e ∧ t.regs = s.regs)) ∧
  (∀ (w : Nat) (bs : List Byte), 1 ≤ w → w ≤ 16 → bs.length % 2 = 0 →
    (∀ v ∈ comps bs, -(2 ^ (w - 1) : Int) ≤ v ∧ v < 2 ^ (w - 1)) → cpriOut w (cpriIn w bs) = bs)

/-- Packets between devices: writes, enqueues and events accepted in order, replayed until acknowledged (R471, R476 to R478).
-/
def Obligations.RealvinPackets : Prop :=
  (∀ (s : State) (n ty : Nat) (pkt : List Byte), s.rvOn n = true → s.rvLink n = 2 → ty = 1 ∨ ty = 2 ∨ ty = 3 →
    let x := s.rv n
    let h := rvHead pkt
    let row : Instr := if ty = 1 then .rvWrite n pkt else if ty = 2 then .rvEnqueue n pkt else .rvEvent n pkt
    let d := (bitsOf h 4 12 + 4096 - x.rxSeq) % 4096
    let back (u : State) (nak : Bool) : State := u.send (rvPort n) (rvPacket 0 (u.rv n).txSeq (u.rv n).ack nak 0 [])
    (rvIntact pkt = false → Gives row s (back (s.count (pgRv n) Reg.RV_TALLY_CRC 1) true)) ∧
    (rvIntact pkt = true → bitsOf h 0 4 = ty → x.replay = [] →
      (0 < d → d < 2048 → Gives row s (back s true)) ∧
      (2048 ≤ d → Gives row s (back s false)) ∧
      (d = 0 →
        let u := back (s.setRv n { x with rxSeq := (x.rxSeq + 1) % 4096 }) false
        let body := pkt.drop 32
        let a := bitsOf h 33 48
        let len := bitsOf h 81 16
        let inside : Prop := ∃ w, w < 8 ∧
          let e := x.entry 1 w
          let base := (e.getD 0 0).toNat + (e.getD 1 0).toNat * 2 ^ 32
          base ≤ a ∧ a + len ≤ base + (e.getD 2 0).toNat * 4096
        (ty = 1 → inside → 0 < len → len ≤ 256 → len ≤ body.length →
          Gives row s (u.writeFor (s.owner (pgRv n)) a (body.take len)).1) ∧
        (ty = 1 → ¬inside → Runs row s fun t => t.mem = s.mem ∧ (t.rv n).rxSeq = (x.rxSeq + 1) % 4096 ∧
          t.reg (pgRv n) Reg.RV_TALLY_INREJECT = tallied (s.reg (pgRv n) Reg.RV_TALLY_INREJECT) 1) ∧
        (ty = 2 → x.stalled = [] →
          let ws := (List.range 16).map fun j => BitVec.ofNat 32 (ofLe ((body.drop (4 * j)).take 4))
          Gives row s (rvDeliver [.enqueue (bitsOf h 33 20) ws (s.owner (pgRv n)) 0 false 0]
            (u.setRv n { u.rv n with stalled := [] }) n)) ∧
        (ty = 3 → Runs row s fun t => t.mem = s.mem ∧ t.fab.evs = s.fab.evs ++
          [⟨evWord 0x08 n (lookupD 0 (8 * 4096 + n) s.fab.seqs) (BitVec.ofNat 32 (bitsOf h 33 32)),
            .published (s.owner (pgRv n))⟩])))) ∧
  (∀ (s : State) (n j : Nat) (pkt : List Byte), s.rvOn n = true → s.rvLink n = 2 → rvIntact pkt = true →
    let x := s.rv n
    let h := rvHead pkt
    bitsOf h 0 4 = 0 ∨ bitsOf h 0 4 = 4 → bitOf h 28 = false → x.wait = [] → x.tables = [] →
    (∀ k ∈ x.replay, ∃ a bs, k.body = .write a bs) → x.replay.findIdx? (fun k => k.seq == bitsOf h 16 12) = some j →
    Runs (.replay n pkt) s fun t => t.rv n = { x with replay := x.replay.drop (j + 1), replays := 0 } ∧
      t.links.sent = s.links.sent ∧ t.fab = s.fab ∧ t.mem = s.mem) ∧
  (∀ (s : State) (n : Nat) (k : RvPkt) (r : List RvPkt), s.rvOn n = true → (s.rv n).replay = k :: r →
    let x := s.rv n
    (s.airtime < k.sentAt + s.rvTimeout n → Gives (.replayTimeout n) s s) ∧
    (k.sentAt + s.rvTimeout n ≤ s.airtime → s.rvLink n = 2 →
      Runs (.replayTimeout n) s fun t =>
        t.links.sent = s.links.sent ++ (k :: r).map (fun q => ⟨rvPort n, s.airtime, x.packet q⟩) ∧
        t.rv n = { x with replays := x.replays + 1, replay := (k :: r).map fun q => { q with sentAt := s.airtime } } ∧
        t.reg (pgRv n) Reg.RV_TALLY_REPLAY = tallied (s.reg (pgRv n) Reg.RV_TALLY_REPLAY) (r.length + 1) ∧ t.mem = s.mem))

/-- Training, retraining, loss of a link, lanes removed and added, the swap, and the table window (R470, R471, R473 to R475,
R479, R484). -/
def Obligations.RealvinLinks : Prop :=
  (∀ (s : State) (n lanes : Nat) (lead : Bool) (peer : BitVec 64) (tmo : BitVec 16), n < 8 → s.part (pgRv n) = stRising →
    s.rvLink n = 1 → (s.rv n).tables = [] →
    let p := pgRv n
    let m := ((List.range 8).filter fun j =>
      bitOf lanes j && s.fld p Reg.RV_CFG (8 + j) 1 == 1 && s.ready (pgLane (8 * n + j))).foldl (fun a j => a + 2 ^ j) 0
    let claim := s.fld p Reg.RV_CFG 0 1 == 1
    (m = 0 → Gives (.training n lead peer tmo lanes) s s) ∧
    (m ≠ 0 → Runs (.training n lead peer tmo lanes) s fun t => t.part p = stReady ∧ t.rvLink n = 2 ∧ t.rvActive n = m ∧
      t.reg64 p Reg.RV_PEER_ID_LO = peer.toNat ∧ (t.rv n).timeout = tmo.toNat ∧
      (claim ≠ lead → t.rvLead n = claim) ∧
      (claim = lead → t.rvLead n = decide (peer.toNat < s.reg64 pgWard Reg.WRD_DEVICE_ID_LO) ∧ t.fld p Reg.RV_SWAP 2 2 = 3))) ∧
  (∀ (s : State) (n : Nat), s.rvOn n = true → s.rvLink n = 2 →
    let p := pgRv n
    let x := s.rv n
    let ev (q code hi lo : Nat) : Ev := ⟨evWord 0x08 n q (BitVec.ofNat 32 (code * 2 ^ 24 + hi % 256 * 2 ^ 16 + lo % 65536)),
      .published (s.owner p)⟩
    let sq := lookupD 0 (8 * 4096 + n) s.fab.seqs
    (4 ≤ x.replays → Runs (.retrain n) s fun t => t.rvLink n = 3 ∧ (t.rv n).replay = x.replay ∧
      (t.rv n).retrainAt = s.airtime ∧ t.fab.evs = s.fab.evs ++ [ev sq 0x76 0 0]) ∧
    (x.replays < 4 → Gives (.retrain n) s s) ∧
    (Gives (.siltAdjust n true false) s (s.count p Reg.RV_TALLY_SILTDEL 1)) ∧
    (Gives (.siltAdjust n false true) s (s.count p Reg.RV_TALLY_SILTINS 1)) ∧
    (∀ l, l < 8 → bitOf (s.rvActive n) l = true → popcount8 (s.rvActive n) ≠ 1 →
      Runs (.laneRemoved n l) s fun t => t.rvActive n = s.rvActive n - 2 ^ l ∧ t.rvLink n = 2 ∧
        t.fab.evs = s.fab.evs ++ [ev sq 0x72 l (popcount8 (s.rvActive n) - 1)]) ∧
    (∀ l, l < 8 → bitOf (s.rvActive n) l = true → popcount8 (s.rvActive n) = 1 →
      Runs (.laneRemoved n l) s fun t => t.rvLink n = 3 ∧ t.rvActive n = s.rvActive n) ∧
    (∀ l, l < 8 → bitOf (s.rvActive n) l = false → s.fld p Reg.RV_CFG (8 + l) 1 = 1 → s.ready (pgLane (8 * n + l)) = true →
      s.fld (pgLane (8 * n + l)) Reg.LN_ALIGN 2 1 = 1 →
      Runs (.laneAdded n l) s fun t => t.rvActive n = s.rvActive n + 2 ^ l ∧ t.rvLink n = 2 ∧
        t.fab.evs = s.fab.evs ++ [ev sq 0x73 l (popcount8 (s.rvActive n) + 1)]) ∧
    (∀ a, allowed s a p = true → Runs (.swapReq a n) s fun t => t.fld p Reg.RV_SWAP 1 1 = 1 ∧ t.rv n = { x with swapOut := true }) ∧
    (∀ req tmo, x.swapOut = true ∨ req = true →
      Runs (.swapAck n req tmo) s fun t => t.rvLead n = !s.rvLead n ∧ t.rv n = { x with swapOut := false, timeout := tmo.toNat } ∧
        t.fld p Reg.RV_SWAP 1 1 = 0 ∧ t.fld p Reg.RV_SWAP 2 2 = (if x.swapOut && req then 2 else 1) ∧
        t.fab.evs = s.fab.evs ++ [ev sq 0x74 (bit (x.swapOut && req)) (bit (!s.rvLead n))])) ∧
  (∀ (s : State) (n : Nat), n < 8 → s.rvLink n = 3 →
    (s.airtime < (s.rv n).retrainAt + 196608000 → Gives (.linkDown n) s s) ∧
    ((s.rv n).retrainAt + 196608000 ≤ s.airtime →
      (∀ b ∈ (s.rv n).replay.map (·.body) ++ (s.rv n).wait, ∃ x bs, b = .write x bs) →
      Runs (.linkDown n) s fun t => t.rvLink n = 0 ∧ (t.rv n).replay = [] ∧ (t.rv n).wait = [] ∧ (t.rv n).tables = (s.rv n).tables)) ∧
  (∀ (s : State) (a : Agent) (n : Nat), n < 8 → allowed s a (pgRv n) = true →
    let p := pgRv n
    let x := s.rv n
    let tb := s.fld p Reg.RV_TSEL 8 2
    let j := s.fld p Reg.RV_TSEL 0 8
    let new := (List.range (rvTable tb).2).map fun q => x.staged.getD q 0
    let result (t : State) : Nat := t.fld p Reg.RV_TCMD 3 2
    ((rvTable tb).1 ≤ j → ∀ i ∈ [Instr.rvTcmdRead a n, .rvTcmdWrite a n], Runs i s fun t => result t = 1 ∧ t.links = s.links) ∧
    (j < (rvTable tb).1 →
      (Runs (.rvTcmdRead a n) s fun t => result t = 0 ∧ t.rv n = { x with staged := x.entry tb j }) ∧
      (tb ≠ 2 → Runs (.rvTcmdWrite a n) s fun t => result t = 0 ∧ t.rv n = { x with tables := insertKey (256 * tb + j) new x.tables }) ∧
      (tb = 2 → rvEntryOk 2 new = false → Runs (.rvTcmdWrite a n) s fun t => result t = 1 ∧ t.links = s.links) ∧
      (tb = 2 → rvEntryOk 2 new = true → wfld (x.entry 2 j) 0 20 2 = 1 → s.qCount (wfld (x.entry 2 j) 0 0 20) ≠ 0 →
        Runs (.rvTcmdWrite a n) s fun t => result t = 2 ∧ t.links = s.links)))

/-- The mailbox: GO queues a request, Ward serves it, and each command answers with its RESULT and data (R500, R501, R540). -/
def Obligations.MailboxRequests : Prop :=
  (∀ (s : State) (f : Nat), s.winUp f = true →
    let w := s.win f
    (w.mbx ≠ .queued → w.mbx ≠ .running → s.ward.queue.length < 64 →
      Runs (.mbxGo f) s fun t => (t.win f).mbx = .queued ∧ t.ward.queue = s.ward.queue ++ [f] ∧ t.mem = s.mem) ∧
    (w.mbx ≠ .queued → w.mbx ≠ .running → 64 ≤ s.ward.queue.length →
      Runs (.mbxGo f) s fun t => (t.win f).mbx = .busy ∧ t.ward = s.ward) ∧
    (w.mbx = .queued ∨ w.mbx = .running → Gives (.mbxGo f) s s)) ∧
  (∀ (s : State) (f code : Nat) (pars : List Word) (aux : Aux) (pass : Bool), mbxFront s code f pars →
    (code ∉ mbxCodes → Answers s (.mbxServe aux pass) f (mbxTaken s) 1 [])) ∧
  (∀ (s : State) (f : Nat) (req : Word) (a : MbxAns), a.data.length ≤ 62 →
    let t := s.mbxReply f req a
    (t.win f).mbx = .done ∧ (t.win f).mbxResp.getD 1 0 = BitVec.ofNat 32 a.res ∧
      ((t.win f).mbxResp.drop 2).take a.data.length = a.data ∧
      ((t.win f).mbxResp.getD 0 0).toNat % 65536 = req.toNat % 65536 ∧
      ((t.win f).mbxResp.getD 0 0).toNat / 65536 % 256 = a.data.length) ∧
  (∀ (s : State) (f : Nat) (pars : List Word),
    let u := mbxTaken s
    let q := (pars.getD 0 0).toNat
    let v := u.setReg pgFabric Reg.TFB_QSEL (BitVec.ofNat 32 q)
    let qres (t : State) : Nat := mbxRes (t.fld pgFabric Reg.TFB_QCMD 9 3)
    let mine : Prop := q < 2 ^ 20 ∧ (s.qcb q).owner = f
    (pars.length = 1 → mine →
      (mbxFront s 0x001 f pars → Answers s .qcbRead f v.qRead (qres v.qRead) (qStageRegs.map (v.qRead.reg pgFabric))) ∧
      (mbxFront s 0x003 f pars → Answers s .queueEnable f v.qEnable (qres v.qEnable) []) ∧
      (mbxFront s 0x004 f pars → Answers s .queueDisable f v.qDisable (qres v.qDisable) []) ∧
      (mbxFront s 0x005 f pars → Answers s .queueFlush f v.qFlush (qres v.qFlush) [])) ∧
    (pars.length = 1 → q < 2 ^ 20 → (s.qcb q).owner ≠ f →
      (mbxFront s 0x001 f pars → Answers s .qcbRead f u 2 []) ∧ (mbxFront s 0x003 f pars → Answers s .queueEnable f u 2 []) ∧
      (mbxFront s 0x004 f pars → Answers s .queueDisable f u 2 []) ∧ (mbxFront s 0x005 f pars → Answers s .queueFlush f u 2 [])) ∧
    (pars.length = 7 → mine → mbxFront s 0x002 f pars →
      let c : Qcb := ⟨pars.drop 1, false⟩
      let w := (List.range 6).foldl (fun s j => s.setReg pgFabric (qStageRegs.getD j 0) (pars.getD (j + 1) 0)) v
      (c.owner = f → poolValid (s.pool c.pool) = true → poolOwner (s.pool c.pool) = f →
        Answers s .qcbWrite f w.qWrite (qres w.qWrite) []) ∧
      (c.owner ≠ f → Answers s .qcbWrite f v 2 [])) ∧
    (pars = [] → mbxFront s 0x001 f pars → Answers s .qcbRead f u 3 [])) ∧
  (∀ (s : State) (f : Nat) (pars : List Word) (place : Nat) (h : Word), pars = [h] →
    let u := mbxTaken s
    let v := (u.setReg pgTilth Reg.TLT_HSEL h).hResult 7
    let shown (t : State) : List Word := [Reg.TLT_HADDR_LO, Reg.TLT_HADDR_HI, Reg.TLT_HREFS].map (t.reg pgTilth)
    let res (t : State) : Nat := t.fld pgTilth Reg.TLT_HCMD 9 3
    (poolValid (s.pool (hPool h)) = true → poolOwner (s.pool (hPool h)) = f →
      (mbxFront s 0x010 f pars → res (v.hBind .ward place) ≠ 7 →
        Answers s (.handleBind place) f (v.hBind .ward place) (mbxRes (res (v.hBind .ward place))) (shown (v.hBind .ward place))) ∧
      (mbxFront s 0x011 f pars → res (v.hRelease .ward) ≠ 7 →
        Answers s .handleRelease f (v.hRelease .ward) (mbxRes (res (v.hRelease .ward))) []) ∧
      (mbxFront s 0x012 f pars → res (v.hRead .ward) ≠ 7 →
        Answers s .handleRead f (v.hRead .ward) (mbxRes (res (v.hRead .ward))) (shown (v.hRead .ward)))) ∧
    (poolOwner (s.pool (hPool h)) ≠ f →
      (mbxFront s 0x010 f pars → Answers s (.handleBind place) f u 2 []) ∧ (mbxFront s 0x011 f pars → Answers s .handleRelease f u 2 []) ∧
      (mbxFront s 0x012 f pars → Answers s .handleRead f u 2 []))) ∧
  (∀ (s : State) (f : Nat) (pars : List Word) (aux : Aux) (p : Page),
    let u := mbxTaken s
    let a := (pars.getD 0 0).toNat
    a % 4 = 0 → pageAt a = some p →
    (s.owner p = f →
      (pars.length = 1 → mbxFront s 0x020 f pars →
        Answers s .regRead f (u.pageRead (.fn f) p (a % 0x1000)).1 0 [(u.pageRead (.fn f) p (a % 0x1000)).2]) ∧
      (pars.length = 2 → mbxFront s 0x021 f pars →
        Answers s (.regWrite aux) f (u.pageWrite (.fn f) p (a % 0x1000) (pars.getD 1 0).toNat aux) 0 [])) ∧
    (s.owner p ≠ f →
      (pars.length = 1 → mbxFront s 0x020 f pars → Answers s .regRead f u 2 []) ∧
      (pars.length = 2 → mbxFront s 0x021 f pars → Answers s (.regWrite aux) f u 2 []))) ∧
  (∀ (s : State) (f : Nat) (pars : List Word),
    let u := mbxTaken s
    let p := (pars.getD 0 0).toNat
    let v := u.setReg pgTilth Reg.TLT_PSEL (BitVec.ofNat 32 p)
    let pres (t : State) : Nat := mbxRes (t.fld pgTilth Reg.TLT_PCMD 9 3)
    (pars.length = 1 → p < 1024 → mbxFront s 0x031 f pars →
      (f = 0 ∨ poolOwner (s.pool p) = f → Answers s .poolRead f v.pRead (pres v.pRead) v.pRead.tilth.staged) ∧
      (f ≠ 0 → poolOwner (s.pool p) ≠ f → Answers s .poolRead f u 2 [])) ∧
    (pars.length = 25 → mbxFront s 0x030 f pars →
      (f = 0 → p < 1024 → s.tilth.staged.length = 32 →
        let w : State := { v with tilth := { v.tilth with staged := pars.drop 1 ++ v.tilth.staged.drop 24 } }
        Answers s .poolWrite f w.pCommit (pres w.pCommit) []) ∧
      (f ≠ 0 → Answers s .poolWrite f u 2 []))) ∧
  (∀ (s : State) (f : Nat) (pars : List Word),
    let u := mbxTaken s
    let oct (off : Nat) : List Word := (List.range 8).map fun o => s.reg ⟨.octant, o⟩ off
    (mbxFront s 0x100 f pars → Answers s .powerRead f u 0
      ([s.reg pgDevice Reg.DEV_MODE] ++ oct Reg.PWR_OCT_STATE ++ oct Reg.PWR_OCT_CURR ++ [s.reg pgPower Reg.PWR_INPUT])) ∧
    (mbxFront s 0x101 f pars → Answers s .thermalRead f u 0
      ([s.reg pgTherm Reg.THM_TJ] ++ ((List.range 8).map fun o => s.reg pgTherm (Reg.THM_OCT + 4 * o)) ++
        ((List.range 4).map fun o => s.reg pgTherm (Reg.THM_HBM + 4 * o)) ++ [s.reg pgTherm Reg.THM_CTRL])))

/-- The mailbox commands of boot, flash, keys and Ward update (R549, R552, R555, R566, R569, R574, R582, R583). -/
def Obligations.MailboxService : Prop :=
  (∀ (s : State) (f : Nat) (pars : List Word), f ≠ 0 →
    let u := mbxTaken s
    ∀ x ∈ [((0x201, .bootCommit) : Nat × Instr), (0x202, .flashWrite), (0x203, .slotActivate), (0x204, .partLoad), (0x205, .wardUpdate),
      (0x206, .rollbackAdvance), (0x209, .ringReturn true), (0x20A, .ownerEnrol), (0x20B, .otpWrite true)],
      mbxFront s x.1 f pars → Answers s x.2 f u 2 []) ∧
  (∀ (s : State) (f : Nat) (pars : List Word),
    let u := mbxTaken s
    (mbxFront s 0x200 f pars →
      let a := u.slotVersion 0
      let b := a.1.slotVersion 1
      Answers s .bootStatus f b.1 0 ([s.reg pgWard Reg.WRD_BOOT, a.2, b.2] ++ (List.range 8).map fun n => BitVec.ofNat 32 (s.rollback n))) ∧
    (pars.length = 1 → mbxFront s 0x208 f pars →
      let mine := s.faultLog.filter fun x => f == 0 || ((pageAt x.page).any fun p => s.owner p == f)
      Answers s .faultLogRead f u 0 (((mine.drop (pars.getD 0 0).toNat).take 15).flatMap faultWords))) ∧
  (∀ (s : State) (pars : List Word),
    let u := mbxTaken s
    let n (j : Nat) : Nat := (pars.getD j 0).toNat
    let other := 1 - s.bootSlot
    (mbxFront s 0x201 0 pars →
      match u.bootRec with
      | none => Answers s .bootCommit 0 u 3 []
      | some (_, b) => Answers s .bootCommit 0
          ((u.setBootFlags (setBits (b.getD 2 0) (1 + s.bootSlot) 1 1)).setFld pgWard Reg.WRD_BOOT 1 1 1) 0 []) ∧
    (3 ≤ pars.length → mbxFront s 0x202 0 pars →
      let bs := wordBytes (pars.drop 2)
      match u.bootRec with
      | none => Answers s .flashWrite 0 u 3 []
      | some (_, b) =>
        (2 ≤ n 0 ∨ brSize b < n 1 + bs.length → Answers s .flashWrite 0 u 3 []) ∧
        (n 0 = s.bootSlot → s.inRecovery = false → n 1 + bs.length ≤ brSize b → n 0 < 2 →
          Answers s .flashWrite 0 u 2 []) ∧
        (n 0 < 2 → n 0 ≠ s.bootSlot → n 1 + bs.length ≤ brSize b →
          Answers s .flashWrite 0 (u.flashProgram (brBase b (n 0) + n 1) bs) 0 [])) ∧
    (mbxFront s 0x203 0 pars →
      match u.bootRec with
      | none => Answers s .slotActivate 0 u 3 []
      | some (_, b) =>
        if (u.slotImages other).isEmpty = false ∧ (u.slotImages other).all (fun x => u.imageOk x.1 x.2) = true ∧
            (u.slotImages other).head?.any (fun x => u.imgType x.1 != 0) = false then
          Answers s .slotActivate 0
            (u.setBootFlags (setBits (setBits (setBits (b.getD 2 0) 0 1 other) (1 + other) 1 0) 4 4 3)) 0 []
        else Answers s .slotActivate 0 u 3 []) ∧
    (3 ≤ pars.length → mbxFront s 0x204 0 pars →
      match pageOf (n 0) (n 1) with
      | none => Answers s .partLoad 0 u 3 []
      | some p =>
        if p.kind ≠ .coreDbg ∧ p.takesImage = true ∧ s.rwlOpen p = true ∧ n 2 < 2 then
          Answers s .partLoad 0 (u.wardLoad (n 2) p).1 (if (u.wardLoad (n 2) p).2 then 0 else 3) []
        else Answers s .partLoad 0 u 3 []) ∧
    (mbxFront s 0x205 0 pars →
      match u.bootRec with
      | none => Answers s .wardUpdate 0 u 3 []
      | some (_, b) =>
        match (if s.fld pgWard Reg.WRD_PAIRS 1 2 = 3 then none else u.wardImage (brPreferred b)) with
        | none => Answers s .wardUpdate 0 u 3 []
        | some a => Runs .wardUpdate s fun t => t.fld pgWard Reg.WRD_PAIRS 0 1 = 1 - s.fld pgWard Reg.WRD_PAIRS 0 1 ∧
            t.fld pgWard Reg.WRD_BOOT 16 16 = u.imgVersion a % 65536 ∧ t.ward.fwKey = u.imgKey a ∧
            (t.win 0).mbx = .done) ∧
    (2 ≤ pars.length → mbxFront s 0x206 0 pars →
      match u.bootRec.bind fun b => committedSlot b.2 s.bootSlot with
      | none => Answers s .rollbackAdvance 0 u 3 []
      | some slot =>
        let is := (u.slotImages slot).filter fun x => u.imgType x.1 == n 0
        if n 0 < 8 ∧ n 1 ≤ 128 ∧ u.rollback (n 0) ≤ n 1 ∧ is ≠ [] ∧ (∀ x ∈ is, n 1 ≤ u.imgRollback x.1) then
          Answers s .rollbackAdvance 0 (u.otpSet (otpRollback (n 0)) (leBytes 16 (2 ^ n 1 - 1))) 0 []
        else Answers s .rollbackAdvance 0 u 3 []) ∧
    (2 ≤ pars.length → mbxFront s 0x209 0 pars →
      let seg := Reg.RNG_FAIL_SEG + 4 * n 0
      (n 0 < 12 → s.ringFailed (n 0) = true → s.fld pgRing seg 0 7 = n 1 →
        Answers s (.ringReturn true) 0 ((u.setFld pgRing Reg.RNG_STATE (n 0) 1 0).setReg pgRing seg 0) 0 [] ∧
        Answers s (.ringReturn false) 0 u 3 []) ∧
      (12 ≤ n 0 ∨ s.ringFailed (n 0) = false → Answers s (.ringReturn true) 0 u 3 [])) ∧
    (5 ≤ pars.length → mbxFront s 0x20A 0 pars →
      if n 0 < 4 ∧ u.otpNum (otpOwner (n 0) + 16) 1 = 0 then
        Answers s .ownerEnrol 0 (u.otpSet (otpOwner (n 0)) (wordBytes ((pars.drop 1).take 4) ++ [1])) 0 []
      else Answers s .ownerEnrol 0 u 3 []) ∧
    (∀ pass, 2 ≤ pars.length → n 0 = 0x20 → mbxFront s 0x20B 0 pars →
      if bitOf (u.otpNum otpClosed 1) 0 = false ∧ u.otpNum otpBoardId 4 = 0 then
        (pass = true → Answers s (.otpWrite pass) 0 (u.otpSet otpBoardId (wordBytes ((pars.drop 1).take 1))) 0 []) ∧
        (pass = false → Runs (.otpWrite pass) s fun t => (t.win 0).mbx = .done ∧
          (t.win 0).mbxResp.getD 1 0 = 3 ∧ t.free = s.free + 1)
      else Answers s (.otpWrite pass) 0 u 3 []) ∧
    (∀ pass, n 0 ∉ [1, 2, 3, 0x10, 0x20, 0x21, 0x30] → 1 ≤ pars.length → mbxFront s 0x20B 0 pars →
      Answers s (.otpWrite pass) 0 u 3 []))

/-- Resets and BOOT: DeviceResets, BootOutcomes. -/
def Obligations.ResetsAndBoot : Prop :=
  Sys2Proof.Claims.DeviceResets ∧ Sys2Proof.Claims.BootOutcomes

/-- Part commands, faults and transitions: PartCommands, PartTransitions. -/
def Obligations.PartStates : Prop :=
  Sys2Proof.Claims.PartCommands ∧ Sys2Proof.Claims.PartTransitions

/-- SERVE, REST, TEST and LEAVE_TEST, the wake sources, an abandoned entry, and pad release (R513, R514, R518 to R520, R522,
R523, R525). -/
def Obligations.DeviceModes : Prop :=
  (∀ (s : State) (a : Agent), allowed s a pgDevice = true → agTrusted a = true → s.fld pgDevice Reg.DEV_MODE 8 1 = 0 → s.rest = none →
    let res (t : State) : Nat := t.fld pgDevice Reg.DEV_MODE 9 3
    let ok (t : State) (m : Nat) : Prop := t.mode = m ∧ res t = 0 ∧ t.mem = s.mem ∧ t.fab = s.fab
    let no (t : State) : Prop := t.mode = s.mode ∧ res t = 1 ∧ t.rest = none
    let quietTime : Prop := s.noGen = true ∧ ∀ n, n < 20 → s.fld pgTime (treqOff n Reg.TB_TREQ_PERIOD) 31 1 = 0
    (s.mode = modeRise → Runs (.serve a) s (ok · modeServe)) ∧
    (s.mode ≠ modeRise → Runs (.serve a) s no) ∧
    (s.mode = modeServe ∨ s.mode = modeTrim →
      (quietTime → Runs (.rest a true) s fun t => t.rest = some ⟨s.mode, s.airtime, false, 0⟩ ∧ t.fld pgDevice Reg.DEV_MODE 8 1 = 1 ∧
        t.mode = s.mode) ∧
      (¬quietTime → Runs (.rest a true) s fun t => res t = 4 ∧ t.fld pgDevice Reg.DEV_MODE 15 3 = 1 ∧ t.rest = none ∧ t.mode = s.mode)) ∧
    (s.mode ≠ modeServe → s.mode ≠ modeTrim → Runs (.rest a true) s no) ∧
    (s.mode = modeRise ∨ s.mode = modeServe → s.planesOff = true → Runs (.test a) s (ok · modeTest)) ∧
    (s.planesOff = false → Runs (.test a) s no) ∧
    (s.mode = modeTest → Runs (.leaveTest a) s (ok · modeRise)) ∧
    (s.mode ≠ modeTest → Runs (.leaveTest a) s no)) ∧
  (∀ (s : State) (a : Agent) (r : RestInfo), s.rest = some r →
    let why (t : State) : Nat := t.fld pgDevice Reg.DEV_MODE 15 3
    let cause (t : State) : Nat := t.fld pgDevice Reg.DEV_MODE 12 3
    let woken (c : Nat) (t : State) : Prop := t.rest = none ∧ t.mode = r.mode ∧ cause t = c ∧
      ∀ o, o < 8 → t.fld ⟨.octant, o⟩ Reg.PWR_OCT_STATE 11 1 = 0
    let left_ (t : State) : Prop := t.rest = none ∧ t.mode = s.mode ∧ why t = 3
    (r.done = false → s.workDone = true → Runs (.rest a false) s fun t => t.mode = modeRest ∧ t.rest = some { r with done := true } ∧
      t.reg pgDevice Reg.DEV_PAD_HELD = s.reg pgDevice Reg.DEV_PAD_HELD ||| 0x7FF ∧
      ∀ o, o < 8 → t.fld ⟨.octant, o⟩ Reg.PWR_OCT_VOLT 0 10 = 550) ∧
    (r.done = false → s.workDone = false → Gives (.rest a false) s s) ∧
    (r.done = false → s.workDone = false → r.at_ + 1966080 ≤ s.airtime →
      Runs .restAbandon s fun t => t.rest = none ∧ why t = 2 ∧ t.mode = s.mode) ∧
    (allowed s a pgDevice = true → agTrusted a = true →
      (r.done = true → s.mode = modeRest → r.mode < 16 → Runs (.wake a) s (woken 1)) ∧
      (r.done = false → s.mode ≠ modeRest → Runs (.wake a) s left_)) ∧
    (r.mode < 16 →
      (s.fld pgDevice Reg.DEV_WAKE_CTRL 0 1 = 1 → r.done = true → Runs .wakeN s (woken 2)) ∧
      (s.fld pgDevice Reg.DEV_WAKE_CTRL 0 1 = 1 → r.done = false → Runs .wakeN s left_) ∧
      (s.fld pgDevice Reg.DEV_WAKE_CTRL 1 1 = 1 → s.reg64 pgDevice Reg.DEV_WAKE_ALARM_LO ≤ s.airtime → r.done = true →
        Runs .alarm s (woken 3)) ∧
      (s.fld pgDevice Reg.DEV_WAKE_CTRL 2 1 = 1 → s.fld pgDevice Reg.DEV_WAKE_CTRL 16 16 ≤ r.edges → r.done = true →
        Runs .ppsWake s (woken 4))) ∧
    (s.fld pgDevice Reg.DEV_WAKE_CTRL 0 1 = 0 → Gives .wakeN s s) ∧
    (s.airtime < s.reg64 pgDevice Reg.DEV_WAKE_ALARM_LO → Gives .alarm s s) ∧
    (r.edges < s.fld pgDevice Reg.DEV_WAKE_CTRL 16 16 → Gives .ppsWake s s)) ∧
  (∀ (s : State) (a : Agent) (g : Nat), g < 2 ^ 11 → allowed s a pgDevice = true → s.mode ≠ modeRest → s.mode ≠ modeSafe →
    Gives (.padRelease a g) s (s.setReg pgDevice Reg.DEV_PAD_HELD (s.reg pgDevice Reg.DEV_PAD_HELD &&& ~~~ BitVec.ofNat 32 g)))

/-- Open phases, sense failures, voltage updates, rail faults, temperatures, THERMTRIP_N and the I3C target (R528, R529, R531,
R532, R534 to R538, R604). -/
def Obligations.SupplyAndHeat : Prop :=
  (∀ (s : State) (ph : Nat), ph < 64 → s.pins.on = true →
    let p : Page := ⟨.octant, ph / 8⟩
    let mark (t : State) : Nat := t.fld p Reg.PWR_OCT_PHASE (2 * (ph % 8)) 2
    let work (t : State) : Nat := t.fld p Reg.PWR_OCT_STATE 0 4
    let sensed (t : State) : Nat := t.fld p Reg.PWR_OCT_STATE 4 4
    (mark s = 0 → 0 < work s → 0 < sensed s →
      (Runs (.phaseOpen ph) s fun t => mark t = 1 ∧ work t = work s - 1 ∧ sensed t = sensed s - 1 ∧
        t.reg pgPower Reg.PWR_TALLY_PHASEOPEN = tallied (s.reg pgPower Reg.PWR_TALLY_PHASEOPEN) 1) ∧
      (Runs (.senseFail ph) s fun t => mark t = 2 ∧ work t = work s ∧ sensed t = sensed s - 1 ∧
        t.fld p Reg.PWR_OCT_STATE 10 1 = bit (decide (sensed s - 1 < work s)) ∧
        t.reg pgPower Reg.PWR_TALLY_SENSEFAIL = tallied (s.reg pgPower Reg.PWR_TALLY_SENSEFAIL) 1)) ∧
    (mark s = 0 → work s = 8 → sensed s = 8 → s.octState (ph / 8) = 0 →
      Runs (.phaseOpen ph) s fun t => t.octState (ph / 8) = 0 ∧ t.faultLog = s.faultLog) ∧
    (mark s = 0 → work s = 6 → 3 ≤ sensed s → s.octState (ph / 8) = 0 →
      Runs (.phaseOpen ph) s fun t => t.octState (ph / 8) = 1 ∧
        t.reg pgPower Reg.PWR_TALLY_DERATE = tallied (s.reg pgPower Reg.PWR_TALLY_DERATE) 1) ∧
    (mark s = 1 → Gives (.phaseOpen ph) s s ∧ Gives (.senseFail ph) s s)) ∧
  (∀ (s : State) (o target rail cur core total : Nat), o < 8 → s.pins.on = true → s.mode ≠ modeRest → s.mode ≠ modeSafe →
    let p : Page := ⟨.octant, o⟩
    Runs (.avsUpdate o target rail cur core total) s fun t =>
      t.fld p Reg.PWR_OCT_VOLT 0 10 = (if s.octIdle o then 550
        else if 680 ≤ target ∧ target ≤ 850 ∧ target % 5 = 0 then target else s.fld p Reg.PWR_OCT_VOLT 0 10) ∧
      t.fld p Reg.PWR_OCT_STATE 11 1 = bit (s.octIdle o) ∧ t.fld p Reg.PWR_OCT_VOLT 16 10 = min rail 1023 ∧
      t.fld p Reg.PWR_OCT_CURR 0 16 = min cur 65535 ∧
      t.fld p Reg.PWR_OCT_CURR 16 16 = max (min cur 65535) (s.fld p Reg.PWR_OCT_CURR 16 16) ∧
      t.reg pgPower Reg.PWR_INPUT = BitVec.ofNat 32 (min core 65535 + min total 65535 * 2 ^ 16) ∧ t.mem = s.mem) ∧
  (∀ (s : State) (o : Nat), o < 8 → s.pins.on = true →
    (∀ p ∈ octParts o, s.ready p = true →
      Runs (.railFault o) s fun t => t.part p = stFaulted) ∧
    ((∀ p ∈ octParts o, s.ready p = false) → Gives (.railFault o) s s)) ∧
  (∀ (s : State) (sensors hbms : List Int), sensors.length = 64 → hbms.length = 4 → s.pins.on = true →
    (∀ x ∈ sensors, -32768 ≤ x ∧ x < 32768) →
    let warn : Int := s.fld pgTherm Reg.THM_CTRL 0 8
    let on := s.fld pgTherm Reg.THM_CTRL 8 1
    let tj (t : State) : Int := sx 16 (t.fld pgTherm Reg.THM_TJ 0 16)
    Runs (.thermalSample sensors hbms) s fun t =>
      (tj t ∈ sensors ∧ ∀ x ∈ sensors, x ≤ tj t) ∧
      (∀ n x, n < 8 → x ∈ (sensors.drop (8 * n)).take 8 → x ≤ sx 16 (t.fld pgTherm (Reg.THM_OCT + 4 * n) 0 16)) ∧
      t.fld pgTherm Reg.THM_CTRL 8 1 = (if on = 0 ∧ warn * 8 ≤ tj t then 1 else if on = 1 ∧ tj t ≤ (warn - 5) * 8 then 0 else on) ∧
      t.mem = s.mem ∧ t.mode = s.mode) ∧
  (∀ (s : State) (n : Nat), n < 64 → s.pins.on = true → s.mode ≠ modeSafe → s.mode ≠ modeRest →
    Runs (.thermalSafe n) s fun t => t.mode = modeSafe ∧ t.mem = s.mem ∧
      (∀ o, o < 8 → t.fld ⟨.octant, o⟩ Reg.PWR_OCT_VOLT 0 10 = 550) ∧
      t.reg pgDevice Reg.DEV_PAD_HELD = s.reg pgDevice Reg.DEV_PAD_HELD ||| 0x4FF) ∧
  (∀ (s : State), s.pins.on = true → Gives .thermtrip s { s with pins := { s.pins with thermtripLow := true } }) ∧
  (∀ (s : State) (n : Nat), s.pins.on = true →
    (1966080 ≤ s.pins.up → Gives (.i3cRead n) s (s.send 0x300 (leBytes 4 (s.i3cReg n).toNat))) ∧
    (s.pins.up < 1966080 → Gives (.i3cRead n) s s))

/-- Reads and writes of registers by the host and by agents of the device: what is answered, what lands by its access code,
and what is reported (R26, R27, R30, R492, R493, R502, R504, R505, R521, R618). -/
def Obligations.HostRegisters : Prop :=
  (∀ (s : State) (f off w : Nat), f < 64 → s.linkDown = false →
    let row : Instr := .registerRead (.fn f) off w
    (s.hostUp = false ∨ s.fnUp f = false ∨ bar0 (.fn f) off = .outside → Gives row s (s.complete f cplUr [])) ∧
    (s.hostUp = true → s.fnUp f = true →
      (∀ g o, bar0 (.fn f) off = .window g o → o < 0x1000 → w = 4 → off % 4 = 0 →
        Gives row s (s.complete f cplOk (leBytes 4 (s.winWord g o).toNat))) ∧
      (∀ g o, bar0 (.fn f) off = .window g o → 0x1000 ≤ o → Gives row s (s.complete f cplOk (leBytes w 0))) ∧
      (∀ p o r, bar0 (.fn f) off = .page p o → w = 4 → off % 4 = 0 → rowAt p.kind o = some r → r.half = .whole →
        (s.mode = modeRest → p.always = true) →
        let v := (s.view (.fn f) p o).toNat &&& fieldMask r fun x => x.acc != .wo
        Runs row s fun t => t.cpls = s.cpls ++ [⟨f, cplOk, leBytes 4 (v % 2 ^ 32)⟩] ∧
          ∀ x ∈ r.fields, bitsOf (t.reg p o).toNat x.lo x.w = if x.acc = .rc then 0 else bitsOf (s.reg p o).toNat x.lo x.w) ∧
      (bar0 (.fn f) off ≠ .outside → (∀ g o, bar0 (.fn f) off = .window g o → o < 0x1000) → w ≠ 4 ∨ off % 4 ≠ 0 →
        Runs row s fun t => t.cpls = s.cpls ++ [⟨f, cplOk, leBytes w 0⟩] ∧ Reported s (.fn f) off 0 t))) ∧
  (∀ (s : State) (f off w : Nat) (v : Word) (aux : Aux), f < 64 →
    let row : Instr := .registerWrite (.fn f) off w v aux
    (s.linkDown = true ∨ s.winUp f = false → Gives row s s) ∧
    (s.linkDown = false → s.winUp f = true →
      (bar0 (.fn f) off = .outside → Gives row s s) ∧
      (∀ g o, bar0 (.fn f) off = .window g o → w = 4 → off % 4 = 0 → 0x800 ≤ o → o < 0x900 →
        Gives row s (s.setWin g { s.win g with mbxReq := (s.win g).mbxReq.set ((o - 0x800) / 4) v })) ∧
      (∀ g o, bar0 (.fn f) off = .window g o → w = 4 → off % 4 = 0 → 0x210 ≤ o → o < 0x230 →
        Runs row s fun t => (lookupD FnDlv.reset ((o - 0x210) / 4) (t.win g).dlv).head = v.toNat % 65536 ∧
          t.mem = s.mem ∧ t.fab = s.fab ∧ t.regs = s.regs) ∧
      (bar0 (.fn f) off ≠ .outside → (∀ g o, bar0 (.fn f) off = .window g o → o < 0x1000) → w ≠ 4 ∨ off % 4 ≠ 0 →
        Runs row s (Reported s (.fn f) off 0)) ∧
      (bar0 (.fn f) off = .nothing → w = 4 → off % 4 = 0 → Runs row s (Reported s (.fn f) off 1)))) ∧
  (∀ (s : State) (a : Agent) (off o : Nat) (p : Page) (r : RegRow) (v : Word) (aux : Aux),
    (match a with
     | .fn f => s.linkDown = false ∧ s.winUp f = true
     | _ => s.pins.on = true) →
    bar0 a off = .page p o → off % 4 = 0 → o ≠ Reg.PG_CMD → rowAt p.kind o = some r →
    let row : Instr := .registerWrite a off 4 v aux
    (∀ k, s.turnedAway a p = some k → Runs row s (Reported s a off k)) ∧
    (s.turnedAway a p = none → r.half = .whole → 0x40 ≤ o → o < 0xF00 →
      p.kind ∈ [PageKind.coreCtl, .bfe, .dte, .tfe, .fdc, .lde, .lee, .pce, .tce, .stop, .ringSys, .hif, .ward, .thermal] →
      (r.inRange v.toNat = true → (∀ x ∈ r.fields, x.acc = .rwl → s.rwlOpen p = true) →
        Runs row s (Landed s p o r v.toNat)) ∧
      (r.inRange v.toNat = false → Runs row s fun t => Reported s a off 2 t ∧ (p ≠ pgHif → t.reg p o = s.reg p o))))

/-- PG_IRQ_FORCE, PG_OWNER with its lock, GLOBAL_FREEZE, and the trace rings (R218, R506, R509, R588). -/
def Obligations.HeaderAndTraceWrites : Prop :=
  (∀ (s : State) (a : Agent) (pg : Nat) (p : Page) (v : Word), pageAt pg = some p → agTrusted a = true →
    (allowed s a p = true →
      Runs (.pgIrqForce a pg v) s fun t =>
        t.reg p Reg.PG_IRQ_STAT = s.reg p Reg.PG_IRQ_STAT ||| (v &&& BitVec.ofNat 32 (kindIrq p.kind ||| 3 * 2 ^ 30)) ∧
        t.mem = s.mem ∧ t.fab = s.fab ∧ t.cores = s.cores) ∧
    (∀ k, s.reaches a = true → s.turnedAway a p = some k →
      Runs (.pgIrqForce a pg v) s (Reported s a (p.addr + Reg.PG_IRQ_FORCE) k) ∧
      Runs (.pgOwner a pg v) s (Reported s a (p.addr + Reg.PG_OWNER) k)) ∧
    (allowed s a p = true → p.home = p →
      let fixed : Prop := p.kind ∈ [PageKind.fnPage, .device, .ward, .kaolin]
      let new : Nat := bitsOf v.toNat 0 6
      (fixed → new ≠ s.owner p → Runs (.pgOwner a pg v) s (Reported s a (p.addr + Reg.PG_OWNER) 2)) ∧
      (¬fixed → s.locked p = false → s.ownsPage a p = true →
        Runs (.pgOwner a pg v) s fun t => t.owner p = new ∧ t.fld p Reg.PG_OWNER 6 1 = bitsOf v.toNat 6 1 ∧
          t.fld p Reg.PG_OWNER 8 11 = bitsOf v.toNat 8 11 ∧ t.fld p Reg.PG_OWNER 19 1 = bitsOf v.toNat 19 1 ∧
          t = s.setReg p Reg.PG_OWNER (t.reg p Reg.PG_OWNER)) ∧
      (¬fixed → s.ownsPage a p = false → bitsOf v.toNat 6 1 ≠ s.fld p Reg.PG_OWNER 6 1 →
        Runs (.pgOwner a pg v) s (Reported s a (p.addr + Reg.PG_OWNER) 2)))) ∧
  (∀ (s : State) (a : Agent) (inst : Nat) (v : Word), inst < 17 → agTrusted a = true → allowed s a (engPage 4 inst) = true →
    Runs (.globalFreeze a inst v) s fun t =>
      t.fld (engPage 4 inst) Reg.FDC_DCB_CTRL 0 1 = v.toNat % 2 ∧
      t = s.setReg (engPage 4 inst) Reg.FDC_DCB_CTRL (t.reg (engPage 4 inst) Reg.FDC_DCB_CTRL)) ∧
  (∀ (s : State) (a : Agent) (r : Nat) (v : Word), r < 8 → agTrusted a = true → allowed s a pgSed = true →
    let cfg := sedOff Reg.SED_RING_CFG r
    let size := bitsOf v.toNat 0 5
    let base := s.reg64 pgSed (sedOff Reg.SED_RING_LO r) % 2 ^ 48
    (s.fld pgSed cfg 6 1 = 0 → 7 ≤ size → size ≤ 24 →
      (bitOf v.toNat 6 = false ∨ s.traceRange base (2 ^ size * 32) = true →
        Runs (.sedRingCfg a r v) s fun t => t.fld pgSed cfg 0 7 = v.toNat % 128 ∧ t = s.setReg pgSed cfg (t.reg pgSed cfg)) ∧
      (bitOf v.toNat 6 = true → s.traceRange base (2 ^ size * 32) = false →
        Runs (.sedRingCfg a r v) s fun t => Reported s a (pgSed.addr + cfg) 2 t ∧ t.reg pgSed cfg = s.reg pgSed cfg)) ∧
    (size < 7 ∨ 24 < size → s.fld pgSed cfg 6 1 = 0 → Runs (.sedRingCfg a r v) s (Reported s a (pgSed.addr + cfg) 2)) ∧
    (s.fld pgSed cfg 6 1 = 1 → 7 ≤ s.fld pgSed cfg 0 5 → s.fld pgSed cfg 0 5 ≤ 24 → bitOf v.toNat 6 = false →
      Runs (.sedRingCfg a r v) s fun t => t.fld pgSed cfg 6 1 = 0 ∧ t.fld pgSed cfg 0 6 = s.fld pgSed cfg 0 6))

/-- Configuration requests, a Function Level Reset and PERST_N (R485, R486, R491, R503, R545, R546). -/
def Obligations.ConfigurationAndReset : Prop :=
  (∀ (s : State) (f : Nat) (req : CfgReq), f < 64 → s.linkDown = false →
    (s.hostUp = false → Gives (.configRequest f req) s (s.complete f cplRetry [])) ∧
    (s.hostUp = true →
      (s.fld pgHif Reg.HIF_LINK 9 7 < f → Gives (.configRequest f req) s (s.complete f cplUr [])) ∧
      (f ≤ s.fld pgHif Reg.HIF_LINK 9 7 →
        (Runs (.configRequest f (.read 0)) s fun t => ∃ w : Word, t = s.complete f cplOk (leBytes 4 w.toNat) ∧
          w.toNat / 65536 = if f = 0 then 0x8800 else 0x8801) ∧
        (Runs (.configRequest f (.read 8)) s fun t => ∃ w : Word, t = s.complete f cplOk (leBytes 4 w.toNat) ∧
          w.toNat / 256 = 0x120000) ∧
        (∀ on, Runs (.configRequest f (.busMaster on)) s fun t =>
          t.fld ⟨.fnPage, f⟩ Reg.HIF_FN_CTRL 1 1 = bit on ∧ t.fld ⟨.fnPage, f⟩ Reg.HIF_FN_CTRL 0 1 = s.fld ⟨.fnPage, f⟩ Reg.HIF_FN_CTRL 0 1 ∧
          t.mem = s.mem ∧ t.fab = s.fab ∧ t.wins = s.wins) ∧
        (∀ on, Runs (.configRequest f (.msixEnable on)) s fun t =>
          t.cfg.msixOn.contains f = on ∧ t.regs = s.regs ∧ (∀ g, g ≠ f → t.cfg.msixOn.contains g = s.cfg.msixOn.contains g)) ∧
        (∀ d3, Runs (.configRequest f (.power d3)) s fun t =>
          t.cfg.d3.contains f = d3 ∧ t.regs = s.regs ∧ (∀ g, g ≠ f → t.cfg.d3.contains g = s.cfg.d3.contains g))) ∧
      (∀ n, n ≤ 63 → Runs (.configRequest 0 (.vfEnable n)) s fun t =>
        t.fld pgHif Reg.HIF_LINK 9 7 = n ∧ t.fld pgHif Reg.HIF_LINK 0 9 = s.fld pgHif Reg.HIF_LINK 0 9))) ∧
  (∀ (s : State) (f : Nat), f < 64 → s.linkDown = false → f ≤ s.fld pgHif Reg.HIF_LINK 9 7 →
    let of_ (i : Item) : Prop := i.phase = .dispatched ∧ ∃ g n, i.exec = some (.host g n) ∧ (f = 0 ∨ g = f) ∧ g < 64
    Runs (.flr f) s fun t =>
      (∀ g, g < 64 → f = 0 ∨ g = f →
        (∀ n, (lookupD FnRing.reset n (t.win g).rings).next = 0 ∧ (lookupD FnRing.reset n (t.win g).rings).tail = 0) ∧
        (∀ r, (lookupD FnDlv.reset r (t.win g).dlv).tail = 0 ∧ (lookupD FnDlv.reset r (t.win g).dlv).phase = true ∧
          (lookupD FnDlv.reset r (t.win g).dlv).head = (lookupD FnDlv.reset r (s.win g).dlv).head) ∧
        (t.win g).mbx = (if (s.win g).mbx = .queued then .idle else (s.win g).mbx) ∧ g ∉ t.ward.queue ∧ g ∉ t.cfg.msixOn) ∧
      (∀ g, f ≠ 0 → g ≠ f → t.win g = s.win g) ∧
      (∀ i ∈ s.fab.items, of_ i → ∃ j ∈ t.fab.items, j.sn = i.sn ∧ j.phase = .completed ∧ j.ended = some ⟨false, 0x34⟩) ∧
      ((∀ i ∈ s.fab.items, ¬of_ i) → t.fab.items = s.fab.items ∧ t.mem = s.mem ∧ t.cores = s.cores ∧ t.tilth = s.tilth) ∧
      (f = 0 → t.fld pgHif Reg.HIF_LINK 9 7 = 0)) ∧
  (∀ (s : State) (rate width : Nat), s.pins.on = true →
    (Runs (.perstN true rate width) s fun t =>
      t.pins.perstLow = true ∧ t.linkDown = true ∧ t.part pgHif = stDown ∧ t.cfg = CfgSpace.reset ∧
      (∀ f, f < 64 → t.fld ⟨.fnPage, f⟩ Reg.HIF_FN_CTRL 1 1 = 0) ∧ (∀ f, f < 64 → f ∉ t.ward.queue)) ∧
    (s.pins.perstLow = false → Gives (.perstN false rate width) s s) ∧
    (s.pins.perstLow = true → 4 ≤ rate → rate ≤ 6 → width ∈ [1, 2, 4, 8, 16] →
      Runs (.perstN false rate width) s fun t =>
        t.pins.perstLow = false ∧ t.fld pgHif Reg.HIF_LINK 0 3 = rate ∧ t.fld pgHif Reg.HIF_LINK 3 5 = width ∧
        t.fld pgHif Reg.HIF_LINK 8 1 = bit (rate == 6) ∧ t.mem = s.mem ∧ t.fab = s.fab ∧ t.part pgHif = s.part pgHif))

/-- Image words and COMMIT by Ward to a part that is DOWN or TENDING, the rejection of any other write, and DEBUG_STEP (R565,
R566, R585, R586). -/
def Obligations.ImageWrites : Prop :=
  (∀ (s : State) (k : Nat) (v : Word), k < 272 →
    let p := pgDbg k
    let w := s.fld p Reg.GVI_IMEM_ADDR 2 14
    (allowed s .ward p = true → s.rwlOpen p = true → cellsWf (s.core k).imem = true →
      Runs (.imemData .ward k v) s fun t =>
        memGets (t.core k).imem (4 * w) 4 = leBytes 4 v.toNat ∧
        (∀ x, x < 4 * w ∨ 4 * w + 4 ≤ x → memByte (t.core k).imem x = memByte (s.core k).imem x) ∧
        t.core k = { s.core k with imem := (t.core k).imem } ∧
        t.fld p Reg.GVI_IMEM_ADDR 2 14 = (w + 1) % 2 ^ 14 ∧ t.fld p Reg.GVI_LOAD 20 1 = 0 ∧ t.mem = s.mem) ∧
    (∀ a, agTrusted a = true → allowed s a p = true → a ≠ .ward ∨ s.rwlOpen p = false →
      Runs (.imemData a k v) s fun t => Reported s a (p.addr + Reg.GVI_IMEM_DATA) 2 t ∧ t.core k = s.core k)) ∧
  (∀ (s : State) (k load version res : Nat) (images : List Nat), k < 272 → allowed s .ward (pgDbg k) = true → s.rwlOpen (pgDbg k) = true →
    let p := pgDbg k
    (images.length ≤ 8 → load < 2 ^ 16 → version < 2 ^ 16 →
      Runs (.imemCommit .ward k load images version 0) s fun t =>
        t.fld p Reg.GVI_IMEM_CMD 2 2 = 0 ∧ t.fld p Reg.GVI_LOAD 0 16 = load ∧ t.fld p Reg.GVI_LOAD 16 4 = images.length ∧
        t.fld p Reg.GVI_LOAD 20 1 = 1 ∧ t.fld (pgCore k) Reg.PG_VER 16 16 = version ∧ t.core k = s.core k ∧
        ∀ j, j < 8 → t.fld p (Reg.GVI_IMAGES + 4 * (j / 2)) (16 * (j % 2)) 12 = images.getD j 0 % 4096) ∧
    (res = 1 ∨ res = 2 → Runs (.imemCommit .ward k load images version res) s fun t =>
      t.fld p Reg.GVI_IMEM_CMD 2 2 = res ∧ t.reg p Reg.GVI_LOAD = s.reg p Reg.GVI_LOAD ∧ t.core k = s.core k)) ∧
  (∀ (s : State) (pg : Nat) (p : Page) (v : Word), imgPage pg = some p →
    let w := s.fld p Reg.IMG_ADDR 2 22
    let img (t : State) : List Host.Cell := lookupD [] p.addr t.imgs
    (allowed s .ward p = true → s.rwlOpen p = true →
      (cellsWf (img s) = true →
        Runs (.imgData .ward pg v) s fun t => memGets (img t) (4 * w) 4 = leBytes 4 v.toNat ∧
          (∀ x, x < 4 * w ∨ 4 * w + 4 ≤ x → memByte (img t) x = memByte (img s) x) ∧
          t.fld p Reg.IMG_ADDR 2 22 = (w + 1) % 2 ^ 22 ∧ t.fld p Reg.IMG_CMD 4 1 = 0 ∧ t.mem = s.mem) ∧
      (∀ version, version < 2 ^ 16 → Runs (.imgCommit .ward pg version 0) s fun t =>
        t.fld p Reg.IMG_CMD 2 2 = 0 ∧ t.fld p Reg.IMG_CMD 4 1 = 1 ∧ t.fld p Reg.PG_VER 16 16 = version ∧ t.imgs = s.imgs) ∧
      (∀ version res, res = 1 ∨ res = 2 → Runs (.imgCommit .ward pg version res) s fun t =>
        t.fld p Reg.IMG_CMD 2 2 = res ∧ t.fld p Reg.IMG_CMD 4 1 = s.fld p Reg.IMG_CMD 4 1 ∧ t.imgs = s.imgs)) ∧
    (∀ a version res, agTrusted a = true → allowed s a p = true → a ≠ .ward ∨ s.rwlOpen p = false →
      (Runs (.imgData a pg v) s fun t => Reported s a (p.addr + Reg.IMG_DATA) 2 t ∧ t.imgs = s.imgs) ∧
      (Runs (.imgCommit a pg version res) s (Reported s a (p.addr + Reg.IMG_CMD) 2)))) ∧
  (∀ (s : State) (k : Nat), k < 272 → (s.core k).halted = true → allowed s .ward (pgDbg k) = true →
    let c := s.core k
    (s.rwlOpen (pgDbg k) = true → c.waiting = false → c.preempt = false → c.vresume = false →
      memGets c.imem (c.pc / 16 % 4096 * 16) 16 = List.replicate 16 0 → c.pend = [] → c.br = none →
      loopNext c = (c, (c.pc + 16) % 65536) →
      Runs (.debugStep .ward k) s fun t => (t.core k).g = c.g ∧ (t.core k).f = c.f ∧ (t.core k).pc = (c.pc + 16) % 65536 ∧
        (t.core k).cnt = c.cnt + 1 ∧ (t.core k).halted = true ∧ t.mem = s.mem) ∧
    (s.rwlOpen (pgDbg k) = false → Runs (.debugStep .ward k) s fun t =>
      Reported s .ward ((pgDbg k).addr + Reg.GVI_DBG_CTRL) 2 t ∧ t.core k = c)) ∧
  (∀ (s : State) (a : Agent) (k : Nat), (s.core k).halted = false → Gives (.debugStep a k) s s)

/-- Taking and freeing the lock, and the four operations with their results for the holder and for any other user (R556 to
R558, R560, R587). The algorithms are PRESUMED (log entry 41). -/
def Obligations.KaolinCommands : Prop :=
  (∀ (s : State) (a : Agent), agTrusted a = true → allowed s a pgKaolin = true →
    let u := s.klnUser a
    (s.klnHolder = 0 → Runs (.klnAcquire a) s fun t => t.klnHolder = u ∧ t.mem = s.mem ∧ (t.klnView a Reg.KLN_LOCK) = some (BitVec.ofNat 32 (u * 4 + 16))) ∧
    (s.klnHolder ≠ 0 → Gives (.klnAcquire a) s s) ∧
    (s.klnHolder = u → Runs (.klnRelease a) s fun t => t.klnHolder = 0 ∧ t.klnBytes Reg.KLN_DATA 0x800 = s.klnBytes Reg.KLN_DATA 0x800) ∧
    (s.klnHolder ≠ u → Gives (.klnRelease a) s s) ∧
    (∀ cmd op row, (row, op) ∈ [(Instr.xtsEnc a cmd, 1), (.xtsDec a cmd, 2), (.cmacGen a cmd, 3), (.cmacCheck a cmd, 4)] →
      (s.klnHolder ≠ u → Runs row s fun t => t.klnView a Reg.KLN_STATUS = some 2 ∧ t.regs = s.regs ∧ t.mem = s.mem) ∧
      (s.klnHolder = u → s.ward.klnDenied.contains u = false →
        let s1 := (s.setWard { s.ward with klnAt := s.airtime }).setFld pgKaolin Reg.KLN_CMD 0 14 (setBits cmd 0 3 op)
        let c := s1.klnCmd
        let result (t : State) : Nat := t.fld pgKaolin Reg.KLN_STATUS 1 3
        let ended (t : State) : Prop := t.fld pgKaolin Reg.PG_IRQ_STAT 1 1 = 1 ∧ t.ward.klnAt = s.airtime ∧ t.klnHolder = u ∧ t.mem = s.mem
        let root : Option (List Nat) := if c.owner then s1.ownerRoot c.slot else some s1.deviceRoot
        let data := natBytes (s1.klnData c)
        (s1.klnValid u c = false → Runs row s fun t => result t = 2 ∧ ended t ∧ t.klnBytes Reg.KLN_DATA 0x800 = s.klnBytes Reg.KLN_DATA 0x800) ∧
        (s1.klnValid u c = true → root = none → Runs row s fun t => result t = 4 ∧ ended t) ∧
        (∀ key, s1.klnValid u c = true → root = some key →
          (op ≤ 2 → Runs row s fun t => result t = 0 ∧ ended t ∧
            (c.sram = false → (t.klnBytes Reg.KLN_DATA 0x800).take c.len =
              byteNats (xts (op == 1) (kdf key c.label 1 512) c.unit (s.reg64 pgKaolin Reg.KLN_TWEAK_LO) data))) ∧
          (op = 3 → Runs row s fun t => result t = 0 ∧ ended t ∧
            t.klnBytes Reg.KLN_TAG 16 = byteNats (cmac (kdf key c.label 2 256) data)) ∧
          (op = 4 → Runs row s fun t => ended t ∧
            result t = (if byteNats (cmac (kdf key c.label 2 256) data) = s.klnBytes Reg.KLN_TAG 16 then 0 else 3))))))

/-- A holder idle for 10 ms loses the lock: the window and the tag are cleared, the tally counts, the interrupt is set; a
register write of the holder counts as activity (R559). -/
def Obligations.LockLost : Prop :=
  (∀ (s : State), s.klnHolder ≠ 0 →
    (s.ward.klnAt + 19660800 ≤ s.airtime →
      Runs .lockLost s fun t => t.klnHolder = 0 ∧ t.klnBytes Reg.KLN_DATA 0x800 = List.replicate 0x800 0 ∧
        t.klnBytes Reg.KLN_TAG 16 = List.replicate 16 0 ∧ t.fld pgKaolin Reg.PG_IRQ_STAT 0 1 = 1 ∧
        t.reg pgKaolin Reg.KLN_TALLY_LOCKLOST = tallied (s.reg pgKaolin Reg.KLN_TALLY_LOCKLOST) 1) ∧
    (s.airtime < s.ward.klnAt + 19660800 → Gives .lockLost s s) ∧
    (∀ (a : Agent) (off v : Nat), s.klnUser a = s.klnHolder → off ≠ Reg.KLN_LOCK →
      (s.klnWrite a off v false).ward.klnAt = s.airtime))
end

