-- ==== Sys2Proof/Laws/Memory.lean ====
section
/-!
SUPPORT. Sys2Proof/Laws/Memory.lean: laws of the lists by key, of bytes stored in a memory, and that every operation that stores a byte
keeps the canonical form.
-/
namespace Sys2Proof.Machine

/-! ### Lists by key -/

theorem lookupD_eq {α : Type} (d : α) (k : Nat) (l : List (Nat × α)) : lookupD d k l = (lookup? k l).getD d := by
  induction l with
  | nil => rfl
  | cons h t ih =>
    obtain ⟨j, u⟩ := h
    by_cases e : j = k <;> simp [lookupD, lookup?, e, ih]

theorem lookup?_insertKey {α : Type} (k : Nat) (v : α) (l : List (Nat × α)) (a : Nat) :
    lookup? a (insertKey k v l) = if a = k then some v else lookup? a l := by
  induction l with
  | nil => simp [insertKey, lookup?, @eq_comm _ k a]
  | cons h t ih =>
    obtain ⟨j, u⟩ := h
    unfold insertKey
    split
    · simp [lookup?, @eq_comm _ k a]
    · split
      · rename_i hk
        subst hk
        by_cases e : k = a <;> simp [lookup?, e, @eq_comm _ a k]
      · rename_i hk
        by_cases e : j = a
        · subst e
          simp [lookup?, show ¬j = k from fun q => hk q.symm]
        · simp [lookup?, e, ih]

@[simp] theorem lookupD_insertKey {α : Type} (d : α) (k : Nat) (v : α) (l : List (Nat × α)) (a : Nat) :
    lookupD d a (insertKey k v l) = if a = k then v else lookupD d a l := by
  rw [lookupD_eq, lookupD_eq, lookup?_insertKey]
  split <;> rfl

theorem insertKey_insertKey {α : Type} (k : Nat) (v u : α) (l : List (Nat × α)) :
    insertKey k v (insertKey k u l) = insertKey k v l := by
  induction l with
  | nil => simp [insertKey]
  | cons h t ih =>
    obtain ⟨j, w⟩ := h
    simp only [insertKey]
    split
    · simp [insertKey]
    · split
      · simp [insertKey]
      · rename_i h1 h2
        simp [insertKey, ih, h1, h2]

/-! ### The canonical form -/

/-- The canonical form, member by member. -/
theorem cellsWf_iff (l : List Host.Cell) : cellsWf l = true ↔ l.Pairwise (fun c d => c.1 < d.1) ∧ ∀ c ∈ l, c.2 ≠ 0 := by
  induction l with
  | nil => simp [cellsWf]
  | cons c t ih =>
    cases t with
    | nil => simp [cellsWf]
    | cons d t =>
      simp only [cellsWf, Bool.and_eq_true, bne_iff_ne, ne_eq, decide_eq_true_eq, ih]
      constructor
      · rintro ⟨⟨h0, h1⟩, h2, h3⟩
        refine ⟨List.pairwise_cons.2 ⟨?_, h2⟩, ?_⟩
        · intro x hx
          rcases List.mem_cons.1 hx with rfl | hx
          · exact h1
          · exact Nat.lt_trans h1 ((List.pairwise_cons.1 h2).1 x hx)
        · intro x hx
          rcases List.mem_cons.1 hx with rfl | hx
          · exact h0
          · exact h3 x hx
      · rintro ⟨h1, h2⟩
        obtain ⟨h3, h4⟩ := List.pairwise_cons.1 h1
        exact ⟨⟨h2 c (by simp), h3 d (by simp)⟩, h4, fun x hx => h2 x (List.mem_cons_of_mem _ hx)⟩

theorem mem_insertKey {α : Type} {k : Nat} {v : α} {l : List (Nat × α)} {x : Nat × α} (h : x ∈ insertKey k v l) :
    x = (k, v) ∨ x ∈ l := by
  induction l with
  | nil => simpa [insertKey] using h
  | cons c t ih =>
    obtain ⟨j, u⟩ := c
    unfold insertKey at h
    split at h
    · simpa using h
    · split at h
      · rcases List.mem_cons.1 h with h | h
        · exact .inl h
        · exact .inr (List.mem_cons_of_mem _ h)
      · rcases List.mem_cons.1 h with h | h
        · exact .inr (by simp [h])
        · rcases ih h with h | h
          · exact .inl h
          · exact .inr (List.mem_cons_of_mem _ h)

theorem pairwise_insertKey {α : Type} (k : Nat) (v : α) {l : List (Nat × α)} (h : l.Pairwise (fun c d => c.1 < d.1)) :
    (insertKey k v l).Pairwise (fun c d => c.1 < d.1) := by
  induction l with
  | nil => simp [insertKey]
  | cons c t ih =>
    obtain ⟨j, u⟩ := c
    obtain ⟨h1, h2⟩ := List.pairwise_cons.1 h
    unfold insertKey
    split
    · rename_i hk
      refine List.pairwise_cons.2 ⟨?_, h⟩
      intro x hx
      rcases List.mem_cons.1 hx with rfl | hx
      · exact hk
      · exact Nat.lt_trans hk (h1 x hx)
    · split
      · rename_i hk
        exact List.pairwise_cons.2 ⟨fun x hx => by have := h1 x hx; simp at this ⊢; omega, h2⟩
      · rename_i hk hk'
        refine List.pairwise_cons.2 ⟨?_, ih h2⟩
        intro x hx
        rcases mem_insertKey hx with rfl | hx
        · show j < k
          omega
        · exact h1 x hx

theorem mem_eraseKey {α : Type} {k : Nat} {l : List (Nat × α)} {x : Nat × α} (h : x ∈ eraseKey k l) : x ∈ l := by
  induction l with
  | nil => simp [eraseKey] at h
  | cons c t ih =>
    obtain ⟨j, u⟩ := c
    unfold eraseKey at h
    split at h
    · exact List.mem_cons_of_mem _ h
    · rcases List.mem_cons.1 h with h | h
      · simp [h]
      · exact List.mem_cons_of_mem _ (ih h)

theorem pairwise_eraseKey {α : Type} (k : Nat) {l : List (Nat × α)} (h : l.Pairwise (fun c d => c.1 < d.1)) :
    (eraseKey k l).Pairwise (fun c d => c.1 < d.1) := by
  induction l with
  | nil => simp [eraseKey]
  | cons c t ih =>
    obtain ⟨j, u⟩ := c
    obtain ⟨h1, h2⟩ := List.pairwise_cons.1 h
    unfold eraseKey
    split
    · exact h2
    · exact List.pairwise_cons.2 ⟨fun x hx => h1 x (mem_eraseKey hx), ih h2⟩

/-- Storing a byte keeps the canonical form. -/
theorem cellsWf_memPut {m : List Host.Cell} (a : Nat) (b : Byte) (h : cellsWf m = true) : cellsWf (memPut m a b) = true := by
  obtain ⟨h1, h2⟩ := (cellsWf_iff m).1 h
  unfold memPut
  split
  · exact (cellsWf_iff _).2 ⟨pairwise_eraseKey a h1, fun c hc => h2 c (mem_eraseKey hc)⟩
  · rename_i hb
    refine (cellsWf_iff _).2 ⟨pairwise_insertKey a b h1, fun c hc => ?_⟩
    rcases mem_insertKey hc with rfl | hc
    · exact hb
    · exact h2 c hc

theorem cellsWf_memPuts (bs : List Byte) : ∀ (a : Nat) {m : List Host.Cell}, cellsWf m = true →
    cellsWf (memPuts m a bs) = true := by
  induction bs with
  | nil => intro a m h; exact h
  | cons b bs ih => intro a m h; exact ih (a + 1) (cellsWf_memPut a b h)

/-! ### What is read -/

theorem memByte_eq (m : List Host.Cell) (a : Nat) : memByte m a = (lookup? a m).getD 0 := by
  unfold memByte
  cases lookup? a m <;> rfl

theorem lookup?_none_of_lt {α : Type} {l : List (Nat × α)} {a : Nat} (h : ∀ x ∈ l, a < x.1) : lookup? a l = none := by
  induction l with
  | nil => rfl
  | cons c t ih =>
    obtain ⟨j, u⟩ := c
    have := h (j, u) (by simp)
    simp only [lookup?]
    rw [if_neg (by simp at this; omega), ih fun x hx => h x (List.mem_cons_of_mem _ hx)]

theorem lookup?_eraseKey {α : Type} (k : Nat) {l : List (Nat × α)} (h : l.Pairwise (fun c d => c.1 < d.1)) (a : Nat) :
    lookup? a (eraseKey k l) = if a = k then none else lookup? a l := by
  induction l with
  | nil => simp [eraseKey, lookup?]
  | cons c t ih =>
    obtain ⟨j, u⟩ := c
    obtain ⟨h1, h2⟩ := List.pairwise_cons.1 h
    unfold eraseKey
    split
    · rename_i hj
      by_cases e : a = k
      · rw [if_pos e]
        exact lookup?_none_of_lt fun x hx => by have := h1 x hx; simp at this; omega
      · simp [lookup?, e, show ¬j = a by omega]
    · rename_i hj
      by_cases e : j = a
      · simp [lookup?, e, show ¬a = k by omega]
      · simp [lookup?, e, ih h2]

/-- A byte stored is read back; every other byte reads as before. -/
theorem memByte_memPut {m : List Host.Cell} (a : Nat) (b : Byte) (h : cellsWf m = true) (x : Nat) :
    memByte (memPut m a b) x = if x = a then b else memByte m x := by
  obtain ⟨h1, _⟩ := (cellsWf_iff m).1 h
  rw [memByte_eq, memByte_eq]
  unfold memPut
  split
  · rename_i hb
    rw [lookup?_eraseKey a h1]
    split <;> simp [hb]
  · rw [lookup?_insertKey]
    split <;> simp

theorem memByte_memPuts (bs : List Byte) : ∀ (a : Nat) {m : List Host.Cell}, cellsWf m = true → ∀ x,
    memByte (memPuts m a bs) x = if a ≤ x ∧ x < a + bs.length then bs.getD (x - a) 0 else memByte m x := by
  induction bs with
  | nil =>
    intro a m _ x
    rw [if_neg (by simp)]
    rfl
  | cons b bs ih =>
    intro a m h x
    rw [memPuts, ih (a + 1) (cellsWf_memPut a b h), memByte_memPut a b h]
    by_cases e : x = a
    · subst e
      rw [if_neg (by omega), if_pos rfl, if_pos (by simp)]
      simp
    · by_cases g : a + 1 ≤ x ∧ x < a + 1 + bs.length
      · rw [if_pos g, if_pos (by simp; omega)]
        obtain ⟨i, rfl⟩ : ∃ i, x = a + 1 + i := ⟨x - (a + 1), by omega⟩
        rw [show a + 1 + i - (a + 1) = i by omega, show a + 1 + i - a = i + 1 by omega]
        simp
      · rw [if_neg g, if_neg e, if_neg (by simp; omega)]

/-- Equal memories are equal data: canonical lists that read alike are the same list. -/
theorem cells_ext {m n : List Host.Cell} (hm : cellsWf m = true) (hn : cellsWf n = true)
    (h : ∀ x, memByte m x = memByte n x) : m = n := by
  obtain ⟨m1, m2⟩ := (cellsWf_iff m).1 hm
  obtain ⟨n1, n2⟩ := (cellsWf_iff n).1 hn
  clear hm hn
  induction m generalizing n with
  | nil =>
    cases n with
    | nil => rfl
    | cons d t =>
      have := h d.1
      rw [memByte_eq, memByte_eq] at this
      simp [lookup?] at this
      exact absurd this.symm (n2 d (by simp))
  | cons c t ih =>
    cases n with
    | nil =>
      have := h c.1
      rw [memByte_eq, memByte_eq] at this
      simp [lookup?] at this
      exact absurd this (m2 c (by simp))
    | cons d u =>
      obtain ⟨a, b⟩ := c
      obtain ⟨a', b'⟩ := d
      obtain ⟨p1, p2⟩ := List.pairwise_cons.1 m1
      obtain ⟨q1, q2⟩ := List.pairwise_cons.1 n1
      have low : ∀ (k : Nat) (v : Byte) (l : List Host.Cell) (y : Nat), (∀ x ∈ l, k < x.1) → y < k → memByte ((k, v) :: l) y = 0 := by
        intro k v l y hl hy
        rw [memByte_eq]
        simp only [lookup?]
        rw [if_neg (by omega), lookup?_none_of_lt fun x hx => by have := hl x hx; omega]
        rfl
      have hd : ∀ (k : Nat) (v : Byte) (l : List Host.Cell), memByte ((k, v) :: l) k = v := by
        intro k v l
        simp [memByte_eq, lookup?]
      have ea : a = a' := by
        rcases Nat.lt_trichotomy a a' with g | g | g
        · have e := h a
          rw [hd, low a' b' u a q1 g] at e
          exact absurd e (m2 (a, b) (by simp))
        · exact g
        · have e := h a'
          rw [hd, low a b t a' p1 g] at e
          exact absurd e.symm (n2 (a', b') (by simp))
      subst ea
      have eb : b = b' := by have e := h a; rwa [hd, hd] at e
      subst eb
      rw [ih (fun x => ?_) p2 (fun c hc => m2 c (List.mem_cons_of_mem _ hc)) q2 (fun c hc => n2 c (List.mem_cons_of_mem _ hc))]
      by_cases g : x = a
      · subst g
        rw [memByte_eq, memByte_eq, lookup?_none_of_lt p1, lookup?_none_of_lt q1]
      · have e := h x
        simp only [memByte_eq, lookup?, if_neg (show ¬a = x from fun q => g q.symm)] at e
        rw [memByte_eq, memByte_eq, e]

/-! ### The operations of a state that store bytes -/

theorem mark_cells (s : State) (a : Nat) (bad : Bool) : (s.mark a bad).mem.cells = s.mem.cells := rfl
theorem count_keepsMem (s : State) (p : Page) (off d : Nat) : (s.count p off d).mem = s.mem := rfl
theorem noteBad_mem (s : State) (a r : Nat) (was : Bool) : (s.noteBad a r was).mem = s.mem := rfl

theorem marks_cells (blk : Nat) (bs : List (Nat × Byte)) : ∀ s : State,
    (bs.foldl (fun s b => s.mark (blk + b.1) false) s).mem.cells = s.mem.cells := by
  induction bs with
  | nil => intro s; rfl
  | cons b bs ih => intro s; rw [List.foldl_cons, ih]; rfl

theorem foldl_mem {β : Type} {f : State → β → State} (hf : ∀ s x, (f s x).mem = s.mem) (l : List β) : ∀ s : State,
    (l.foldl f s).mem = s.mem := by
  induction l with
  | nil => intro s; rfl
  | cons x l ih => intro s; rw [List.foldl_cons, ih, hf]

/-- What a write leaves in the cells of a line. -/
theorem writeLine_cells (s : State) (blk : Nat) (bs : List (Nat × Byte)) :
    (s.writeLine blk bs).1.mem.cells = bs.foldl (fun m b => memPut m (blk + b.1) b.2) s.mem.cells := by
  unfold State.writeLine
  dsimp only
  split
  · rw [marks_cells]
  · split
    · rfl
    · split
      · exact congrArg Memory.cells (foldl_mem
          (f := fun (s : State) (p : Page) =>
            (s.count pgMem Reg.MEM_TALLY_POISON_WR 1).count p Reg.MEM_BK_TALLY_POISON_WR 1) (fun _ _ => rfl) _ _)
      · rfl

theorem cellsWf_fold {blk : Nat} (bs : List (Nat × Byte)) : ∀ {m : List Host.Cell}, cellsWf m = true →
    cellsWf (bs.foldl (fun m b => memPut m (blk + b.1) b.2) m) = true := by
  induction bs with
  | nil => intro m h; exact h
  | cons b bs ih => intro m h; exact ih (cellsWf_memPut _ _ h)

theorem writeLine_wf {s : State} (blk : Nat) (bs : List (Nat × Byte)) (h : s.mem.wf = true) : (s.writeLine blk bs).1.mem.wf = true := by
  unfold Memory.wf at *
  rw [writeLine_cells]
  exact cellsWf_fold bs h

theorem rvTake_mem (s : State) (n : Nat) (b : RvBody) : (s.rvTake n b).mem = s.mem := by
  unfold State.rvTake
  dsimp only
  repeat' split
  all_goals rfl

theorem mirrorOut_mem (s : State) (bs : List (Nat × Byte)) : (s.mirrorOut bs).mem = s.mem := by
  unfold State.mirrorOut
  refine foldl_mem (fun s e => foldl_mem (fun s w => ?_) _ s) _ s
  exact foldl_mem (fun s r => rvTake_mem s _ _) _ s

theorem writeSome_wf {s : State} (blk : Nat) (bs : List (Nat × Byte)) (h : s.mem.wf = true) : (s.writeSome blk bs).1.mem.wf = true := by
  unfold State.writeSome
  dsimp only
  split
  · exact writeLine_wf blk bs h
  · rw [mirrorOut_mem]
    exact writeLine_wf blk bs h

/-- Every write keeps the canonical form. -/
theorem write_wf {s : State} (a : Nat) (bs : List Byte) (h : s.mem.wf = true) : (s.write a bs).1.mem.wf = true := by
  unfold State.write
  generalize pieces (bs.length + 1) a bs = l
  suffices ∀ (l : List (Nat × List Byte)) (r : State × Wr), r.1.mem.wf = true →
      ((l.foldl (fun r p =>
        if (List.range p.2.length).all fun i => r.1.serve (p.1 + i) == .yes then
          let w := r.1.writeSome (lineOf p.1) (lineBytes p.1 p.2)
          (w.1, if w.2 then (if r.2 == .access then .access else .poison) else r.2)
        else (r.1, .access)) r).1).mem.wf = true from this l (s, .ok) h
  intro l
  induction l with
  | nil => intro r h; exact h
  | cons p l ih =>
    intro r h
    rw [List.foldl_cons]
    apply ih
    split
    · exact writeSome_wf _ _ h
    · exact h

theorem hostWrite_mem (s : State) (a g : Nat) (bs : List Byte) : (s.hostWrite a g bs).1.mem = s.mem := by
  unfold State.hostWrite
  split
  · dsimp only
    split <;> rfl
  · rfl

theorem writeFor_wf {s : State} (g a : Nat) (bs : List Byte) (h : s.mem.wf = true) : (s.writeFor g a bs).1.mem.wf = true := by
  unfold State.writeFor
  split
  · rw [hostWrite_mem]; exact h
  · exact write_wf a bs h

/-- A fold keeps the form if each of its steps does. -/
theorem foldl_wf {α : Type} (f : State → α → State) (hf : ∀ s x, s.mem.wf = true → (f s x).mem.wf = true) (l : List α) :
    ∀ s : State, s.mem.wf = true → (l.foldl f s).mem.wf = true := by
  induction l with
  | nil => exact fun _ h => h
  | cons x l ih => exact fun s h => ih _ (hf s x h)

theorem slotOpen_wf {s : State} (a : Nat) (h : s.mem.wf = true) : (s.slotOpen a).mem.wf = true := by
  unfold State.slotOpen
  split
  · apply foldl_wf _ _ _ _ h
    intro s x h
    exact cellsWf_memPut _ _ h
  · exact h

/-- The memory at reset has the form. -/
theorem reset_wf : State.reset.mem.wf = true := rfl

end Sys2Proof.Machine
end

