-- ==== Sys2Proof/Laws/State.lean ====
section
/-!
SUPPORT. Sys2Proof/Laws/State.lean: what each update of the state leaves of every field it does not touch, one lemma a field, true
by computation.
-/
namespace Sys2Proof.Machine

/-! ### State.setReg -/

@[simp] theorem setReg_latch (s : State) (p : Page) (off : Nat) (v : Word) : (s.setReg p off v).latch = s.latch := rfl
@[simp] theorem setReg_stage (s : State) (p : Page) (off : Nat) (v : Word) : (s.setReg p off v).stage = s.stage := rfl
@[simp] theorem setReg_airtime (s : State) (p : Page) (off : Nat) (v : Word) : (s.setReg p off v).airtime = s.airtime := rfl
@[simp] theorem setReg_mem (s : State) (p : Page) (off : Nat) (v : Word) : (s.setReg p off v).mem = s.mem := rfl
@[simp] theorem setReg_hostMem (s : State) (p : Page) (off : Nat) (v : Word) : (s.setReg p off v).hostMem = s.hostMem := rfl
@[simp] theorem setReg_cores (s : State) (p : Page) (off : Nat) (v : Word) : (s.setReg p off v).cores = s.cores := rfl
@[simp] theorem setReg_fab (s : State) (p : Page) (off : Nat) (v : Word) : (s.setReg p off v).fab = s.fab := rfl
@[simp] theorem setReg_tilth (s : State) (p : Page) (off : Nat) (v : Word) : (s.setReg p off v).tilth = s.tilth := rfl
@[simp] theorem setReg_wins (s : State) (p : Page) (off : Nat) (v : Word) : (s.setReg p off v).wins = s.wins := rfl
@[simp] theorem setReg_cfg (s : State) (p : Page) (off : Nat) (v : Word) : (s.setReg p off v).cfg = s.cfg := rfl
@[simp] theorem setReg_ctxs (s : State) (p : Page) (off : Nat) (v : Word) : (s.setReg p off v).ctxs = s.ctxs := rfl
@[simp] theorem setReg_fdcJobs (s : State) (p : Page) (off : Nat) (v : Word) : (s.setReg p off v).fdcJobs = s.fdcJobs := rfl
@[simp] theorem setReg_fdcLast (s : State) (p : Page) (off : Nat) (v : Word) : (s.setReg p off v).fdcLast = s.fdcLast := rfl
@[simp] theorem setReg_dmaLines (s : State) (p : Page) (off : Nat) (v : Word) : (s.setReg p off v).dmaLines = s.dmaLines := rfl
@[simp] theorem setReg_dmaChans (s : State) (p : Page) (off : Nat) (v : Word) : (s.setReg p off v).dmaChans = s.dmaChans := rfl
@[simp] theorem setReg_dmaLast (s : State) (p : Page) (off : Nat) (v : Word) : (s.setReg p off v).dmaLast = s.dmaLast := rfl
@[simp] theorem setReg_rings (s : State) (p : Page) (off : Nat) (v : Word) : (s.setReg p off v).rings = s.rings := rfl
@[simp] theorem setReg_links (s : State) (p : Page) (off : Nat) (v : Word) : (s.setReg p off v).links = s.links := rfl
@[simp] theorem setReg_ward (s : State) (p : Page) (off : Nat) (v : Word) : (s.setReg p off v).ward = s.ward := rfl
@[simp] theorem setReg_pins (s : State) (p : Page) (off : Nat) (v : Word) : (s.setReg p off v).pins = s.pins := rfl
@[simp] theorem setReg_rest (s : State) (p : Page) (off : Nat) (v : Word) : (s.setReg p off v).rest = s.rest := rfl
@[simp] theorem setReg_msix (s : State) (p : Page) (off : Nat) (v : Word) : (s.setReg p off v).msix = s.msix := rfl
@[simp] theorem setReg_cpls (s : State) (p : Page) (off : Nat) (v : Word) : (s.setReg p off v).cpls = s.cpls := rfl
@[simp] theorem setReg_faultLog (s : State) (p : Page) (off : Nat) (v : Word) : (s.setReg p off v).faultLog = s.faultLog := rfl
@[simp] theorem setReg_cmdAt (s : State) (p : Page) (off : Nat) (v : Word) : (s.setReg p off v).cmdAt = s.cmdAt := rfl
@[simp] theorem setReg_imgs (s : State) (p : Page) (off : Nat) (v : Word) : (s.setReg p off v).imgs = s.imgs := rfl
@[simp] theorem setReg_free (s : State) (p : Page) (off : Nat) (v : Word) : (s.setReg p off v).free = s.free := rfl
@[simp] theorem setReg_pending (s : State) (p : Page) (off : Nat) (v : Word) : (s.setReg p off v).pending = s.pending := rfl

/-! ### State.setFld -/

@[simp] theorem setFld_latch (s : State) (p : Page) (off lo w v : Nat) : (s.setFld p off lo w v).latch = s.latch := rfl
@[simp] theorem setFld_stage (s : State) (p : Page) (off lo w v : Nat) : (s.setFld p off lo w v).stage = s.stage := rfl
@[simp] theorem setFld_airtime (s : State) (p : Page) (off lo w v : Nat) : (s.setFld p off lo w v).airtime = s.airtime := rfl
@[simp] theorem setFld_mem (s : State) (p : Page) (off lo w v : Nat) : (s.setFld p off lo w v).mem = s.mem := rfl
@[simp] theorem setFld_hostMem (s : State) (p : Page) (off lo w v : Nat) : (s.setFld p off lo w v).hostMem = s.hostMem := rfl
@[simp] theorem setFld_cores (s : State) (p : Page) (off lo w v : Nat) : (s.setFld p off lo w v).cores = s.cores := rfl
@[simp] theorem setFld_fab (s : State) (p : Page) (off lo w v : Nat) : (s.setFld p off lo w v).fab = s.fab := rfl
@[simp] theorem setFld_tilth (s : State) (p : Page) (off lo w v : Nat) : (s.setFld p off lo w v).tilth = s.tilth := rfl
@[simp] theorem setFld_wins (s : State) (p : Page) (off lo w v : Nat) : (s.setFld p off lo w v).wins = s.wins := rfl
@[simp] theorem setFld_cfg (s : State) (p : Page) (off lo w v : Nat) : (s.setFld p off lo w v).cfg = s.cfg := rfl
@[simp] theorem setFld_ctxs (s : State) (p : Page) (off lo w v : Nat) : (s.setFld p off lo w v).ctxs = s.ctxs := rfl
@[simp] theorem setFld_fdcJobs (s : State) (p : Page) (off lo w v : Nat) : (s.setFld p off lo w v).fdcJobs = s.fdcJobs := rfl
@[simp] theorem setFld_fdcLast (s : State) (p : Page) (off lo w v : Nat) : (s.setFld p off lo w v).fdcLast = s.fdcLast := rfl
@[simp] theorem setFld_dmaLines (s : State) (p : Page) (off lo w v : Nat) : (s.setFld p off lo w v).dmaLines = s.dmaLines := rfl
@[simp] theorem setFld_dmaChans (s : State) (p : Page) (off lo w v : Nat) : (s.setFld p off lo w v).dmaChans = s.dmaChans := rfl
@[simp] theorem setFld_dmaLast (s : State) (p : Page) (off lo w v : Nat) : (s.setFld p off lo w v).dmaLast = s.dmaLast := rfl
@[simp] theorem setFld_rings (s : State) (p : Page) (off lo w v : Nat) : (s.setFld p off lo w v).rings = s.rings := rfl
@[simp] theorem setFld_links (s : State) (p : Page) (off lo w v : Nat) : (s.setFld p off lo w v).links = s.links := rfl
@[simp] theorem setFld_ward (s : State) (p : Page) (off lo w v : Nat) : (s.setFld p off lo w v).ward = s.ward := rfl
@[simp] theorem setFld_pins (s : State) (p : Page) (off lo w v : Nat) : (s.setFld p off lo w v).pins = s.pins := rfl
@[simp] theorem setFld_rest (s : State) (p : Page) (off lo w v : Nat) : (s.setFld p off lo w v).rest = s.rest := rfl
@[simp] theorem setFld_msix (s : State) (p : Page) (off lo w v : Nat) : (s.setFld p off lo w v).msix = s.msix := rfl
@[simp] theorem setFld_cpls (s : State) (p : Page) (off lo w v : Nat) : (s.setFld p off lo w v).cpls = s.cpls := rfl
@[simp] theorem setFld_faultLog (s : State) (p : Page) (off lo w v : Nat) : (s.setFld p off lo w v).faultLog = s.faultLog := rfl
@[simp] theorem setFld_cmdAt (s : State) (p : Page) (off lo w v : Nat) : (s.setFld p off lo w v).cmdAt = s.cmdAt := rfl
@[simp] theorem setFld_imgs (s : State) (p : Page) (off lo w v : Nat) : (s.setFld p off lo w v).imgs = s.imgs := rfl
@[simp] theorem setFld_free (s : State) (p : Page) (off lo w v : Nat) : (s.setFld p off lo w v).free = s.free := rfl
@[simp] theorem setFld_pending (s : State) (p : Page) (off lo w v : Nat) : (s.setFld p off lo w v).pending = s.pending := rfl

/-! ### State.setReg64 -/

@[simp] theorem setReg64_latch (s : State) (p : Page) (off v : Nat) : (s.setReg64 p off v).latch = s.latch := rfl
@[simp] theorem setReg64_stage (s : State) (p : Page) (off v : Nat) : (s.setReg64 p off v).stage = s.stage := rfl
@[simp] theorem setReg64_airtime (s : State) (p : Page) (off v : Nat) : (s.setReg64 p off v).airtime = s.airtime := rfl
@[simp] theorem setReg64_mem (s : State) (p : Page) (off v : Nat) : (s.setReg64 p off v).mem = s.mem := rfl
@[simp] theorem setReg64_hostMem (s : State) (p : Page) (off v : Nat) : (s.setReg64 p off v).hostMem = s.hostMem := rfl
@[simp] theorem setReg64_cores (s : State) (p : Page) (off v : Nat) : (s.setReg64 p off v).cores = s.cores := rfl
@[simp] theorem setReg64_fab (s : State) (p : Page) (off v : Nat) : (s.setReg64 p off v).fab = s.fab := rfl
@[simp] theorem setReg64_tilth (s : State) (p : Page) (off v : Nat) : (s.setReg64 p off v).tilth = s.tilth := rfl
@[simp] theorem setReg64_wins (s : State) (p : Page) (off v : Nat) : (s.setReg64 p off v).wins = s.wins := rfl
@[simp] theorem setReg64_cfg (s : State) (p : Page) (off v : Nat) : (s.setReg64 p off v).cfg = s.cfg := rfl
@[simp] theorem setReg64_ctxs (s : State) (p : Page) (off v : Nat) : (s.setReg64 p off v).ctxs = s.ctxs := rfl
@[simp] theorem setReg64_fdcJobs (s : State) (p : Page) (off v : Nat) : (s.setReg64 p off v).fdcJobs = s.fdcJobs := rfl
@[simp] theorem setReg64_fdcLast (s : State) (p : Page) (off v : Nat) : (s.setReg64 p off v).fdcLast = s.fdcLast := rfl
@[simp] theorem setReg64_dmaLines (s : State) (p : Page) (off v : Nat) : (s.setReg64 p off v).dmaLines = s.dmaLines := rfl
@[simp] theorem setReg64_dmaChans (s : State) (p : Page) (off v : Nat) : (s.setReg64 p off v).dmaChans = s.dmaChans := rfl
@[simp] theorem setReg64_dmaLast (s : State) (p : Page) (off v : Nat) : (s.setReg64 p off v).dmaLast = s.dmaLast := rfl
@[simp] theorem setReg64_rings (s : State) (p : Page) (off v : Nat) : (s.setReg64 p off v).rings = s.rings := rfl
@[simp] theorem setReg64_links (s : State) (p : Page) (off v : Nat) : (s.setReg64 p off v).links = s.links := rfl
@[simp] theorem setReg64_ward (s : State) (p : Page) (off v : Nat) : (s.setReg64 p off v).ward = s.ward := rfl
@[simp] theorem setReg64_pins (s : State) (p : Page) (off v : Nat) : (s.setReg64 p off v).pins = s.pins := rfl
@[simp] theorem setReg64_rest (s : State) (p : Page) (off v : Nat) : (s.setReg64 p off v).rest = s.rest := rfl
@[simp] theorem setReg64_msix (s : State) (p : Page) (off v : Nat) : (s.setReg64 p off v).msix = s.msix := rfl
@[simp] theorem setReg64_cpls (s : State) (p : Page) (off v : Nat) : (s.setReg64 p off v).cpls = s.cpls := rfl
@[simp] theorem setReg64_faultLog (s : State) (p : Page) (off v : Nat) : (s.setReg64 p off v).faultLog = s.faultLog := rfl
@[simp] theorem setReg64_cmdAt (s : State) (p : Page) (off v : Nat) : (s.setReg64 p off v).cmdAt = s.cmdAt := rfl
@[simp] theorem setReg64_imgs (s : State) (p : Page) (off v : Nat) : (s.setReg64 p off v).imgs = s.imgs := rfl
@[simp] theorem setReg64_free (s : State) (p : Page) (off v : Nat) : (s.setReg64 p off v).free = s.free := rfl
@[simp] theorem setReg64_pending (s : State) (p : Page) (off v : Nat) : (s.setReg64 p off v).pending = s.pending := rfl

/-! ### State.count -/

@[simp] theorem count_latch (s : State) (p : Page) (off d : Nat) : (s.count p off d).latch = s.latch := rfl
@[simp] theorem count_stage (s : State) (p : Page) (off d : Nat) : (s.count p off d).stage = s.stage := rfl
@[simp] theorem count_airtime (s : State) (p : Page) (off d : Nat) : (s.count p off d).airtime = s.airtime := rfl
@[simp] theorem count_mem (s : State) (p : Page) (off d : Nat) : (s.count p off d).mem = s.mem := rfl
@[simp] theorem count_hostMem (s : State) (p : Page) (off d : Nat) : (s.count p off d).hostMem = s.hostMem := rfl
@[simp] theorem count_cores (s : State) (p : Page) (off d : Nat) : (s.count p off d).cores = s.cores := rfl
@[simp] theorem count_fab (s : State) (p : Page) (off d : Nat) : (s.count p off d).fab = s.fab := rfl
@[simp] theorem count_tilth (s : State) (p : Page) (off d : Nat) : (s.count p off d).tilth = s.tilth := rfl
@[simp] theorem count_wins (s : State) (p : Page) (off d : Nat) : (s.count p off d).wins = s.wins := rfl
@[simp] theorem count_cfg (s : State) (p : Page) (off d : Nat) : (s.count p off d).cfg = s.cfg := rfl
@[simp] theorem count_ctxs (s : State) (p : Page) (off d : Nat) : (s.count p off d).ctxs = s.ctxs := rfl
@[simp] theorem count_fdcJobs (s : State) (p : Page) (off d : Nat) : (s.count p off d).fdcJobs = s.fdcJobs := rfl
@[simp] theorem count_fdcLast (s : State) (p : Page) (off d : Nat) : (s.count p off d).fdcLast = s.fdcLast := rfl
@[simp] theorem count_dmaLines (s : State) (p : Page) (off d : Nat) : (s.count p off d).dmaLines = s.dmaLines := rfl
@[simp] theorem count_dmaChans (s : State) (p : Page) (off d : Nat) : (s.count p off d).dmaChans = s.dmaChans := rfl
@[simp] theorem count_dmaLast (s : State) (p : Page) (off d : Nat) : (s.count p off d).dmaLast = s.dmaLast := rfl
@[simp] theorem count_rings (s : State) (p : Page) (off d : Nat) : (s.count p off d).rings = s.rings := rfl
@[simp] theorem count_links (s : State) (p : Page) (off d : Nat) : (s.count p off d).links = s.links := rfl
@[simp] theorem count_ward (s : State) (p : Page) (off d : Nat) : (s.count p off d).ward = s.ward := rfl
@[simp] theorem count_pins (s : State) (p : Page) (off d : Nat) : (s.count p off d).pins = s.pins := rfl
@[simp] theorem count_rest (s : State) (p : Page) (off d : Nat) : (s.count p off d).rest = s.rest := rfl
@[simp] theorem count_msix (s : State) (p : Page) (off d : Nat) : (s.count p off d).msix = s.msix := rfl
@[simp] theorem count_cpls (s : State) (p : Page) (off d : Nat) : (s.count p off d).cpls = s.cpls := rfl
@[simp] theorem count_faultLog (s : State) (p : Page) (off d : Nat) : (s.count p off d).faultLog = s.faultLog := rfl
@[simp] theorem count_cmdAt (s : State) (p : Page) (off d : Nat) : (s.count p off d).cmdAt = s.cmdAt := rfl
@[simp] theorem count_imgs (s : State) (p : Page) (off d : Nat) : (s.count p off d).imgs = s.imgs := rfl
@[simp] theorem count_free (s : State) (p : Page) (off d : Nat) : (s.count p off d).free = s.free := rfl
@[simp] theorem count_pending (s : State) (p : Page) (off d : Nat) : (s.count p off d).pending = s.pending := rfl

/-! ### State.setCore -/

@[simp] theorem setCore_regs (s : State) (k : Nat) (c : Core) : (s.setCore k c).regs = s.regs := rfl
@[simp] theorem setCore_latch (s : State) (k : Nat) (c : Core) : (s.setCore k c).latch = s.latch := rfl
@[simp] theorem setCore_stage (s : State) (k : Nat) (c : Core) : (s.setCore k c).stage = s.stage := rfl
@[simp] theorem setCore_airtime (s : State) (k : Nat) (c : Core) : (s.setCore k c).airtime = s.airtime := rfl
@[simp] theorem setCore_mem (s : State) (k : Nat) (c : Core) : (s.setCore k c).mem = s.mem := rfl
@[simp] theorem setCore_hostMem (s : State) (k : Nat) (c : Core) : (s.setCore k c).hostMem = s.hostMem := rfl
@[simp] theorem setCore_fab (s : State) (k : Nat) (c : Core) : (s.setCore k c).fab = s.fab := rfl
@[simp] theorem setCore_tilth (s : State) (k : Nat) (c : Core) : (s.setCore k c).tilth = s.tilth := rfl
@[simp] theorem setCore_wins (s : State) (k : Nat) (c : Core) : (s.setCore k c).wins = s.wins := rfl
@[simp] theorem setCore_cfg (s : State) (k : Nat) (c : Core) : (s.setCore k c).cfg = s.cfg := rfl
@[simp] theorem setCore_ctxs (s : State) (k : Nat) (c : Core) : (s.setCore k c).ctxs = s.ctxs := rfl
@[simp] theorem setCore_fdcJobs (s : State) (k : Nat) (c : Core) : (s.setCore k c).fdcJobs = s.fdcJobs := rfl
@[simp] theorem setCore_fdcLast (s : State) (k : Nat) (c : Core) : (s.setCore k c).fdcLast = s.fdcLast := rfl
@[simp] theorem setCore_dmaLines (s : State) (k : Nat) (c : Core) : (s.setCore k c).dmaLines = s.dmaLines := rfl
@[simp] theorem setCore_dmaChans (s : State) (k : Nat) (c : Core) : (s.setCore k c).dmaChans = s.dmaChans := rfl
@[simp] theorem setCore_dmaLast (s : State) (k : Nat) (c : Core) : (s.setCore k c).dmaLast = s.dmaLast := rfl
@[simp] theorem setCore_rings (s : State) (k : Nat) (c : Core) : (s.setCore k c).rings = s.rings := rfl
@[simp] theorem setCore_links (s : State) (k : Nat) (c : Core) : (s.setCore k c).links = s.links := rfl
@[simp] theorem setCore_ward (s : State) (k : Nat) (c : Core) : (s.setCore k c).ward = s.ward := rfl
@[simp] theorem setCore_pins (s : State) (k : Nat) (c : Core) : (s.setCore k c).pins = s.pins := rfl
@[simp] theorem setCore_rest (s : State) (k : Nat) (c : Core) : (s.setCore k c).rest = s.rest := rfl
@[simp] theorem setCore_msix (s : State) (k : Nat) (c : Core) : (s.setCore k c).msix = s.msix := rfl
@[simp] theorem setCore_cpls (s : State) (k : Nat) (c : Core) : (s.setCore k c).cpls = s.cpls := rfl
@[simp] theorem setCore_faultLog (s : State) (k : Nat) (c : Core) : (s.setCore k c).faultLog = s.faultLog := rfl
@[simp] theorem setCore_cmdAt (s : State) (k : Nat) (c : Core) : (s.setCore k c).cmdAt = s.cmdAt := rfl
@[simp] theorem setCore_imgs (s : State) (k : Nat) (c : Core) : (s.setCore k c).imgs = s.imgs := rfl
@[simp] theorem setCore_free (s : State) (k : Nat) (c : Core) : (s.setCore k c).free = s.free := rfl
@[simp] theorem setCore_pending (s : State) (k : Nat) (c : Core) : (s.setCore k c).pending = s.pending := rfl

/-! ### State.setWin -/

@[simp] theorem setWin_regs (s : State) (f : Nat) (w : FnWin) : (s.setWin f w).regs = s.regs := rfl
@[simp] theorem setWin_latch (s : State) (f : Nat) (w : FnWin) : (s.setWin f w).latch = s.latch := rfl
@[simp] theorem setWin_stage (s : State) (f : Nat) (w : FnWin) : (s.setWin f w).stage = s.stage := rfl
@[simp] theorem setWin_airtime (s : State) (f : Nat) (w : FnWin) : (s.setWin f w).airtime = s.airtime := rfl
@[simp] theorem setWin_mem (s : State) (f : Nat) (w : FnWin) : (s.setWin f w).mem = s.mem := rfl
@[simp] theorem setWin_hostMem (s : State) (f : Nat) (w : FnWin) : (s.setWin f w).hostMem = s.hostMem := rfl
@[simp] theorem setWin_cores (s : State) (f : Nat) (w : FnWin) : (s.setWin f w).cores = s.cores := rfl
@[simp] theorem setWin_fab (s : State) (f : Nat) (w : FnWin) : (s.setWin f w).fab = s.fab := rfl
@[simp] theorem setWin_tilth (s : State) (f : Nat) (w : FnWin) : (s.setWin f w).tilth = s.tilth := rfl
@[simp] theorem setWin_cfg (s : State) (f : Nat) (w : FnWin) : (s.setWin f w).cfg = s.cfg := rfl
@[simp] theorem setWin_ctxs (s : State) (f : Nat) (w : FnWin) : (s.setWin f w).ctxs = s.ctxs := rfl
@[simp] theorem setWin_fdcJobs (s : State) (f : Nat) (w : FnWin) : (s.setWin f w).fdcJobs = s.fdcJobs := rfl
@[simp] theorem setWin_fdcLast (s : State) (f : Nat) (w : FnWin) : (s.setWin f w).fdcLast = s.fdcLast := rfl
@[simp] theorem setWin_dmaLines (s : State) (f : Nat) (w : FnWin) : (s.setWin f w).dmaLines = s.dmaLines := rfl
@[simp] theorem setWin_dmaChans (s : State) (f : Nat) (w : FnWin) : (s.setWin f w).dmaChans = s.dmaChans := rfl
@[simp] theorem setWin_dmaLast (s : State) (f : Nat) (w : FnWin) : (s.setWin f w).dmaLast = s.dmaLast := rfl
@[simp] theorem setWin_rings (s : State) (f : Nat) (w : FnWin) : (s.setWin f w).rings = s.rings := rfl
@[simp] theorem setWin_links (s : State) (f : Nat) (w : FnWin) : (s.setWin f w).links = s.links := rfl
@[simp] theorem setWin_ward (s : State) (f : Nat) (w : FnWin) : (s.setWin f w).ward = s.ward := rfl
@[simp] theorem setWin_pins (s : State) (f : Nat) (w : FnWin) : (s.setWin f w).pins = s.pins := rfl
@[simp] theorem setWin_rest (s : State) (f : Nat) (w : FnWin) : (s.setWin f w).rest = s.rest := rfl
@[simp] theorem setWin_msix (s : State) (f : Nat) (w : FnWin) : (s.setWin f w).msix = s.msix := rfl
@[simp] theorem setWin_cpls (s : State) (f : Nat) (w : FnWin) : (s.setWin f w).cpls = s.cpls := rfl
@[simp] theorem setWin_faultLog (s : State) (f : Nat) (w : FnWin) : (s.setWin f w).faultLog = s.faultLog := rfl
@[simp] theorem setWin_cmdAt (s : State) (f : Nat) (w : FnWin) : (s.setWin f w).cmdAt = s.cmdAt := rfl
@[simp] theorem setWin_imgs (s : State) (f : Nat) (w : FnWin) : (s.setWin f w).imgs = s.imgs := rfl
@[simp] theorem setWin_free (s : State) (f : Nat) (w : FnWin) : (s.setWin f w).free = s.free := rfl
@[simp] theorem setWin_pending (s : State) (f : Nat) (w : FnWin) : (s.setWin f w).pending = s.pending := rfl

/-! ### State.setWard -/

@[simp] theorem setWard_regs (s : State) (w : Ward) : (s.setWard w).regs = s.regs := rfl
@[simp] theorem setWard_latch (s : State) (w : Ward) : (s.setWard w).latch = s.latch := rfl
@[simp] theorem setWard_stage (s : State) (w : Ward) : (s.setWard w).stage = s.stage := rfl
@[simp] theorem setWard_airtime (s : State) (w : Ward) : (s.setWard w).airtime = s.airtime := rfl
@[simp] theorem setWard_mem (s : State) (w : Ward) : (s.setWard w).mem = s.mem := rfl
@[simp] theorem setWard_hostMem (s : State) (w : Ward) : (s.setWard w).hostMem = s.hostMem := rfl
@[simp] theorem setWard_cores (s : State) (w : Ward) : (s.setWard w).cores = s.cores := rfl
@[simp] theorem setWard_fab (s : State) (w : Ward) : (s.setWard w).fab = s.fab := rfl
@[simp] theorem setWard_tilth (s : State) (w : Ward) : (s.setWard w).tilth = s.tilth := rfl
@[simp] theorem setWard_wins (s : State) (w : Ward) : (s.setWard w).wins = s.wins := rfl
@[simp] theorem setWard_cfg (s : State) (w : Ward) : (s.setWard w).cfg = s.cfg := rfl
@[simp] theorem setWard_ctxs (s : State) (w : Ward) : (s.setWard w).ctxs = s.ctxs := rfl
@[simp] theorem setWard_fdcJobs (s : State) (w : Ward) : (s.setWard w).fdcJobs = s.fdcJobs := rfl
@[simp] theorem setWard_fdcLast (s : State) (w : Ward) : (s.setWard w).fdcLast = s.fdcLast := rfl
@[simp] theorem setWard_dmaLines (s : State) (w : Ward) : (s.setWard w).dmaLines = s.dmaLines := rfl
@[simp] theorem setWard_dmaChans (s : State) (w : Ward) : (s.setWard w).dmaChans = s.dmaChans := rfl
@[simp] theorem setWard_dmaLast (s : State) (w : Ward) : (s.setWard w).dmaLast = s.dmaLast := rfl
@[simp] theorem setWard_rings (s : State) (w : Ward) : (s.setWard w).rings = s.rings := rfl
@[simp] theorem setWard_links (s : State) (w : Ward) : (s.setWard w).links = s.links := rfl
@[simp] theorem setWard_pins (s : State) (w : Ward) : (s.setWard w).pins = s.pins := rfl
@[simp] theorem setWard_rest (s : State) (w : Ward) : (s.setWard w).rest = s.rest := rfl
@[simp] theorem setWard_msix (s : State) (w : Ward) : (s.setWard w).msix = s.msix := rfl
@[simp] theorem setWard_cpls (s : State) (w : Ward) : (s.setWard w).cpls = s.cpls := rfl
@[simp] theorem setWard_faultLog (s : State) (w : Ward) : (s.setWard w).faultLog = s.faultLog := rfl
@[simp] theorem setWard_cmdAt (s : State) (w : Ward) : (s.setWard w).cmdAt = s.cmdAt := rfl
@[simp] theorem setWard_imgs (s : State) (w : Ward) : (s.setWard w).imgs = s.imgs := rfl
@[simp] theorem setWard_free (s : State) (w : Ward) : (s.setWard w).free = s.free := rfl
@[simp] theorem setWard_pending (s : State) (w : Ward) : (s.setWard w).pending = s.pending := rfl

/-! ### State.setRings -/

@[simp] theorem setRings_regs (s : State) (r : Rings) : (s.setRings r).regs = s.regs := rfl
@[simp] theorem setRings_latch (s : State) (r : Rings) : (s.setRings r).latch = s.latch := rfl
@[simp] theorem setRings_stage (s : State) (r : Rings) : (s.setRings r).stage = s.stage := rfl
@[simp] theorem setRings_airtime (s : State) (r : Rings) : (s.setRings r).airtime = s.airtime := rfl
@[simp] theorem setRings_mem (s : State) (r : Rings) : (s.setRings r).mem = s.mem := rfl
@[simp] theorem setRings_hostMem (s : State) (r : Rings) : (s.setRings r).hostMem = s.hostMem := rfl
@[simp] theorem setRings_cores (s : State) (r : Rings) : (s.setRings r).cores = s.cores := rfl
@[simp] theorem setRings_fab (s : State) (r : Rings) : (s.setRings r).fab = s.fab := rfl
@[simp] theorem setRings_tilth (s : State) (r : Rings) : (s.setRings r).tilth = s.tilth := rfl
@[simp] theorem setRings_wins (s : State) (r : Rings) : (s.setRings r).wins = s.wins := rfl
@[simp] theorem setRings_cfg (s : State) (r : Rings) : (s.setRings r).cfg = s.cfg := rfl
@[simp] theorem setRings_ctxs (s : State) (r : Rings) : (s.setRings r).ctxs = s.ctxs := rfl
@[simp] theorem setRings_fdcJobs (s : State) (r : Rings) : (s.setRings r).fdcJobs = s.fdcJobs := rfl
@[simp] theorem setRings_fdcLast (s : State) (r : Rings) : (s.setRings r).fdcLast = s.fdcLast := rfl
@[simp] theorem setRings_dmaLines (s : State) (r : Rings) : (s.setRings r).dmaLines = s.dmaLines := rfl
@[simp] theorem setRings_dmaChans (s : State) (r : Rings) : (s.setRings r).dmaChans = s.dmaChans := rfl
@[simp] theorem setRings_dmaLast (s : State) (r : Rings) : (s.setRings r).dmaLast = s.dmaLast := rfl
@[simp] theorem setRings_links (s : State) (r : Rings) : (s.setRings r).links = s.links := rfl
@[simp] theorem setRings_ward (s : State) (r : Rings) : (s.setRings r).ward = s.ward := rfl
@[simp] theorem setRings_pins (s : State) (r : Rings) : (s.setRings r).pins = s.pins := rfl
@[simp] theorem setRings_rest (s : State) (r : Rings) : (s.setRings r).rest = s.rest := rfl
@[simp] theorem setRings_msix (s : State) (r : Rings) : (s.setRings r).msix = s.msix := rfl
@[simp] theorem setRings_cpls (s : State) (r : Rings) : (s.setRings r).cpls = s.cpls := rfl
@[simp] theorem setRings_faultLog (s : State) (r : Rings) : (s.setRings r).faultLog = s.faultLog := rfl
@[simp] theorem setRings_cmdAt (s : State) (r : Rings) : (s.setRings r).cmdAt = s.cmdAt := rfl
@[simp] theorem setRings_imgs (s : State) (r : Rings) : (s.setRings r).imgs = s.imgs := rfl
@[simp] theorem setRings_free (s : State) (r : Rings) : (s.setRings r).free = s.free := rfl
@[simp] theorem setRings_pending (s : State) (r : Rings) : (s.setRings r).pending = s.pending := rfl

/-! ### State.setQcb -/

@[simp] theorem setQcb_regs (s : State) (q : Nat) (c : Qcb) : (s.setQcb q c).regs = s.regs := rfl
@[simp] theorem setQcb_latch (s : State) (q : Nat) (c : Qcb) : (s.setQcb q c).latch = s.latch := rfl
@[simp] theorem setQcb_stage (s : State) (q : Nat) (c : Qcb) : (s.setQcb q c).stage = s.stage := rfl
@[simp] theorem setQcb_airtime (s : State) (q : Nat) (c : Qcb) : (s.setQcb q c).airtime = s.airtime := rfl
@[simp] theorem setQcb_mem (s : State) (q : Nat) (c : Qcb) : (s.setQcb q c).mem = s.mem := rfl
@[simp] theorem setQcb_hostMem (s : State) (q : Nat) (c : Qcb) : (s.setQcb q c).hostMem = s.hostMem := rfl
@[simp] theorem setQcb_cores (s : State) (q : Nat) (c : Qcb) : (s.setQcb q c).cores = s.cores := rfl
@[simp] theorem setQcb_tilth (s : State) (q : Nat) (c : Qcb) : (s.setQcb q c).tilth = s.tilth := rfl
@[simp] theorem setQcb_wins (s : State) (q : Nat) (c : Qcb) : (s.setQcb q c).wins = s.wins := rfl
@[simp] theorem setQcb_cfg (s : State) (q : Nat) (c : Qcb) : (s.setQcb q c).cfg = s.cfg := rfl
@[simp] theorem setQcb_ctxs (s : State) (q : Nat) (c : Qcb) : (s.setQcb q c).ctxs = s.ctxs := rfl
@[simp] theorem setQcb_fdcJobs (s : State) (q : Nat) (c : Qcb) : (s.setQcb q c).fdcJobs = s.fdcJobs := rfl
@[simp] theorem setQcb_fdcLast (s : State) (q : Nat) (c : Qcb) : (s.setQcb q c).fdcLast = s.fdcLast := rfl
@[simp] theorem setQcb_dmaLines (s : State) (q : Nat) (c : Qcb) : (s.setQcb q c).dmaLines = s.dmaLines := rfl
@[simp] theorem setQcb_dmaChans (s : State) (q : Nat) (c : Qcb) : (s.setQcb q c).dmaChans = s.dmaChans := rfl
@[simp] theorem setQcb_dmaLast (s : State) (q : Nat) (c : Qcb) : (s.setQcb q c).dmaLast = s.dmaLast := rfl
@[simp] theorem setQcb_rings (s : State) (q : Nat) (c : Qcb) : (s.setQcb q c).rings = s.rings := rfl
@[simp] theorem setQcb_links (s : State) (q : Nat) (c : Qcb) : (s.setQcb q c).links = s.links := rfl
@[simp] theorem setQcb_ward (s : State) (q : Nat) (c : Qcb) : (s.setQcb q c).ward = s.ward := rfl
@[simp] theorem setQcb_pins (s : State) (q : Nat) (c : Qcb) : (s.setQcb q c).pins = s.pins := rfl
@[simp] theorem setQcb_rest (s : State) (q : Nat) (c : Qcb) : (s.setQcb q c).rest = s.rest := rfl
@[simp] theorem setQcb_msix (s : State) (q : Nat) (c : Qcb) : (s.setQcb q c).msix = s.msix := rfl
@[simp] theorem setQcb_cpls (s : State) (q : Nat) (c : Qcb) : (s.setQcb q c).cpls = s.cpls := rfl
@[simp] theorem setQcb_faultLog (s : State) (q : Nat) (c : Qcb) : (s.setQcb q c).faultLog = s.faultLog := rfl
@[simp] theorem setQcb_cmdAt (s : State) (q : Nat) (c : Qcb) : (s.setQcb q c).cmdAt = s.cmdAt := rfl
@[simp] theorem setQcb_imgs (s : State) (q : Nat) (c : Qcb) : (s.setQcb q c).imgs = s.imgs := rfl
@[simp] theorem setQcb_free (s : State) (q : Nat) (c : Qcb) : (s.setQcb q c).free = s.free := rfl
@[simp] theorem setQcb_pending (s : State) (q : Nat) (c : Qcb) : (s.setQcb q c).pending = s.pending := rfl

/-! ### State.setWindow -/

@[simp] theorem setWindow_regs (s : State) (cls i : Nat) (w : List Nat) : (s.setWindow cls i w).regs = s.regs := rfl
@[simp] theorem setWindow_latch (s : State) (cls i : Nat) (w : List Nat) : (s.setWindow cls i w).latch = s.latch := rfl
@[simp] theorem setWindow_stage (s : State) (cls i : Nat) (w : List Nat) : (s.setWindow cls i w).stage = s.stage := rfl
@[simp] theorem setWindow_airtime (s : State) (cls i : Nat) (w : List Nat) : (s.setWindow cls i w).airtime = s.airtime := rfl
@[simp] theorem setWindow_mem (s : State) (cls i : Nat) (w : List Nat) : (s.setWindow cls i w).mem = s.mem := rfl
@[simp] theorem setWindow_hostMem (s : State) (cls i : Nat) (w : List Nat) : (s.setWindow cls i w).hostMem = s.hostMem := rfl
@[simp] theorem setWindow_cores (s : State) (cls i : Nat) (w : List Nat) : (s.setWindow cls i w).cores = s.cores := rfl
@[simp] theorem setWindow_fab (s : State) (cls i : Nat) (w : List Nat) : (s.setWindow cls i w).fab = s.fab := rfl
@[simp] theorem setWindow_wins (s : State) (cls i : Nat) (w : List Nat) : (s.setWindow cls i w).wins = s.wins := rfl
@[simp] theorem setWindow_cfg (s : State) (cls i : Nat) (w : List Nat) : (s.setWindow cls i w).cfg = s.cfg := rfl
@[simp] theorem setWindow_ctxs (s : State) (cls i : Nat) (w : List Nat) : (s.setWindow cls i w).ctxs = s.ctxs := rfl
@[simp] theorem setWindow_fdcJobs (s : State) (cls i : Nat) (w : List Nat) : (s.setWindow cls i w).fdcJobs = s.fdcJobs := rfl
@[simp] theorem setWindow_fdcLast (s : State) (cls i : Nat) (w : List Nat) : (s.setWindow cls i w).fdcLast = s.fdcLast := rfl
@[simp] theorem setWindow_dmaLines (s : State) (cls i : Nat) (w : List Nat) : (s.setWindow cls i w).dmaLines = s.dmaLines := rfl
@[simp] theorem setWindow_dmaChans (s : State) (cls i : Nat) (w : List Nat) : (s.setWindow cls i w).dmaChans = s.dmaChans := rfl
@[simp] theorem setWindow_dmaLast (s : State) (cls i : Nat) (w : List Nat) : (s.setWindow cls i w).dmaLast = s.dmaLast := rfl
@[simp] theorem setWindow_rings (s : State) (cls i : Nat) (w : List Nat) : (s.setWindow cls i w).rings = s.rings := rfl
@[simp] theorem setWindow_links (s : State) (cls i : Nat) (w : List Nat) : (s.setWindow cls i w).links = s.links := rfl
@[simp] theorem setWindow_ward (s : State) (cls i : Nat) (w : List Nat) : (s.setWindow cls i w).ward = s.ward := rfl
@[simp] theorem setWindow_pins (s : State) (cls i : Nat) (w : List Nat) : (s.setWindow cls i w).pins = s.pins := rfl
@[simp] theorem setWindow_rest (s : State) (cls i : Nat) (w : List Nat) : (s.setWindow cls i w).rest = s.rest := rfl
@[simp] theorem setWindow_msix (s : State) (cls i : Nat) (w : List Nat) : (s.setWindow cls i w).msix = s.msix := rfl
@[simp] theorem setWindow_cpls (s : State) (cls i : Nat) (w : List Nat) : (s.setWindow cls i w).cpls = s.cpls := rfl
@[simp] theorem setWindow_faultLog (s : State) (cls i : Nat) (w : List Nat) : (s.setWindow cls i w).faultLog = s.faultLog := rfl
@[simp] theorem setWindow_cmdAt (s : State) (cls i : Nat) (w : List Nat) : (s.setWindow cls i w).cmdAt = s.cmdAt := rfl
@[simp] theorem setWindow_imgs (s : State) (cls i : Nat) (w : List Nat) : (s.setWindow cls i w).imgs = s.imgs := rfl
@[simp] theorem setWindow_free (s : State) (cls i : Nat) (w : List Nat) : (s.setWindow cls i w).free = s.free := rfl
@[simp] theorem setWindow_pending (s : State) (cls i : Nat) (w : List Nat) : (s.setWindow cls i w).pending = s.pending := rfl

/-! ### State.setDmaChan -/

@[simp] theorem setDmaChan_regs (s : State) (ch : Nat) (c : DmaChan) : (s.setDmaChan ch c).regs = s.regs := rfl
@[simp] theorem setDmaChan_latch (s : State) (ch : Nat) (c : DmaChan) : (s.setDmaChan ch c).latch = s.latch := rfl
@[simp] theorem setDmaChan_stage (s : State) (ch : Nat) (c : DmaChan) : (s.setDmaChan ch c).stage = s.stage := rfl
@[simp] theorem setDmaChan_airtime (s : State) (ch : Nat) (c : DmaChan) : (s.setDmaChan ch c).airtime = s.airtime := rfl
@[simp] theorem setDmaChan_mem (s : State) (ch : Nat) (c : DmaChan) : (s.setDmaChan ch c).mem = s.mem := rfl
@[simp] theorem setDmaChan_hostMem (s : State) (ch : Nat) (c : DmaChan) : (s.setDmaChan ch c).hostMem = s.hostMem := rfl
@[simp] theorem setDmaChan_cores (s : State) (ch : Nat) (c : DmaChan) : (s.setDmaChan ch c).cores = s.cores := rfl
@[simp] theorem setDmaChan_fab (s : State) (ch : Nat) (c : DmaChan) : (s.setDmaChan ch c).fab = s.fab := rfl
@[simp] theorem setDmaChan_tilth (s : State) (ch : Nat) (c : DmaChan) : (s.setDmaChan ch c).tilth = s.tilth := rfl
@[simp] theorem setDmaChan_wins (s : State) (ch : Nat) (c : DmaChan) : (s.setDmaChan ch c).wins = s.wins := rfl
@[simp] theorem setDmaChan_cfg (s : State) (ch : Nat) (c : DmaChan) : (s.setDmaChan ch c).cfg = s.cfg := rfl
@[simp] theorem setDmaChan_ctxs (s : State) (ch : Nat) (c : DmaChan) : (s.setDmaChan ch c).ctxs = s.ctxs := rfl
@[simp] theorem setDmaChan_fdcJobs (s : State) (ch : Nat) (c : DmaChan) : (s.setDmaChan ch c).fdcJobs = s.fdcJobs := rfl
@[simp] theorem setDmaChan_fdcLast (s : State) (ch : Nat) (c : DmaChan) : (s.setDmaChan ch c).fdcLast = s.fdcLast := rfl
@[simp] theorem setDmaChan_dmaLines (s : State) (ch : Nat) (c : DmaChan) : (s.setDmaChan ch c).dmaLines = s.dmaLines := rfl
@[simp] theorem setDmaChan_dmaLast (s : State) (ch : Nat) (c : DmaChan) : (s.setDmaChan ch c).dmaLast = s.dmaLast := rfl
@[simp] theorem setDmaChan_rings (s : State) (ch : Nat) (c : DmaChan) : (s.setDmaChan ch c).rings = s.rings := rfl
@[simp] theorem setDmaChan_links (s : State) (ch : Nat) (c : DmaChan) : (s.setDmaChan ch c).links = s.links := rfl
@[simp] theorem setDmaChan_ward (s : State) (ch : Nat) (c : DmaChan) : (s.setDmaChan ch c).ward = s.ward := rfl
@[simp] theorem setDmaChan_pins (s : State) (ch : Nat) (c : DmaChan) : (s.setDmaChan ch c).pins = s.pins := rfl
@[simp] theorem setDmaChan_rest (s : State) (ch : Nat) (c : DmaChan) : (s.setDmaChan ch c).rest = s.rest := rfl
@[simp] theorem setDmaChan_msix (s : State) (ch : Nat) (c : DmaChan) : (s.setDmaChan ch c).msix = s.msix := rfl
@[simp] theorem setDmaChan_cpls (s : State) (ch : Nat) (c : DmaChan) : (s.setDmaChan ch c).cpls = s.cpls := rfl
@[simp] theorem setDmaChan_faultLog (s : State) (ch : Nat) (c : DmaChan) : (s.setDmaChan ch c).faultLog = s.faultLog := rfl
@[simp] theorem setDmaChan_cmdAt (s : State) (ch : Nat) (c : DmaChan) : (s.setDmaChan ch c).cmdAt = s.cmdAt := rfl
@[simp] theorem setDmaChan_imgs (s : State) (ch : Nat) (c : DmaChan) : (s.setDmaChan ch c).imgs = s.imgs := rfl
@[simp] theorem setDmaChan_free (s : State) (ch : Nat) (c : DmaChan) : (s.setDmaChan ch c).free = s.free := rfl
@[simp] theorem setDmaChan_pending (s : State) (ch : Nat) (c : DmaChan) : (s.setDmaChan ch c).pending = s.pending := rfl

/-! ### State.setLine -/

@[simp] theorem setLine_regs (s : State) (line : Nat) (rs : List DmaReq) : (s.setLine line rs).regs = s.regs := rfl
@[simp] theorem setLine_latch (s : State) (line : Nat) (rs : List DmaReq) : (s.setLine line rs).latch = s.latch := rfl
@[simp] theorem setLine_stage (s : State) (line : Nat) (rs : List DmaReq) : (s.setLine line rs).stage = s.stage := rfl
@[simp] theorem setLine_airtime (s : State) (line : Nat) (rs : List DmaReq) : (s.setLine line rs).airtime = s.airtime := rfl
@[simp] theorem setLine_mem (s : State) (line : Nat) (rs : List DmaReq) : (s.setLine line rs).mem = s.mem := rfl
@[simp] theorem setLine_hostMem (s : State) (line : Nat) (rs : List DmaReq) : (s.setLine line rs).hostMem = s.hostMem := rfl
@[simp] theorem setLine_cores (s : State) (line : Nat) (rs : List DmaReq) : (s.setLine line rs).cores = s.cores := rfl
@[simp] theorem setLine_fab (s : State) (line : Nat) (rs : List DmaReq) : (s.setLine line rs).fab = s.fab := rfl
@[simp] theorem setLine_tilth (s : State) (line : Nat) (rs : List DmaReq) : (s.setLine line rs).tilth = s.tilth := rfl
@[simp] theorem setLine_wins (s : State) (line : Nat) (rs : List DmaReq) : (s.setLine line rs).wins = s.wins := rfl
@[simp] theorem setLine_cfg (s : State) (line : Nat) (rs : List DmaReq) : (s.setLine line rs).cfg = s.cfg := rfl
@[simp] theorem setLine_ctxs (s : State) (line : Nat) (rs : List DmaReq) : (s.setLine line rs).ctxs = s.ctxs := rfl
@[simp] theorem setLine_fdcJobs (s : State) (line : Nat) (rs : List DmaReq) : (s.setLine line rs).fdcJobs = s.fdcJobs := rfl
@[simp] theorem setLine_fdcLast (s : State) (line : Nat) (rs : List DmaReq) : (s.setLine line rs).fdcLast = s.fdcLast := rfl
@[simp] theorem setLine_dmaChans (s : State) (line : Nat) (rs : List DmaReq) : (s.setLine line rs).dmaChans = s.dmaChans := rfl
@[simp] theorem setLine_dmaLast (s : State) (line : Nat) (rs : List DmaReq) : (s.setLine line rs).dmaLast = s.dmaLast := rfl
@[simp] theorem setLine_rings (s : State) (line : Nat) (rs : List DmaReq) : (s.setLine line rs).rings = s.rings := rfl
@[simp] theorem setLine_links (s : State) (line : Nat) (rs : List DmaReq) : (s.setLine line rs).links = s.links := rfl
@[simp] theorem setLine_ward (s : State) (line : Nat) (rs : List DmaReq) : (s.setLine line rs).ward = s.ward := rfl
@[simp] theorem setLine_pins (s : State) (line : Nat) (rs : List DmaReq) : (s.setLine line rs).pins = s.pins := rfl
@[simp] theorem setLine_rest (s : State) (line : Nat) (rs : List DmaReq) : (s.setLine line rs).rest = s.rest := rfl
@[simp] theorem setLine_msix (s : State) (line : Nat) (rs : List DmaReq) : (s.setLine line rs).msix = s.msix := rfl
@[simp] theorem setLine_cpls (s : State) (line : Nat) (rs : List DmaReq) : (s.setLine line rs).cpls = s.cpls := rfl
@[simp] theorem setLine_faultLog (s : State) (line : Nat) (rs : List DmaReq) : (s.setLine line rs).faultLog = s.faultLog := rfl
@[simp] theorem setLine_cmdAt (s : State) (line : Nat) (rs : List DmaReq) : (s.setLine line rs).cmdAt = s.cmdAt := rfl
@[simp] theorem setLine_imgs (s : State) (line : Nat) (rs : List DmaReq) : (s.setLine line rs).imgs = s.imgs := rfl
@[simp] theorem setLine_free (s : State) (line : Nat) (rs : List DmaReq) : (s.setLine line rs).free = s.free := rfl
@[simp] theorem setLine_pending (s : State) (line : Nat) (rs : List DmaReq) : (s.setLine line rs).pending = s.pending := rfl

/-! ### State.setRv -/

@[simp] theorem setRv_regs (s : State) (n : Nat) (x : RvSt) : (s.setRv n x).regs = s.regs := rfl
@[simp] theorem setRv_latch (s : State) (n : Nat) (x : RvSt) : (s.setRv n x).latch = s.latch := rfl
@[simp] theorem setRv_stage (s : State) (n : Nat) (x : RvSt) : (s.setRv n x).stage = s.stage := rfl
@[simp] theorem setRv_airtime (s : State) (n : Nat) (x : RvSt) : (s.setRv n x).airtime = s.airtime := rfl
@[simp] theorem setRv_mem (s : State) (n : Nat) (x : RvSt) : (s.setRv n x).mem = s.mem := rfl
@[simp] theorem setRv_hostMem (s : State) (n : Nat) (x : RvSt) : (s.setRv n x).hostMem = s.hostMem := rfl
@[simp] theorem setRv_cores (s : State) (n : Nat) (x : RvSt) : (s.setRv n x).cores = s.cores := rfl
@[simp] theorem setRv_fab (s : State) (n : Nat) (x : RvSt) : (s.setRv n x).fab = s.fab := rfl
@[simp] theorem setRv_tilth (s : State) (n : Nat) (x : RvSt) : (s.setRv n x).tilth = s.tilth := rfl
@[simp] theorem setRv_wins (s : State) (n : Nat) (x : RvSt) : (s.setRv n x).wins = s.wins := rfl
@[simp] theorem setRv_cfg (s : State) (n : Nat) (x : RvSt) : (s.setRv n x).cfg = s.cfg := rfl
@[simp] theorem setRv_ctxs (s : State) (n : Nat) (x : RvSt) : (s.setRv n x).ctxs = s.ctxs := rfl
@[simp] theorem setRv_fdcJobs (s : State) (n : Nat) (x : RvSt) : (s.setRv n x).fdcJobs = s.fdcJobs := rfl
@[simp] theorem setRv_fdcLast (s : State) (n : Nat) (x : RvSt) : (s.setRv n x).fdcLast = s.fdcLast := rfl
@[simp] theorem setRv_dmaLines (s : State) (n : Nat) (x : RvSt) : (s.setRv n x).dmaLines = s.dmaLines := rfl
@[simp] theorem setRv_dmaChans (s : State) (n : Nat) (x : RvSt) : (s.setRv n x).dmaChans = s.dmaChans := rfl
@[simp] theorem setRv_dmaLast (s : State) (n : Nat) (x : RvSt) : (s.setRv n x).dmaLast = s.dmaLast := rfl
@[simp] theorem setRv_rings (s : State) (n : Nat) (x : RvSt) : (s.setRv n x).rings = s.rings := rfl
@[simp] theorem setRv_ward (s : State) (n : Nat) (x : RvSt) : (s.setRv n x).ward = s.ward := rfl
@[simp] theorem setRv_pins (s : State) (n : Nat) (x : RvSt) : (s.setRv n x).pins = s.pins := rfl
@[simp] theorem setRv_rest (s : State) (n : Nat) (x : RvSt) : (s.setRv n x).rest = s.rest := rfl
@[simp] theorem setRv_msix (s : State) (n : Nat) (x : RvSt) : (s.setRv n x).msix = s.msix := rfl
@[simp] theorem setRv_cpls (s : State) (n : Nat) (x : RvSt) : (s.setRv n x).cpls = s.cpls := rfl
@[simp] theorem setRv_faultLog (s : State) (n : Nat) (x : RvSt) : (s.setRv n x).faultLog = s.faultLog := rfl
@[simp] theorem setRv_cmdAt (s : State) (n : Nat) (x : RvSt) : (s.setRv n x).cmdAt = s.cmdAt := rfl
@[simp] theorem setRv_imgs (s : State) (n : Nat) (x : RvSt) : (s.setRv n x).imgs = s.imgs := rfl
@[simp] theorem setRv_free (s : State) (n : Nat) (x : RvSt) : (s.setRv n x).free = s.free := rfl
@[simp] theorem setRv_pending (s : State) (n : Nat) (x : RvSt) : (s.setRv n x).pending = s.pending := rfl

/-! ### State.setTime -/

@[simp] theorem setTime_regs (s : State) (x : TimeSt) : (s.setTime x).regs = s.regs := rfl
@[simp] theorem setTime_latch (s : State) (x : TimeSt) : (s.setTime x).latch = s.latch := rfl
@[simp] theorem setTime_stage (s : State) (x : TimeSt) : (s.setTime x).stage = s.stage := rfl
@[simp] theorem setTime_airtime (s : State) (x : TimeSt) : (s.setTime x).airtime = s.airtime := rfl
@[simp] theorem setTime_mem (s : State) (x : TimeSt) : (s.setTime x).mem = s.mem := rfl
@[simp] theorem setTime_hostMem (s : State) (x : TimeSt) : (s.setTime x).hostMem = s.hostMem := rfl
@[simp] theorem setTime_cores (s : State) (x : TimeSt) : (s.setTime x).cores = s.cores := rfl
@[simp] theorem setTime_fab (s : State) (x : TimeSt) : (s.setTime x).fab = s.fab := rfl
@[simp] theorem setTime_tilth (s : State) (x : TimeSt) : (s.setTime x).tilth = s.tilth := rfl
@[simp] theorem setTime_wins (s : State) (x : TimeSt) : (s.setTime x).wins = s.wins := rfl
@[simp] theorem setTime_cfg (s : State) (x : TimeSt) : (s.setTime x).cfg = s.cfg := rfl
@[simp] theorem setTime_ctxs (s : State) (x : TimeSt) : (s.setTime x).ctxs = s.ctxs := rfl
@[simp] theorem setTime_fdcJobs (s : State) (x : TimeSt) : (s.setTime x).fdcJobs = s.fdcJobs := rfl
@[simp] theorem setTime_fdcLast (s : State) (x : TimeSt) : (s.setTime x).fdcLast = s.fdcLast := rfl
@[simp] theorem setTime_dmaLines (s : State) (x : TimeSt) : (s.setTime x).dmaLines = s.dmaLines := rfl
@[simp] theorem setTime_dmaChans (s : State) (x : TimeSt) : (s.setTime x).dmaChans = s.dmaChans := rfl
@[simp] theorem setTime_dmaLast (s : State) (x : TimeSt) : (s.setTime x).dmaLast = s.dmaLast := rfl
@[simp] theorem setTime_rings (s : State) (x : TimeSt) : (s.setTime x).rings = s.rings := rfl
@[simp] theorem setTime_ward (s : State) (x : TimeSt) : (s.setTime x).ward = s.ward := rfl
@[simp] theorem setTime_pins (s : State) (x : TimeSt) : (s.setTime x).pins = s.pins := rfl
@[simp] theorem setTime_rest (s : State) (x : TimeSt) : (s.setTime x).rest = s.rest := rfl
@[simp] theorem setTime_msix (s : State) (x : TimeSt) : (s.setTime x).msix = s.msix := rfl
@[simp] theorem setTime_cpls (s : State) (x : TimeSt) : (s.setTime x).cpls = s.cpls := rfl
@[simp] theorem setTime_faultLog (s : State) (x : TimeSt) : (s.setTime x).faultLog = s.faultLog := rfl
@[simp] theorem setTime_cmdAt (s : State) (x : TimeSt) : (s.setTime x).cmdAt = s.cmdAt := rfl
@[simp] theorem setTime_imgs (s : State) (x : TimeSt) : (s.setTime x).imgs = s.imgs := rfl
@[simp] theorem setTime_free (s : State) (x : TimeSt) : (s.setTime x).free = s.free := rfl
@[simp] theorem setTime_pending (s : State) (x : TimeSt) : (s.setTime x).pending = s.pending := rfl

/-! ### State.setMac -/

@[simp] theorem setMac_regs (s : State) (p : Nat) (x : MacSt) : (s.setMac p x).regs = s.regs := rfl
@[simp] theorem setMac_latch (s : State) (p : Nat) (x : MacSt) : (s.setMac p x).latch = s.latch := rfl
@[simp] theorem setMac_stage (s : State) (p : Nat) (x : MacSt) : (s.setMac p x).stage = s.stage := rfl
@[simp] theorem setMac_airtime (s : State) (p : Nat) (x : MacSt) : (s.setMac p x).airtime = s.airtime := rfl
@[simp] theorem setMac_mem (s : State) (p : Nat) (x : MacSt) : (s.setMac p x).mem = s.mem := rfl
@[simp] theorem setMac_hostMem (s : State) (p : Nat) (x : MacSt) : (s.setMac p x).hostMem = s.hostMem := rfl
@[simp] theorem setMac_cores (s : State) (p : Nat) (x : MacSt) : (s.setMac p x).cores = s.cores := rfl
@[simp] theorem setMac_fab (s : State) (p : Nat) (x : MacSt) : (s.setMac p x).fab = s.fab := rfl
@[simp] theorem setMac_tilth (s : State) (p : Nat) (x : MacSt) : (s.setMac p x).tilth = s.tilth := rfl
@[simp] theorem setMac_wins (s : State) (p : Nat) (x : MacSt) : (s.setMac p x).wins = s.wins := rfl
@[simp] theorem setMac_cfg (s : State) (p : Nat) (x : MacSt) : (s.setMac p x).cfg = s.cfg := rfl
@[simp] theorem setMac_ctxs (s : State) (p : Nat) (x : MacSt) : (s.setMac p x).ctxs = s.ctxs := rfl
@[simp] theorem setMac_fdcJobs (s : State) (p : Nat) (x : MacSt) : (s.setMac p x).fdcJobs = s.fdcJobs := rfl
@[simp] theorem setMac_fdcLast (s : State) (p : Nat) (x : MacSt) : (s.setMac p x).fdcLast = s.fdcLast := rfl
@[simp] theorem setMac_dmaLines (s : State) (p : Nat) (x : MacSt) : (s.setMac p x).dmaLines = s.dmaLines := rfl
@[simp] theorem setMac_dmaChans (s : State) (p : Nat) (x : MacSt) : (s.setMac p x).dmaChans = s.dmaChans := rfl
@[simp] theorem setMac_dmaLast (s : State) (p : Nat) (x : MacSt) : (s.setMac p x).dmaLast = s.dmaLast := rfl
@[simp] theorem setMac_rings (s : State) (p : Nat) (x : MacSt) : (s.setMac p x).rings = s.rings := rfl
@[simp] theorem setMac_ward (s : State) (p : Nat) (x : MacSt) : (s.setMac p x).ward = s.ward := rfl
@[simp] theorem setMac_pins (s : State) (p : Nat) (x : MacSt) : (s.setMac p x).pins = s.pins := rfl
@[simp] theorem setMac_rest (s : State) (p : Nat) (x : MacSt) : (s.setMac p x).rest = s.rest := rfl
@[simp] theorem setMac_msix (s : State) (p : Nat) (x : MacSt) : (s.setMac p x).msix = s.msix := rfl
@[simp] theorem setMac_cpls (s : State) (p : Nat) (x : MacSt) : (s.setMac p x).cpls = s.cpls := rfl
@[simp] theorem setMac_faultLog (s : State) (p : Nat) (x : MacSt) : (s.setMac p x).faultLog = s.faultLog := rfl
@[simp] theorem setMac_cmdAt (s : State) (p : Nat) (x : MacSt) : (s.setMac p x).cmdAt = s.cmdAt := rfl
@[simp] theorem setMac_imgs (s : State) (p : Nat) (x : MacSt) : (s.setMac p x).imgs = s.imgs := rfl
@[simp] theorem setMac_free (s : State) (p : Nat) (x : MacSt) : (s.setMac p x).free = s.free := rfl
@[simp] theorem setMac_pending (s : State) (p : Nat) (x : MacSt) : (s.setMac p x).pending = s.pending := rfl

/-! ### State.setFramer -/

@[simp] theorem setFramer_regs (s : State) (f : Nat) (x : FramerSt) : (s.setFramer f x).regs = s.regs := rfl
@[simp] theorem setFramer_latch (s : State) (f : Nat) (x : FramerSt) : (s.setFramer f x).latch = s.latch := rfl
@[simp] theorem setFramer_stage (s : State) (f : Nat) (x : FramerSt) : (s.setFramer f x).stage = s.stage := rfl
@[simp] theorem setFramer_airtime (s : State) (f : Nat) (x : FramerSt) : (s.setFramer f x).airtime = s.airtime := rfl
@[simp] theorem setFramer_mem (s : State) (f : Nat) (x : FramerSt) : (s.setFramer f x).mem = s.mem := rfl
@[simp] theorem setFramer_hostMem (s : State) (f : Nat) (x : FramerSt) : (s.setFramer f x).hostMem = s.hostMem := rfl
@[simp] theorem setFramer_cores (s : State) (f : Nat) (x : FramerSt) : (s.setFramer f x).cores = s.cores := rfl
@[simp] theorem setFramer_fab (s : State) (f : Nat) (x : FramerSt) : (s.setFramer f x).fab = s.fab := rfl
@[simp] theorem setFramer_tilth (s : State) (f : Nat) (x : FramerSt) : (s.setFramer f x).tilth = s.tilth := rfl
@[simp] theorem setFramer_wins (s : State) (f : Nat) (x : FramerSt) : (s.setFramer f x).wins = s.wins := rfl
@[simp] theorem setFramer_cfg (s : State) (f : Nat) (x : FramerSt) : (s.setFramer f x).cfg = s.cfg := rfl
@[simp] theorem setFramer_ctxs (s : State) (f : Nat) (x : FramerSt) : (s.setFramer f x).ctxs = s.ctxs := rfl
@[simp] theorem setFramer_fdcJobs (s : State) (f : Nat) (x : FramerSt) : (s.setFramer f x).fdcJobs = s.fdcJobs := rfl
@[simp] theorem setFramer_fdcLast (s : State) (f : Nat) (x : FramerSt) : (s.setFramer f x).fdcLast = s.fdcLast := rfl
@[simp] theorem setFramer_dmaLines (s : State) (f : Nat) (x : FramerSt) : (s.setFramer f x).dmaLines = s.dmaLines := rfl
@[simp] theorem setFramer_dmaChans (s : State) (f : Nat) (x : FramerSt) : (s.setFramer f x).dmaChans = s.dmaChans := rfl
@[simp] theorem setFramer_dmaLast (s : State) (f : Nat) (x : FramerSt) : (s.setFramer f x).dmaLast = s.dmaLast := rfl
@[simp] theorem setFramer_rings (s : State) (f : Nat) (x : FramerSt) : (s.setFramer f x).rings = s.rings := rfl
@[simp] theorem setFramer_ward (s : State) (f : Nat) (x : FramerSt) : (s.setFramer f x).ward = s.ward := rfl
@[simp] theorem setFramer_pins (s : State) (f : Nat) (x : FramerSt) : (s.setFramer f x).pins = s.pins := rfl
@[simp] theorem setFramer_rest (s : State) (f : Nat) (x : FramerSt) : (s.setFramer f x).rest = s.rest := rfl
@[simp] theorem setFramer_msix (s : State) (f : Nat) (x : FramerSt) : (s.setFramer f x).msix = s.msix := rfl
@[simp] theorem setFramer_cpls (s : State) (f : Nat) (x : FramerSt) : (s.setFramer f x).cpls = s.cpls := rfl
@[simp] theorem setFramer_faultLog (s : State) (f : Nat) (x : FramerSt) : (s.setFramer f x).faultLog = s.faultLog := rfl
@[simp] theorem setFramer_cmdAt (s : State) (f : Nat) (x : FramerSt) : (s.setFramer f x).cmdAt = s.cmdAt := rfl
@[simp] theorem setFramer_imgs (s : State) (f : Nat) (x : FramerSt) : (s.setFramer f x).imgs = s.imgs := rfl
@[simp] theorem setFramer_free (s : State) (f : Nat) (x : FramerSt) : (s.setFramer f x).free = s.free := rfl
@[simp] theorem setFramer_pending (s : State) (f : Nat) (x : FramerSt) : (s.setFramer f x).pending = s.pending := rfl

/-! ### State.setLane -/

@[simp] theorem setLane_regs (s : State) (l : Nat) (x : LaneSt) : (s.setLane l x).regs = s.regs := rfl
@[simp] theorem setLane_latch (s : State) (l : Nat) (x : LaneSt) : (s.setLane l x).latch = s.latch := rfl
@[simp] theorem setLane_stage (s : State) (l : Nat) (x : LaneSt) : (s.setLane l x).stage = s.stage := rfl
@[simp] theorem setLane_airtime (s : State) (l : Nat) (x : LaneSt) : (s.setLane l x).airtime = s.airtime := rfl
@[simp] theorem setLane_mem (s : State) (l : Nat) (x : LaneSt) : (s.setLane l x).mem = s.mem := rfl
@[simp] theorem setLane_hostMem (s : State) (l : Nat) (x : LaneSt) : (s.setLane l x).hostMem = s.hostMem := rfl
@[simp] theorem setLane_cores (s : State) (l : Nat) (x : LaneSt) : (s.setLane l x).cores = s.cores := rfl
@[simp] theorem setLane_fab (s : State) (l : Nat) (x : LaneSt) : (s.setLane l x).fab = s.fab := rfl
@[simp] theorem setLane_tilth (s : State) (l : Nat) (x : LaneSt) : (s.setLane l x).tilth = s.tilth := rfl
@[simp] theorem setLane_wins (s : State) (l : Nat) (x : LaneSt) : (s.setLane l x).wins = s.wins := rfl
@[simp] theorem setLane_cfg (s : State) (l : Nat) (x : LaneSt) : (s.setLane l x).cfg = s.cfg := rfl
@[simp] theorem setLane_ctxs (s : State) (l : Nat) (x : LaneSt) : (s.setLane l x).ctxs = s.ctxs := rfl
@[simp] theorem setLane_fdcJobs (s : State) (l : Nat) (x : LaneSt) : (s.setLane l x).fdcJobs = s.fdcJobs := rfl
@[simp] theorem setLane_fdcLast (s : State) (l : Nat) (x : LaneSt) : (s.setLane l x).fdcLast = s.fdcLast := rfl
@[simp] theorem setLane_dmaLines (s : State) (l : Nat) (x : LaneSt) : (s.setLane l x).dmaLines = s.dmaLines := rfl
@[simp] theorem setLane_dmaChans (s : State) (l : Nat) (x : LaneSt) : (s.setLane l x).dmaChans = s.dmaChans := rfl
@[simp] theorem setLane_dmaLast (s : State) (l : Nat) (x : LaneSt) : (s.setLane l x).dmaLast = s.dmaLast := rfl
@[simp] theorem setLane_rings (s : State) (l : Nat) (x : LaneSt) : (s.setLane l x).rings = s.rings := rfl
@[simp] theorem setLane_ward (s : State) (l : Nat) (x : LaneSt) : (s.setLane l x).ward = s.ward := rfl
@[simp] theorem setLane_pins (s : State) (l : Nat) (x : LaneSt) : (s.setLane l x).pins = s.pins := rfl
@[simp] theorem setLane_rest (s : State) (l : Nat) (x : LaneSt) : (s.setLane l x).rest = s.rest := rfl
@[simp] theorem setLane_msix (s : State) (l : Nat) (x : LaneSt) : (s.setLane l x).msix = s.msix := rfl
@[simp] theorem setLane_cpls (s : State) (l : Nat) (x : LaneSt) : (s.setLane l x).cpls = s.cpls := rfl
@[simp] theorem setLane_faultLog (s : State) (l : Nat) (x : LaneSt) : (s.setLane l x).faultLog = s.faultLog := rfl
@[simp] theorem setLane_cmdAt (s : State) (l : Nat) (x : LaneSt) : (s.setLane l x).cmdAt = s.cmdAt := rfl
@[simp] theorem setLane_imgs (s : State) (l : Nat) (x : LaneSt) : (s.setLane l x).imgs = s.imgs := rfl
@[simp] theorem setLane_free (s : State) (l : Nat) (x : LaneSt) : (s.setLane l x).free = s.free := rfl
@[simp] theorem setLane_pending (s : State) (l : Nat) (x : LaneSt) : (s.setLane l x).pending = s.pending := rfl

/-! ### State.setCpri -/

@[simp] theorem setCpri_regs (s : State) (b : Nat) (x : CpriSt) : (s.setCpri b x).regs = s.regs := rfl
@[simp] theorem setCpri_latch (s : State) (b : Nat) (x : CpriSt) : (s.setCpri b x).latch = s.latch := rfl
@[simp] theorem setCpri_stage (s : State) (b : Nat) (x : CpriSt) : (s.setCpri b x).stage = s.stage := rfl
@[simp] theorem setCpri_airtime (s : State) (b : Nat) (x : CpriSt) : (s.setCpri b x).airtime = s.airtime := rfl
@[simp] theorem setCpri_mem (s : State) (b : Nat) (x : CpriSt) : (s.setCpri b x).mem = s.mem := rfl
@[simp] theorem setCpri_hostMem (s : State) (b : Nat) (x : CpriSt) : (s.setCpri b x).hostMem = s.hostMem := rfl
@[simp] theorem setCpri_cores (s : State) (b : Nat) (x : CpriSt) : (s.setCpri b x).cores = s.cores := rfl
@[simp] theorem setCpri_fab (s : State) (b : Nat) (x : CpriSt) : (s.setCpri b x).fab = s.fab := rfl
@[simp] theorem setCpri_tilth (s : State) (b : Nat) (x : CpriSt) : (s.setCpri b x).tilth = s.tilth := rfl
@[simp] theorem setCpri_wins (s : State) (b : Nat) (x : CpriSt) : (s.setCpri b x).wins = s.wins := rfl
@[simp] theorem setCpri_cfg (s : State) (b : Nat) (x : CpriSt) : (s.setCpri b x).cfg = s.cfg := rfl
@[simp] theorem setCpri_ctxs (s : State) (b : Nat) (x : CpriSt) : (s.setCpri b x).ctxs = s.ctxs := rfl
@[simp] theorem setCpri_fdcJobs (s : State) (b : Nat) (x : CpriSt) : (s.setCpri b x).fdcJobs = s.fdcJobs := rfl
@[simp] theorem setCpri_fdcLast (s : State) (b : Nat) (x : CpriSt) : (s.setCpri b x).fdcLast = s.fdcLast := rfl
@[simp] theorem setCpri_dmaLines (s : State) (b : Nat) (x : CpriSt) : (s.setCpri b x).dmaLines = s.dmaLines := rfl
@[simp] theorem setCpri_dmaChans (s : State) (b : Nat) (x : CpriSt) : (s.setCpri b x).dmaChans = s.dmaChans := rfl
@[simp] theorem setCpri_dmaLast (s : State) (b : Nat) (x : CpriSt) : (s.setCpri b x).dmaLast = s.dmaLast := rfl
@[simp] theorem setCpri_rings (s : State) (b : Nat) (x : CpriSt) : (s.setCpri b x).rings = s.rings := rfl
@[simp] theorem setCpri_ward (s : State) (b : Nat) (x : CpriSt) : (s.setCpri b x).ward = s.ward := rfl
@[simp] theorem setCpri_pins (s : State) (b : Nat) (x : CpriSt) : (s.setCpri b x).pins = s.pins := rfl
@[simp] theorem setCpri_rest (s : State) (b : Nat) (x : CpriSt) : (s.setCpri b x).rest = s.rest := rfl
@[simp] theorem setCpri_msix (s : State) (b : Nat) (x : CpriSt) : (s.setCpri b x).msix = s.msix := rfl
@[simp] theorem setCpri_cpls (s : State) (b : Nat) (x : CpriSt) : (s.setCpri b x).cpls = s.cpls := rfl
@[simp] theorem setCpri_faultLog (s : State) (b : Nat) (x : CpriSt) : (s.setCpri b x).faultLog = s.faultLog := rfl
@[simp] theorem setCpri_cmdAt (s : State) (b : Nat) (x : CpriSt) : (s.setCpri b x).cmdAt = s.cmdAt := rfl
@[simp] theorem setCpri_imgs (s : State) (b : Nat) (x : CpriSt) : (s.setCpri b x).imgs = s.imgs := rfl
@[simp] theorem setCpri_free (s : State) (b : Nat) (x : CpriSt) : (s.setCpri b x).free = s.free := rfl
@[simp] theorem setCpri_pending (s : State) (b : Nat) (x : CpriSt) : (s.setCpri b x).pending = s.pending := rfl

/-! ### State.send -/

@[simp] theorem send_regs (s : State) (port : Nat) (bs : List Byte) : (s.send port bs).regs = s.regs := rfl
@[simp] theorem send_latch (s : State) (port : Nat) (bs : List Byte) : (s.send port bs).latch = s.latch := rfl
@[simp] theorem send_stage (s : State) (port : Nat) (bs : List Byte) : (s.send port bs).stage = s.stage := rfl
@[simp] theorem send_airtime (s : State) (port : Nat) (bs : List Byte) : (s.send port bs).airtime = s.airtime := rfl
@[simp] theorem send_mem (s : State) (port : Nat) (bs : List Byte) : (s.send port bs).mem = s.mem := rfl
@[simp] theorem send_hostMem (s : State) (port : Nat) (bs : List Byte) : (s.send port bs).hostMem = s.hostMem := rfl
@[simp] theorem send_cores (s : State) (port : Nat) (bs : List Byte) : (s.send port bs).cores = s.cores := rfl
@[simp] theorem send_fab (s : State) (port : Nat) (bs : List Byte) : (s.send port bs).fab = s.fab := rfl
@[simp] theorem send_tilth (s : State) (port : Nat) (bs : List Byte) : (s.send port bs).tilth = s.tilth := rfl
@[simp] theorem send_wins (s : State) (port : Nat) (bs : List Byte) : (s.send port bs).wins = s.wins := rfl
@[simp] theorem send_cfg (s : State) (port : Nat) (bs : List Byte) : (s.send port bs).cfg = s.cfg := rfl
@[simp] theorem send_ctxs (s : State) (port : Nat) (bs : List Byte) : (s.send port bs).ctxs = s.ctxs := rfl
@[simp] theorem send_fdcJobs (s : State) (port : Nat) (bs : List Byte) : (s.send port bs).fdcJobs = s.fdcJobs := rfl
@[simp] theorem send_fdcLast (s : State) (port : Nat) (bs : List Byte) : (s.send port bs).fdcLast = s.fdcLast := rfl
@[simp] theorem send_dmaLines (s : State) (port : Nat) (bs : List Byte) : (s.send port bs).dmaLines = s.dmaLines := rfl
@[simp] theorem send_dmaChans (s : State) (port : Nat) (bs : List Byte) : (s.send port bs).dmaChans = s.dmaChans := rfl
@[simp] theorem send_dmaLast (s : State) (port : Nat) (bs : List Byte) : (s.send port bs).dmaLast = s.dmaLast := rfl
@[simp] theorem send_rings (s : State) (port : Nat) (bs : List Byte) : (s.send port bs).rings = s.rings := rfl
@[simp] theorem send_ward (s : State) (port : Nat) (bs : List Byte) : (s.send port bs).ward = s.ward := rfl
@[simp] theorem send_pins (s : State) (port : Nat) (bs : List Byte) : (s.send port bs).pins = s.pins := rfl
@[simp] theorem send_rest (s : State) (port : Nat) (bs : List Byte) : (s.send port bs).rest = s.rest := rfl
@[simp] theorem send_msix (s : State) (port : Nat) (bs : List Byte) : (s.send port bs).msix = s.msix := rfl
@[simp] theorem send_cpls (s : State) (port : Nat) (bs : List Byte) : (s.send port bs).cpls = s.cpls := rfl
@[simp] theorem send_faultLog (s : State) (port : Nat) (bs : List Byte) : (s.send port bs).faultLog = s.faultLog := rfl
@[simp] theorem send_cmdAt (s : State) (port : Nat) (bs : List Byte) : (s.send port bs).cmdAt = s.cmdAt := rfl
@[simp] theorem send_imgs (s : State) (port : Nat) (bs : List Byte) : (s.send port bs).imgs = s.imgs := rfl
@[simp] theorem send_free (s : State) (port : Nat) (bs : List Byte) : (s.send port bs).free = s.free := rfl
@[simp] theorem send_pending (s : State) (port : Nat) (bs : List Byte) : (s.send port bs).pending = s.pending := rfl

/-! ### State.complete -/

@[simp] theorem complete_regs (s : State) (f status : Nat) (data : List Byte) : (s.complete f status data).regs = s.regs := rfl
@[simp] theorem complete_latch (s : State) (f status : Nat) (data : List Byte) : (s.complete f status data).latch = s.latch := rfl
@[simp] theorem complete_stage (s : State) (f status : Nat) (data : List Byte) : (s.complete f status data).stage = s.stage := rfl
@[simp] theorem complete_airtime (s : State) (f status : Nat) (data : List Byte) : (s.complete f status data).airtime = s.airtime := rfl
@[simp] theorem complete_mem (s : State) (f status : Nat) (data : List Byte) : (s.complete f status data).mem = s.mem := rfl
@[simp] theorem complete_hostMem (s : State) (f status : Nat) (data : List Byte) : (s.complete f status data).hostMem = s.hostMem := rfl
@[simp] theorem complete_cores (s : State) (f status : Nat) (data : List Byte) : (s.complete f status data).cores = s.cores := rfl
@[simp] theorem complete_fab (s : State) (f status : Nat) (data : List Byte) : (s.complete f status data).fab = s.fab := rfl
@[simp] theorem complete_tilth (s : State) (f status : Nat) (data : List Byte) : (s.complete f status data).tilth = s.tilth := rfl
@[simp] theorem complete_wins (s : State) (f status : Nat) (data : List Byte) : (s.complete f status data).wins = s.wins := rfl
@[simp] theorem complete_cfg (s : State) (f status : Nat) (data : List Byte) : (s.complete f status data).cfg = s.cfg := rfl
@[simp] theorem complete_ctxs (s : State) (f status : Nat) (data : List Byte) : (s.complete f status data).ctxs = s.ctxs := rfl
@[simp] theorem complete_fdcJobs (s : State) (f status : Nat) (data : List Byte) : (s.complete f status data).fdcJobs = s.fdcJobs := rfl
@[simp] theorem complete_fdcLast (s : State) (f status : Nat) (data : List Byte) : (s.complete f status data).fdcLast = s.fdcLast := rfl
@[simp] theorem complete_dmaLines (s : State) (f status : Nat) (data : List Byte) : (s.complete f status data).dmaLines = s.dmaLines := rfl
@[simp] theorem complete_dmaChans (s : State) (f status : Nat) (data : List Byte) : (s.complete f status data).dmaChans = s.dmaChans := rfl
@[simp] theorem complete_dmaLast (s : State) (f status : Nat) (data : List Byte) : (s.complete f status data).dmaLast = s.dmaLast := rfl
@[simp] theorem complete_rings (s : State) (f status : Nat) (data : List Byte) : (s.complete f status data).rings = s.rings := rfl
@[simp] theorem complete_links (s : State) (f status : Nat) (data : List Byte) : (s.complete f status data).links = s.links := rfl
@[simp] theorem complete_ward (s : State) (f status : Nat) (data : List Byte) : (s.complete f status data).ward = s.ward := rfl
@[simp] theorem complete_pins (s : State) (f status : Nat) (data : List Byte) : (s.complete f status data).pins = s.pins := rfl
@[simp] theorem complete_rest (s : State) (f status : Nat) (data : List Byte) : (s.complete f status data).rest = s.rest := rfl
@[simp] theorem complete_msix (s : State) (f status : Nat) (data : List Byte) : (s.complete f status data).msix = s.msix := rfl
@[simp] theorem complete_faultLog (s : State) (f status : Nat) (data : List Byte) : (s.complete f status data).faultLog = s.faultLog := rfl
@[simp] theorem complete_cmdAt (s : State) (f status : Nat) (data : List Byte) : (s.complete f status data).cmdAt = s.cmdAt := rfl
@[simp] theorem complete_imgs (s : State) (f status : Nat) (data : List Byte) : (s.complete f status data).imgs = s.imgs := rfl
@[simp] theorem complete_free (s : State) (f status : Nat) (data : List Byte) : (s.complete f status data).free = s.free := rfl
@[simp] theorem complete_pending (s : State) (f status : Nat) (data : List Byte) : (s.complete f status data).pending = s.pending := rfl

/-! ### State.fresh -/

@[simp] theorem fresh_regs (s : State) (w : Nat) : (s.fresh w).2.regs = s.regs := rfl
@[simp] theorem fresh_latch (s : State) (w : Nat) : (s.fresh w).2.latch = s.latch := rfl
@[simp] theorem fresh_stage (s : State) (w : Nat) : (s.fresh w).2.stage = s.stage := rfl
@[simp] theorem fresh_airtime (s : State) (w : Nat) : (s.fresh w).2.airtime = s.airtime := rfl
@[simp] theorem fresh_mem (s : State) (w : Nat) : (s.fresh w).2.mem = s.mem := rfl
@[simp] theorem fresh_hostMem (s : State) (w : Nat) : (s.fresh w).2.hostMem = s.hostMem := rfl
@[simp] theorem fresh_cores (s : State) (w : Nat) : (s.fresh w).2.cores = s.cores := rfl
@[simp] theorem fresh_fab (s : State) (w : Nat) : (s.fresh w).2.fab = s.fab := rfl
@[simp] theorem fresh_tilth (s : State) (w : Nat) : (s.fresh w).2.tilth = s.tilth := rfl
@[simp] theorem fresh_wins (s : State) (w : Nat) : (s.fresh w).2.wins = s.wins := rfl
@[simp] theorem fresh_cfg (s : State) (w : Nat) : (s.fresh w).2.cfg = s.cfg := rfl
@[simp] theorem fresh_ctxs (s : State) (w : Nat) : (s.fresh w).2.ctxs = s.ctxs := rfl
@[simp] theorem fresh_fdcJobs (s : State) (w : Nat) : (s.fresh w).2.fdcJobs = s.fdcJobs := rfl
@[simp] theorem fresh_fdcLast (s : State) (w : Nat) : (s.fresh w).2.fdcLast = s.fdcLast := rfl
@[simp] theorem fresh_dmaLines (s : State) (w : Nat) : (s.fresh w).2.dmaLines = s.dmaLines := rfl
@[simp] theorem fresh_dmaChans (s : State) (w : Nat) : (s.fresh w).2.dmaChans = s.dmaChans := rfl
@[simp] theorem fresh_dmaLast (s : State) (w : Nat) : (s.fresh w).2.dmaLast = s.dmaLast := rfl
@[simp] theorem fresh_rings (s : State) (w : Nat) : (s.fresh w).2.rings = s.rings := rfl
@[simp] theorem fresh_links (s : State) (w : Nat) : (s.fresh w).2.links = s.links := rfl
@[simp] theorem fresh_ward (s : State) (w : Nat) : (s.fresh w).2.ward = s.ward := rfl
@[simp] theorem fresh_pins (s : State) (w : Nat) : (s.fresh w).2.pins = s.pins := rfl
@[simp] theorem fresh_rest (s : State) (w : Nat) : (s.fresh w).2.rest = s.rest := rfl
@[simp] theorem fresh_msix (s : State) (w : Nat) : (s.fresh w).2.msix = s.msix := rfl
@[simp] theorem fresh_cpls (s : State) (w : Nat) : (s.fresh w).2.cpls = s.cpls := rfl
@[simp] theorem fresh_faultLog (s : State) (w : Nat) : (s.fresh w).2.faultLog = s.faultLog := rfl
@[simp] theorem fresh_cmdAt (s : State) (w : Nat) : (s.fresh w).2.cmdAt = s.cmdAt := rfl
@[simp] theorem fresh_imgs (s : State) (w : Nat) : (s.fresh w).2.imgs = s.imgs := rfl
@[simp] theorem fresh_pending (s : State) (w : Nat) : (s.fresh w).2.pending = s.pending := rfl
@[simp] theorem fresh_free (s : State) (w : Nat) : (s.fresh w).2.free = s.free + 1 := rfl

/-! ### The parts of `links` -/

@[simp] theorem setRv_links_scheds (s : State) (n : Nat) (x : RvSt) : (s.setRv n x).links.scheds = s.links.scheds := rfl
@[simp] theorem setRv_links_pendScheds (s : State) (n : Nat) (x : RvSt) : (s.setRv n x).links.pendScheds = s.links.pendScheds := rfl
@[simp] theorem setRv_links_lanes (s : State) (n : Nat) (x : RvSt) : (s.setRv n x).links.lanes = s.links.lanes := rfl
@[simp] theorem setRv_links_macs (s : State) (n : Nat) (x : RvSt) : (s.setRv n x).links.macs = s.links.macs := rfl
@[simp] theorem setRv_links_framers (s : State) (n : Nat) (x : RvSt) : (s.setRv n x).links.framers = s.links.framers := rfl
@[simp] theorem setRv_links_notices (s : State) (n : Nat) (x : RvSt) : (s.setRv n x).links.notices = s.links.notices := rfl
@[simp] theorem setRv_links_cpri (s : State) (n : Nat) (x : RvSt) : (s.setRv n x).links.cpri = s.links.cpri := rfl
@[simp] theorem setRv_links_time (s : State) (n : Nat) (x : RvSt) : (s.setRv n x).links.time = s.links.time := rfl
@[simp] theorem setRv_links_sent (s : State) (n : Nat) (x : RvSt) : (s.setRv n x).links.sent = s.links.sent := rfl
@[simp] theorem setTime_links_scheds (s : State) (x : TimeSt) : (s.setTime x).links.scheds = s.links.scheds := rfl
@[simp] theorem setTime_links_pendScheds (s : State) (x : TimeSt) : (s.setTime x).links.pendScheds = s.links.pendScheds := rfl
@[simp] theorem setTime_links_lanes (s : State) (x : TimeSt) : (s.setTime x).links.lanes = s.links.lanes := rfl
@[simp] theorem setTime_links_macs (s : State) (x : TimeSt) : (s.setTime x).links.macs = s.links.macs := rfl
@[simp] theorem setTime_links_framers (s : State) (x : TimeSt) : (s.setTime x).links.framers = s.links.framers := rfl
@[simp] theorem setTime_links_notices (s : State) (x : TimeSt) : (s.setTime x).links.notices = s.links.notices := rfl
@[simp] theorem setTime_links_cpri (s : State) (x : TimeSt) : (s.setTime x).links.cpri = s.links.cpri := rfl
@[simp] theorem setTime_links_rv (s : State) (x : TimeSt) : (s.setTime x).links.rv = s.links.rv := rfl
@[simp] theorem setTime_links_sent (s : State) (x : TimeSt) : (s.setTime x).links.sent = s.links.sent := rfl
@[simp] theorem setMac_links_scheds (s : State) (p : Nat) (x : MacSt) : (s.setMac p x).links.scheds = s.links.scheds := rfl
@[simp] theorem setMac_links_pendScheds (s : State) (p : Nat) (x : MacSt) : (s.setMac p x).links.pendScheds = s.links.pendScheds := rfl
@[simp] theorem setMac_links_lanes (s : State) (p : Nat) (x : MacSt) : (s.setMac p x).links.lanes = s.links.lanes := rfl
@[simp] theorem setMac_links_framers (s : State) (p : Nat) (x : MacSt) : (s.setMac p x).links.framers = s.links.framers := rfl
@[simp] theorem setMac_links_notices (s : State) (p : Nat) (x : MacSt) : (s.setMac p x).links.notices = s.links.notices := rfl
@[simp] theorem setMac_links_cpri (s : State) (p : Nat) (x : MacSt) : (s.setMac p x).links.cpri = s.links.cpri := rfl
@[simp] theorem setMac_links_time (s : State) (p : Nat) (x : MacSt) : (s.setMac p x).links.time = s.links.time := rfl
@[simp] theorem setMac_links_rv (s : State) (p : Nat) (x : MacSt) : (s.setMac p x).links.rv = s.links.rv := rfl
@[simp] theorem setMac_links_sent (s : State) (p : Nat) (x : MacSt) : (s.setMac p x).links.sent = s.links.sent := rfl
@[simp] theorem setFramer_links_scheds (s : State) (f : Nat) (x : FramerSt) : (s.setFramer f x).links.scheds = s.links.scheds := rfl
@[simp] theorem setFramer_links_pendScheds (s : State) (f : Nat) (x : FramerSt) : (s.setFramer f x).links.pendScheds = s.links.pendScheds := rfl
@[simp] theorem setFramer_links_lanes (s : State) (f : Nat) (x : FramerSt) : (s.setFramer f x).links.lanes = s.links.lanes := rfl
@[simp] theorem setFramer_links_macs (s : State) (f : Nat) (x : FramerSt) : (s.setFramer f x).links.macs = s.links.macs := rfl
@[simp] theorem setFramer_links_notices (s : State) (f : Nat) (x : FramerSt) : (s.setFramer f x).links.notices = s.links.notices := rfl
@[simp] theorem setFramer_links_cpri (s : State) (f : Nat) (x : FramerSt) : (s.setFramer f x).links.cpri = s.links.cpri := rfl
@[simp] theorem setFramer_links_time (s : State) (f : Nat) (x : FramerSt) : (s.setFramer f x).links.time = s.links.time := rfl
@[simp] theorem setFramer_links_rv (s : State) (f : Nat) (x : FramerSt) : (s.setFramer f x).links.rv = s.links.rv := rfl
@[simp] theorem setFramer_links_sent (s : State) (f : Nat) (x : FramerSt) : (s.setFramer f x).links.sent = s.links.sent := rfl
@[simp] theorem setLane_links_scheds (s : State) (l : Nat) (x : LaneSt) : (s.setLane l x).links.scheds = s.links.scheds := rfl
@[simp] theorem setLane_links_pendScheds (s : State) (l : Nat) (x : LaneSt) : (s.setLane l x).links.pendScheds = s.links.pendScheds := rfl
@[simp] theorem setLane_links_macs (s : State) (l : Nat) (x : LaneSt) : (s.setLane l x).links.macs = s.links.macs := rfl
@[simp] theorem setLane_links_framers (s : State) (l : Nat) (x : LaneSt) : (s.setLane l x).links.framers = s.links.framers := rfl
@[simp] theorem setLane_links_notices (s : State) (l : Nat) (x : LaneSt) : (s.setLane l x).links.notices = s.links.notices := rfl
@[simp] theorem setLane_links_cpri (s : State) (l : Nat) (x : LaneSt) : (s.setLane l x).links.cpri = s.links.cpri := rfl
@[simp] theorem setLane_links_time (s : State) (l : Nat) (x : LaneSt) : (s.setLane l x).links.time = s.links.time := rfl
@[simp] theorem setLane_links_rv (s : State) (l : Nat) (x : LaneSt) : (s.setLane l x).links.rv = s.links.rv := rfl
@[simp] theorem setLane_links_sent (s : State) (l : Nat) (x : LaneSt) : (s.setLane l x).links.sent = s.links.sent := rfl
@[simp] theorem setCpri_links_scheds (s : State) (b : Nat) (x : CpriSt) : (s.setCpri b x).links.scheds = s.links.scheds := rfl
@[simp] theorem setCpri_links_pendScheds (s : State) (b : Nat) (x : CpriSt) : (s.setCpri b x).links.pendScheds = s.links.pendScheds := rfl
@[simp] theorem setCpri_links_lanes (s : State) (b : Nat) (x : CpriSt) : (s.setCpri b x).links.lanes = s.links.lanes := rfl
@[simp] theorem setCpri_links_macs (s : State) (b : Nat) (x : CpriSt) : (s.setCpri b x).links.macs = s.links.macs := rfl
@[simp] theorem setCpri_links_framers (s : State) (b : Nat) (x : CpriSt) : (s.setCpri b x).links.framers = s.links.framers := rfl
@[simp] theorem setCpri_links_notices (s : State) (b : Nat) (x : CpriSt) : (s.setCpri b x).links.notices = s.links.notices := rfl
@[simp] theorem setCpri_links_time (s : State) (b : Nat) (x : CpriSt) : (s.setCpri b x).links.time = s.links.time := rfl
@[simp] theorem setCpri_links_rv (s : State) (b : Nat) (x : CpriSt) : (s.setCpri b x).links.rv = s.links.rv := rfl
@[simp] theorem setCpri_links_sent (s : State) (b : Nat) (x : CpriSt) : (s.setCpri b x).links.sent = s.links.sent := rfl
@[simp] theorem send_links_scheds (s : State) (port : Nat) (bs : List Byte) : (s.send port bs).links.scheds = s.links.scheds := rfl
@[simp] theorem send_links_pendScheds (s : State) (port : Nat) (bs : List Byte) : (s.send port bs).links.pendScheds = s.links.pendScheds := rfl
@[simp] theorem send_links_lanes (s : State) (port : Nat) (bs : List Byte) : (s.send port bs).links.lanes = s.links.lanes := rfl
@[simp] theorem send_links_macs (s : State) (port : Nat) (bs : List Byte) : (s.send port bs).links.macs = s.links.macs := rfl
@[simp] theorem send_links_framers (s : State) (port : Nat) (bs : List Byte) : (s.send port bs).links.framers = s.links.framers := rfl
@[simp] theorem send_links_notices (s : State) (port : Nat) (bs : List Byte) : (s.send port bs).links.notices = s.links.notices := rfl
@[simp] theorem send_links_cpri (s : State) (port : Nat) (bs : List Byte) : (s.send port bs).links.cpri = s.links.cpri := rfl
@[simp] theorem send_links_time (s : State) (port : Nat) (bs : List Byte) : (s.send port bs).links.time = s.links.time := rfl
@[simp] theorem send_links_rv (s : State) (port : Nat) (bs : List Byte) : (s.send port bs).links.rv = s.links.rv := rfl

end Sys2Proof.Machine
end

