-- ==== Sys2Proof/Laws/Core.lean ====
section
/-!
SUPPORT. Sys2Proof/Laws/Core.lean: what is read back of a register, a core, a window and a link after it was put there, and what the
end of an issue does on a core that is free.
-/
namespace Sys2Proof.Machine
open Sys2Proof.Safety

/-! ### Read after write -/

/-- A register reads as what was put there last; every other register reads as before. -/
theorem reg_setReg (s : State) (p q : Page) (off o : Nat) (v : Word) :
    (s.setReg p off v).reg q o = if q.addr + o = p.addr + off then v else s.reg q o := by
  unfold State.reg State.setReg
  dsimp only
  rw [lookup?_insertKey]
  by_cases h : q.addr + o = p.addr + off <;> simp [h]

@[simp] theorem reg_setReg_same (s : State) (p : Page) (off : Nat) (v : Word) : (s.setReg p off v).reg p off = v := by
  simp [reg_setReg]

/-- Within a page, a put of one register leaves the others. -/
theorem reg_setReg_ne (s : State) (p : Page) {off o : Nat} (v : Word) (h : o ≠ off) : (s.setReg p off v).reg p o = s.reg p o := by
  simp [reg_setReg, h]

@[simp] theorem reg_setCore (s : State) (k : Nat) (c : Core) (p : Page) (off : Nat) : (s.setCore k c).reg p off = s.reg p off := rfl

@[simp] theorem core_setCore (s : State) (k : Nat) (c : Core) (j : Nat) :
    (s.setCore k c).core j = if j = k then c else s.core j := by
  simp [State.core, State.setCore]

@[simp] theorem setCore_setCore (s : State) (k : Nat) (c d : Core) : (s.setCore k c).setCore k d = s.setCore k d := by
  simp [State.setCore, insertKey_insertKey]

@[simp] theorem core_setReg (s : State) (p : Page) (off : Nat) (v : Word) (k : Nat) : (s.setReg p off v).core k = s.core k := rfl

@[simp] theorem core_setFld (s : State) (p : Page) (off lo w v k : Nat) : (s.setFld p off lo w v).core k = s.core k := rfl

@[simp] theorem rv_setRv (s : State) (n : Nat) (x : RvSt) (m : Nat) : (s.setRv n x).rv m = if m = n then x else s.rv m := by
  simp [State.rv, State.setRv]

@[simp] theorem laneSt_setLane (s : State) (l : Nat) (x : LaneSt) (m : Nat) :
    (s.setLane l x).laneSt m = if m = l then x else s.laneSt m := by
  simp [State.laneSt, State.setLane]

@[simp] theorem mac_setMac (s : State) (p : Nat) (x : MacSt) (m : Nat) : (s.setMac p x).mac m = if m = p then x else s.mac m := by
  simp [State.mac, State.setMac]

@[simp] theorem framer_setFramer (s : State) (f : Nat) (x : FramerSt) (m : Nat) :
    (s.setFramer f x).framer m = if m = f then x else s.framer m := by
  simp [State.framer, State.setFramer]

@[simp] theorem cpriSt_setCpri (s : State) (b : Nat) (x : CpriSt) (m : Nat) :
    (s.setCpri b x).cpriSt m = if m = b then x else s.cpriSt m := by
  simp [State.cpriSt, State.setCpri]

@[simp] theorem time_setTime (s : State) (x : TimeSt) : (s.setTime x).time = x := rfl

@[simp] theorem lineReqs_setLine (s : State) (line : Nat) (rs : List DmaReq) (m : Nat) :
    (s.setLine line rs).lineReqs m = if m = line then rs else s.lineReqs m := by
  simp [State.lineReqs, State.setLine]

@[simp] theorem window_setWindow (s : State) (cls i : Nat) (w : List Nat) : (s.setWindow cls i w).window cls i = w := by
  simp [State.window, State.setWindow]

/-! ### The end of an issue -/

@[simp] theorem coreItem_setCore (s : State) (k : Nat) (c : Core) (j : Nat) : (s.setCore k c).coreItem j = s.coreItem j := rfl

/-- The measure of masked regions leaves the items alone. -/
theorem coreItem_maskTrack (s : State) (k j : Nat) : (maskTrack s k).coreItem j = s.coreItem j := by
  unfold maskTrack maskEnd
  dsimp only
  repeat' split
  all_goals rfl

theorem preempt_maskTrack (s : State) (k : Nat) : ((maskTrack s k).core k).preempt = (s.core k).preempt := by
  unfold maskTrack maskEnd
  dsimp only
  repeat' split
  all_goals first | rfl | simp

/-- With no pre-emption due, a bundle boundary leaves the items alone. -/
theorem coreItem_boundary (s : State) (k j : Nat) (h : (s.core k).preempt = false) :
    (boundary s k).coreItem j = s.coreItem j := by
  unfold boundary
  simp only [h]
  repeat' split
  all_goals first | rfl | simp_all

theorem landDue_preempt (c : Core) : (landDue c).preempt = c.preempt := by
  have : ∀ (l : List RegWrite) (c : Core), (l.foldl land c).preempt = c.preempt := by
    intro l
    induction l with
    | nil => intro c; rfl
    | cons w t ih =>
      intro c
      rw [List.foldl_cons, ih]
      cases w <;> simp only [land, writeCtl] <;> (repeat' split) <;> rfl
  simp [landDue, landAll, this, -List.foldl_append]

theorem retire_preempt (c : Core) (a : OpOut) (wr : List (Nat × RegWrite)) (ch : List (Bool × List (Nat × Lane))) :
    (retire c a wr ch).preempt = c.preempt := by
  have hc : ∀ (l : List (Bool × List (Nat × Lane))) (c : Core), (chainLanes c l).preempt = c.preempt := by
    intro l
    unfold chainLanes
    induction l with
    | nil => intro c; rfl
    | cons w t ih =>
      intro c
      rw [List.foldl_cons, ih]
      split <;> rfl
  have hn : ∀ c, (loopNext c).1.preempt = c.preempt := by
    intro c
    unfold loopNext
    dsimp only
    repeat' split
    all_goals rfl
  have ha : ∀ c a, (advance c a).preempt = c.preempt := by
    intro c a
    unfold advance
    dsimp only
    repeat' split
    all_goals first | rfl | exact hn _
  unfold retire
  dsimp only
  rw [landDue_preempt, ha]
  simp [pendWrites, hc]

/-- The task of a free core is in no `wait.ev`, so an issue ends without the test of its deadline (R284). -/
theorem lateWait_issued (s : State) (k : Nat) (o : OpOut) (h : coreFree s k = true) :
    lateWait (issued s k o) k = issued s k o := by
  have hi : (issued s k o).coreItem k = s.coreItem k := by
    unfold issued
    dsimp only
    rw [coreItem_boundary, coreItem_maskTrack]
    · rfl
    · rw [preempt_maskTrack]
      simp only [coreFree, Bool.and_eq_true, Bool.not_eq_true'] at h
      simp [retire_preempt, h]
  unfold lateWait
  rw [hi]
  simp only [coreFree, Bool.and_eq_true] at h
  split
  · rename_i it hit
    rw [hit] at h
    simp only [Bool.not_eq_true'] at h
    simp [h.2]
  · rfl

/-- A bundle of one operation has no duplicate destination (R60). -/
theorem dup_single (c : Core) (op : Instr) : dupSlot c [op] = none := by
  unfold dupSlot slotOp
  cases h : opSlot op with
  | none => simp [h]
  | some sl => cases sl <;> simp [h, Slot.code]

end Sys2Proof.Machine
end

