-- ==== Sys2Proof/WellFormed.lean ====
section
/-!
DEFINITION. Sys2Proof/WellFormed.lean: which commands name things that the device has (R37, R44, R141, R265, R273, R340, R504): cores,
engines, functions, queues, stops, pages and the rest by their numbers. The meanings are total: a command that is not well formed
leaves the state as it is, or has the number cut to its field, as each meaning says.
-/
namespace Sys2Proof

def below (x n : Nat) : Bool := decide (x < n)
/-- One of the 272 physical cores. -/
def okCore (k : Nat) : Bool := below k 272
/-- A physical instance of an engine class, the spares included (R141, R572). -/
def okEngine (cls inst : Nat) : Bool := below 0 cls && below inst ([0, 33, 17, 25, 17, 17, 9, 5, 5].getD cls 0)
def okExec : Exec → Bool
  | .core k => okCore k
  | .engine cls inst => okEngine cls inst
  | .host fn ring => below fn 64 && below ring 8
def okAgent : Agent → Bool
  | .fn f => below f 64
  | .ward => true
  | .dma ch => below ch 64
/-- A page of the PF's BAR0, by its offset (R504). -/
def okPage (pg : Nat) : Bool := below pg (2 ^ 28) && pg % 0x1000 == 0
def okHow : RiseHow → Bool
  | .fails reason detail => below reason 256 && below detail (2 ^ 24)
  | .ready | .slow => true
def okReq : CfgReq → Bool
  | .read off => below off 4096 && off % 4 == 0
  | .vfEnable num => below num 64
  | .busMaster _ | .msixEnable _ | .power _ => true
/-- A data flit (R340). -/
def okFlit (f : Flit) : Bool :=
  below f.ring 8 && below f.dst 86 && below f.src 86 && below f.addr (2 ^ 48) && below f.len 65 && below f.data.length 65

/-- Is the command well formed? -/
def wellFormed : Instr → Bool
  | .tick g => below g 64
  | .add k _ _ _ _ _ => okCore k
  | .sub k _ _ _ _ _ => okCore k
  | .and k _ _ _ _ _ => okCore k
  | .or k _ _ _ _ _ => okCore k
  | .xor k _ _ _ _ _ => okCore k
  | .shl k _ _ _ _ _ => okCore k
  | .shr k _ _ _ _ _ => okCore k
  | .sar k _ _ _ _ _ => okCore k
  | .lt k _ _ _ _ _ => okCore k
  | .ltu k _ _ _ _ _ => okCore k
  | .min k _ _ _ _ _ => okCore k
  | .max k _ _ _ _ _ => okCore k
  | .minu k _ _ _ _ _ => okCore k
  | .maxu k _ _ _ _ _ => okCore k
  | .lz k _ _ _ _ => okCore k
  | .pick k _ _ _ _ _ => okCore k
  | .mul k _ _ _ _ _ => okCore k
  | .mulhi k _ _ _ _ _ => okCore k
  | .mulhiu k _ _ _ _ _ => okCore k
  | .addK k _ _ _ _ _ => okCore k
  | .andK k _ _ _ _ _ => okCore k
  | .orK k _ _ _ _ _ => okCore k
  | .xorK k _ _ _ _ _ => okCore k
  | .ltK k _ _ _ _ _ => okCore k
  | .ltuK k _ _ _ _ _ => okCore k
  | .shlK k _ _ _ _ _ => okCore k
  | .shrK k _ _ _ _ _ => okCore k
  | .sarK k _ _ _ _ _ => okCore k
  | .mulK k _ _ _ _ _ => okCore k
  | .setu k _ _ _ _ => okCore k
  | .bEq k _ _ _ _ _ => okCore k
  | .bNe k _ _ _ _ _ => okCore k
  | .bLt k _ _ _ _ _ => okCore k
  | .bGe k _ _ _ _ _ => okCore k
  | .bLtu k _ _ _ _ _ => okCore k
  | .bGeu k _ _ _ _ _ => okCore k
  | .jmpL k _ _ _ _ => okCore k
  | .jmpLr k _ _ _ _ => okCore k
  | .loopI k _ _ _ _ _ _ => okCore k
  | .loopR k _ _ _ _ _ _ => okCore k
  | .loopBackEdge k => okCore k
  | .rdc k _ _ _ _ => okCore k
  | .wrc k _ _ _ _ => okCore k
  | .ieOff k _ _ => okCore k
  | .ieOn k _ _ => okCore k
  | .eret k _ _ => okCore k
  | .trap k _ _ _ => okCore k
  | .preempt k => okCore k
  | .maskOverrun k => okCore k
  | .fetchPoison k => okCore k
  | .ldB k _ _ _ _ => okCore k
  | .ldBu k _ _ _ _ => okCore k
  | .ldH k _ _ _ _ => okCore k
  | .ldHu k _ _ _ _ => okCore k
  | .ldW k _ _ _ _ => okCore k
  | .stB k _ _ _ _ => okCore k
  | .stH k _ _ _ _ => okCore k
  | .stW k _ _ _ _ => okCore k
  | .ldWPm k _ _ _ _ => okCore k
  | .stWPm k _ _ _ _ => okCore k
  | .ldD k _ _ _ _ => okCore k
  | .stD k _ _ _ _ => okCore k
  | .ldfW k _ _ _ _ => okCore k
  | .stfW k _ _ _ _ => okCore k
  | .ldfD k _ _ _ _ => okCore k
  | .stfD k _ _ _ _ => okCore k
  | .csave k _ _ _ _ => okCore k
  | .crest k _ _ _ _ => okCore k
  | .storeGatherDrain k _ => okCore k
  | .settle k _ => okCore k
  | .done k _ _ => okCore k
  | .waitTask k _ => okCore k
  | .waitEv k _ _ _ _ => okCore k
  | .yieldPre k _ => okCore k
  | .qPush k _ _ _ _ _ => okCore k
  | .eqPush k _ _ _ _ _ => okCore k
  | .esave k _ _ _ _ _ => okCore k
  | .erest k _ _ _ _ _ => okCore k
  | .vldQ k _ _ _ _ => okCore k
  | .vldQPm k _ _ _ _ => okCore k
  | .vstQ k _ _ _ _ => okCore k
  | .vstQPm k _ _ _ _ => okCore k
  | .vldV k _ _ _ _ => okCore k
  | .vstV k _ _ _ _ => okCore k
  | .vldB k _ _ _ _ => okCore k
  | .vldBPm k _ _ _ _ => okCore k
  | .vstB k _ _ _ _ => okCore k
  | .vstBPm k _ _ _ _ => okCore k
  | .vldfQ k _ _ _ _ => okCore k
  | .vstfQ k _ _ _ _ => okCore k
  | .vldfB k _ _ _ _ => okCore k
  | .vstfB k _ _ _ _ => okCore k
  | .mfr k _ _ _ _ => okCore k
  | .asave k _ _ _ _ => okCore k
  | .arest k _ _ _ _ => okCore k
  | .vadd k _ _ _ _ _ _ => okCore k
  | .vsub k _ _ _ _ _ _ => okCore k
  | .vmul k _ _ _ _ _ _ _ => okCore k
  | .vmin k _ _ _ _ _ _ => okCore k
  | .vmax k _ _ _ _ _ _ => okCore k
  | .vand k _ _ _ _ _ _ => okCore k
  | .vor k _ _ _ _ _ _ => okCore k
  | .vxor k _ _ _ _ _ _ => okCore k
  | .vsra k _ _ _ _ _ => okCore k
  | .vsll k _ _ _ _ _ => okCore k
  | .vpow k _ _ _ _ => okCore k
  | .vcvt k _ _ _ _ _ => okCore k
  | .vbcst k _ _ _ _ => okCore k
  | .vmov k _ _ _ _ => okCore k
  | .vzero k _ _ _ => okCore k
  | .cmac k _ _ _ _ _ _ _ => okCore k
  | .cmul k _ _ _ _ _ _ _ => okCore k
  | .aclr k _ _ => okCore k
  | .ardC k _ _ _ _ _ => okCore k
  | .ardV k _ _ _ _ => okCore k
  | .vminIx k _ _ _ _ _ => okCore k
  | .vmaxIx k _ _ _ _ _ => okCore k
  | .vmin2Ix k _ _ _ _ _ => okCore k
  | .vlds k _ _ _ _ _ => okCore k
  | .vsts k _ _ _ _ _ => okCore k
  | .vgth k _ _ _ _ _ => okCore k
  | .vsct k _ _ _ _ _ => okCore k
  | .combine inst => okEngine 1 inst
  | .precode inst => okEngine 1 inst
  | .loadWeights inst => okEngine 1 inst
  | .detect inst => okEngine 2 inst
  | .demap inst => okEngine 2 inst
  | .weightCalc inst => okEngine 2 inst
  | .hinv inst => okEngine 2 inst
  | .transform inst => okEngine 3 inst
  | .filter inst _ => okEngine 4 inst
  | .control inst _ => okEngine 4 inst
  | .fdcSlice inst => okEngine 4 inst
  | .globalFreeze by_ inst _ => okAgent by_ && okEngine 4 inst
  | .decode inst => okEngine 5 inst
  | .tbcrc inst => okEngine 5 inst
  | .encode inst => okEngine 6 inst
  | .pceEncode inst => okEngine 7 inst
  | .pceDecode inst => okEngine 7 inst
  | .turboDec inst => okEngine 8 inst
  | .turboEnc inst => okEngine 8 inst
  | .engineEsave cls inst _ => okEngine cls inst
  | .engineErest cls inst _ => okEngine cls inst
  | .cmdShed _ => true
  | .harqScan channel => below channel 128
  | .enqueue q fn desc => below q (2 ^ 20) && below fn 64 && desc.length == 16
  | .stallEnd q => below q (2 ^ 20)
  | .wgOpen fn group sup _ => below fn 64 && below group (2 ^ 16) && below sup (2 ^ 20)
  | .wgClose fn group => below fn 64 && below group (2 ^ 16)
  | .post fn core _ => below fn 64 && core.all okCore
  | .abort fn _ => below fn 64
  | .event _ => true
  | .dispatch x _ _ _ _ => okExec x
  | .taskRelease _ => true
  | .chainedEnqueue _ => true
  | .preemptDecision _ victim => okCore victim
  | .taskResume k => okCore k
  | .shedQueued _ => true
  | .expired _ => true
  | .deadlineWait _ => true
  | .deadlineRun _ => true
  | .watchdog _ => true
  | .deadlock fn group => below fn 64 && below group (2 ^ 16)
  | .hfwDb f n _ => below f 64 && below n 64
  | .ringFetch f n _ => below f 64 && below n 64
  | .pushSlot f sl data _ => below f 64 && below sl 64 && data.length == 16
  | .hfwDoneHi f _ => below f 64
  | .qcmdRead by_ => okAgent by_
  | .qcmdWrite by_ => okAgent by_
  | .qcmdEnable by_ => okAgent by_
  | .qcmdDisable by_ => okAgent by_
  | .qcmdFlush by_ => okAgent by_
  | .pcmdRead by_ => okAgent by_
  | .pcmdCommit by_ => okAgent by_
  | .hcmdRead by_ => okAgent by_
  | .hcmdBind by_ _ => okAgent by_
  | .hcmdRelease by_ => okAgent by_
  | .migrate _ _ _ => true
  | .shedSlack _ => true
  | .replace _ _ => true
  | .ctxMove cls src _ fn dst => okEngine cls src && okEngine cls dst && below fn 64
  | .rerunPlace _ _ => true
  | .write f => okFlit f
  | .readReq f => okFlit f
  | .readData _ _ _ _ => true
  | .writeAck _ => true
  | .abortTail ring src _ dst _ _ => below ring 8 && below src 86 && below dst 86
  | .error _ => true
  | .credit src dst _ => below src 86 && below dst 86
  | .nak src _ dst seq => below src 86 && below dst 86 && below seq 4096
  | .ctrlRetransmit src _ dst seq _ => below src 86 && below dst 86 && below seq 4096
  | .segmentFail ring stop _ _ => below ring 12 && below stop 86
  | .scrub pg _ _ => okPage pg
  | .correctionWriteback addr _ => below addr (2 ^ 48)
  | .poisonWrite addr requester _ => below addr (2 ^ 48) && below requester 16
  | .autoRowRetire pg _ => okPage pg
  | .tendRow by_ pg _ => okAgent by_ && okPage pg
  | .pinFail p _ => below p 128
  | .channelLoss p _ _ _ => below p 128
  | .bankLoss b _ _ => below b 32
  | .hostBar2Read f _ _ => below f 64
  | .hostBar2Write f _ _ => below f 64
  | .dmaRequest line _ _ _ => below line 256
  | .dmaBurst ch _ _ _ _ => below ch 64
  | .burstComplete ch => below ch 64
  | .dmaResume by_ ch => okAgent by_ && below ch 64
  | .dmaSkip by_ ch => okAgent by_ && below ch 64
  | .dmaReset by_ ch => okAgent by_ && below ch 64
  | .kick by_ ch => okAgent by_ && below ch 64
  | .slip by_ l => okAgent by_ && below l 64
  | .lockConfirm l _ => below l 64
  | .cdrLoss l => below l 64
  | .recalRx by_ l _ => okAgent by_ && below l 64
  | .recalTx by_ l => okAgent by_ && below l 64
  | .recalDone l _ _ => below l 64
  | .eyeMeasure by_ l _ _ => okAgent by_ && below l 64
  | .sweep by_ l count => okAgent by_ && below l 64 && below count 1024
  | .sweepDone l _ => below l 64
  | .txSleep by_ l _ => okAgent by_ && below l 64
  | .rxSleep by_ l _ => okAgent by_ && below l 64
  | .windowOpen l => below l 64
  | .windowWake l => below l 64
  | .schedCommit by_ o k => okAgent by_ && below o 8 && below k 2
  | .schedApply o k => below o 8 && below k 2
  | .rxFrame p sub _ _ => below p 64 && below sub 4
  | .txFrame p => below p 64
  | .uPlaneFrame f => below f 17
  | .earlyRelease f => below f 17
  | .rxWindowClose f _ _ => below f 17
  | .symbolComplete f _ _ => below f 17
  | .stagingNotice _ => true
  | .ringPoll f => below f 17
  | .cplane f => below f 17
  | .ready f => below f 17
  | .release f => below f 17
  | .egress f _ h => below f 17 && below h 2
  | .egressMissed f _ h => below f 17 && below h 2
  | .framerTakeover f how => okHow how && below f 17
  | .owdRequest f => below f 17
  | .owdResponse f => below f 17
  | .owdRemoteRequest f => below f 17
  | .frmRead by_ f => okAgent by_ && below f 17
  | .frmWrite by_ f => okAgent by_ && below f 17
  | .frmEnable by_ f => okAgent by_ && below f 17
  | .frmDisable by_ f => okAgent by_ && below f 17
  | .slew by_ _ => okAgent by_
  | .step by_ _ => okAgent by_
  | .stepApply => true
  | .ppsOut => true
  | .ppsIn sub => below sub 4
  | .todTx _ => true
  | .todRx msg => msg.length == 16
  | .ptpTx _ => true
  | .timedRequest t => below t 20
  | .genEnable by_ g _ => okAgent by_ && below g 64
  | .training n _ _ _ lanes => below n 8 && below lanes 256
  | .rvWrite n _ => below n 8
  | .rvEnqueue n _ => below n 8
  | .rvEvent n _ => below n 8
  | .replay n _ => below n 8
  | .replayTimeout n => below n 8
  | .retrain n => below n 8
  | .linkDown n => below n 8
  | .siltAdjust n _ _ => below n 8
  | .laneRemoved n lane => below n 8 && below lane 8
  | .laneAdded n lane => below n 8 && below lane 8
  | .swapReq by_ n => okAgent by_ && below n 8
  | .swapAck n _ _ => below n 8
  | .rvTcmdRead by_ n => okAgent by_ && below n 8
  | .rvTcmdWrite by_ n => okAgent by_ && below n 8
  | .perstN _ _ _ => true
  | .flr f => below f 64
  | .registerWrite by_ off _ _ aux => okAgent by_ && okHow aux.how && below off (2 ^ 28)
  | .pgIrqForce by_ pg _ => okAgent by_ && okPage pg
  | .pgOwner by_ pg _ => okAgent by_ && okPage pg
  | .mbxGo f => below f 64
  | .mbxServe aux _ => okHow aux.how
  | .qcbRead => true
  | .qcbWrite => true
  | .queueEnable => true
  | .queueDisable => true
  | .queueFlush => true
  | .handleBind _ => true
  | .handleRelease => true
  | .handleRead => true
  | .regRead => true
  | .regWrite aux => okHow aux.how
  | .poolWrite => true
  | .poolRead => true
  | .powerRead => true
  | .thermalRead => true
  | .bootStatus => true
  | .bootCommit => true
  | .flashWrite => true
  | .slotActivate => true
  | .partLoad => true
  | .wardUpdate => true
  | .rollbackAdvance => true
  | .deviceReset _ => true
  | .faultLogRead => true
  | .ringReturn _ => true
  | .ownerEnrol => true
  | .otpWrite _ => true
  | .rise by_ pg how => okAgent by_ && okHow how && okPage pg
  | .drain by_ pg => okAgent by_ && okPage pg
  | .tend by_ pg => okAgent by_ && okPage pg
  | .drainComplete pg => okPage pg
  | .resume by_ pg how => okAgent by_ && okHow how && okPage pg
  | .retire by_ pg how => okAgent by_ && okHow how && okPage pg
  | .retain by_ pg => okAgent by_ && okPage pg
  | .riseTimeout pg => okPage pg
  | .partFault pg reason detail _ => okPage pg && below reason 256 && below detail (2 ^ 24)
  | .serve by_ => okAgent by_
  | .rest by_ _ => okAgent by_
  | .restAbandon => true
  | .wake by_ => okAgent by_
  | .wakeN => true
  | .alarm => true
  | .ppsWake => true
  | .test by_ => okAgent by_
  | .leaveTest by_ => okAgent by_
  | .padRelease by_ groups => okAgent by_ && below groups 2048
  | .phaseOpen ph => below ph 64
  | .senseFail ph => below ph 64
  | .avsUpdate o _ _ _ _ _ => below o 8
  | .railFault o => below o 8
  | .thermalSample sensors hbms => sensors.length == 64 && hbms.length == 4
  | .thermalSafe sensor => below sensor 64
  | .thermtrip => true
  | .powerOn gpio => below gpio (2 ^ 16)
  | .powerOff => true
  | .resetN gpio => below gpio (2 ^ 16)
  | .aonPor gpio => below gpio (2 ^ 16)
  | .boot => true
  | .riseSequence pg how => okHow how && okPage pg
  | .imemData by_ k _ => okAgent by_ && okCore k
  | .imemCommit by_ k load images version res => okAgent by_ && okCore k && below load (2 ^ 16) && below version (2 ^ 16) && below images.length 9 && below res 3
  | .imgData by_ pg _ => okAgent by_ && okPage pg
  | .imgCommit by_ pg version res => okAgent by_ && okPage pg && below version (2 ^ 16) && below res 3
  | .debugStep by_ k => okAgent by_ && okCore k
  | .coreReload k how => okHow how && okCore k
  | .lockstepMismatch pair => below pair 2
  | .klnAcquire by_ => okAgent by_
  | .klnRelease by_ => okAgent by_
  | .xtsEnc by_ cmd => okAgent by_ && below cmd (2 ^ 14)
  | .xtsDec by_ cmd => okAgent by_ && below cmd (2 ^ 14)
  | .cmacGen by_ cmd => okAgent by_ && below cmd (2 ^ 14)
  | .cmacCheck by_ cmd => okAgent by_ && below cmd (2 ^ 14)
  | .lockLost => true
  | .autoRetire pg _ how => okHow how && okPage pg
  | .safe reason detail => below reason 256 && below detail (2 ^ 24)
  | .i3cRead _ => true
  | .sedRingCfg by_ r _ => okAgent by_ && below r 8
  | .prbCtrl by_ n _ => okAgent by_ && below n 32
  | .cdrLock l => below l 64
  | .alignLock l tx rx => below l 64 && below tx (2 ^ 20) && below rx (2 ^ 20)
  | .refOk o _ _ _ => below o 8
  | .registerRead by_ off _ => okAgent by_ && below off (2 ^ 28)
  | .configRequest f req => okReq req && below f 64
  | .linkReset => true
  | .cpriUnderrun b => below b 32
  | .hyperframe p _ sub => below p 64 && below sub 4

end Sys2Proof
end

