-- ==== Sys2Proof/Tests/Slice0.lean ====
section
/-!
SUPPORT. Sys2Proof/Tests/Slice0.lean: concrete states and operands that meet the hypotheses of every obligation (witness_…), and small
tests of results that the manual or its rules give by hand calculation (test_…).
-/
namespace Sys2Proof.Tests
set_option Elab.async false
open Sys2Proof Sys2Proof.Machine Sys2Proof.Safety

/-- The pages' parts are READY. -/
def ready (s : State) (ps : List Page) : State := ps.foldl (fun s p => s.setFld p.home Reg.PG_STATE 0 4 stReady) s
/-- A core that runs a task. -/
def runCore : Core := { Core.reset with run := .running }
/-- Core 0 and the first clod memory are READY. -/
def alive : State := ready State.reset [⟨.coreCtl, 0⟩, ⟨.clod, 0⟩]
/-- Core 0 runs. -/
def run0 : State := alive.setCore 0 runCore
/-- Core 0 runs with what `f` changes. -/
def runWith (f : Core → Core) : State := alive.setCore 0 (f runCore)
/-- A core that runs with pre-emption allowed. -/
def openCore : State := runWith fun c => { c with stat := 0x05 }


/-! ### Witnesses: states and operands that meet the hypotheses of the statements, clause by clause -/

theorem witness_ScalarAluResults : coreFree run0 0 = true ∧ (31 : BitVec 14).toNat < 32 ∧ 32 ≤ (32 : BitVec 14).toNat := by
  decide +kernel

/-- Core 0 with g1 = 4, not a bundle address. -/
def oddJump : State := runWith fun c => { c with g := c.g.set 1 4 }
theorem witness_BranchResults : coreFree run0 0 = true ∧ (run0.core 0).br = none ∧ inLoopTail (run0.core 0) = false ∧
    (((32 : Nat) : Int) = (run0.core 0).pc + 16 * (2 : BitVec 15).toInt ∧ (32 : Nat) < 65536) ∧
    ((readG (run0.core 0) 1).toNat % 16 = 0 ∧ (readG (run0.core 0) 1).toNat < 65536) ∧ coreFree oddJump 0 = true ∧
    (readG (oddJump.core 0) 1).toNat % 16 ≠ 0 := by decide +kernel
theorem witness_DelaySlots : runCore.br = none ∧ loopNext runCore = (runCore, (runCore.pc + 16) % 65536) := by decide +kernel
/-- Core 0 in the last bundle of loop 1, whose count is `n`, with loop 0 of count `m` ending there too. -/
def atLoopEnd (n m : Word) : State :=
  runWith fun c => { c with stat := 0x05, pc := 64, lc1 := n, lb1 := 16, le1 := 64, lc0 := m, lb0 := 32, le0 := 64 }
theorem witness_PlacementRules :
    coreFree (runWith fun c => { c with br := some (2, some 0) }) 0 = true ∧
    ((runWith fun c => { c with br := some (2, some 0) }).core 0).br.isSome = true ∧
    coreFree (atLoopEnd 2 0) 0 = true ∧ inLoopTail ((atLoopEnd 2 0).core 0) = true := by decide +kernel
theorem witness_LoopSetup : coreFree run0 0 = true ∧ (run0.core 0).br = none := by decide +kernel
theorem witness_LoopBackEdge : (∀ n ∈ [2, 1, 0], ∀ m ∈ [2, 1, 0],
    let s := atLoopEnd (BitVec.ofNat 32 n) (BitVec.ofNat 32 m)
    coreFree s 0 = true ∧ (s.core 0).br = none ∧ bitOf (s.core 0).stat.toNat 2 = true ∧ (s.core 0).pend = [] ∧
    bitOf (s.core 0).stat.toNat 0 = true ∧ (s.core 0).maskSince = none ∧ s.fld ⟨.coreDbg, 0⟩ Reg.GVI_DBG_BKPT 0 1 = 0 ∧
    (s.core 0).pc = (s.core 0).le1.toNat ∧ (s.core 0).pc = (s.core 0).le0.toNat) := by decide +kernel
theorem witness_ControlRegisters : coreFree run0 0 = true ∧ readCtl (run0.core 0) 0x10 = some 0x40 ∧
    readCtl (run0.core 0) 0x3F = none ∧ bitOf (run0.core 0).stat.toNat 1 = false ∧
    bitOf ((runWith fun c => { c with stat := 2 }).core 0).stat.toNat 1 = true := by decide +kernel
theorem witness_ExceptionEntry : (run0.core 0).pend = [] ∧ bitOf (run0.core 0).stat.toNat 1 = false := by decide +kernel
/-- Core 0 runs, and the fabric pre-empts it. -/
def preempted (stat : Word) : State :=
  { runWith fun c => { c with stat := stat } with fab := { Fabric.reset with preempting := [(7, 0)] } }
/-- Core 0 has been masked since AIRTIME 0 and 4,096 Tc have passed. -/
def overrun : State := { runWith fun c => { c with maskSince := some 0 } with airtime := 4096 }
theorem witness_CoreEvents : (∀ st ∈ [5, 0], let s := preempted (BitVec.ofNat 32 st)
      (s.core 0).run = .running ∧ (s.core 0).pend = [] ∧ s.fab.preempting.any (fun p => p.2 == 0) = true ∧ (s.core 0).br = none ∧
      (s.core 0).halted = false ∧ s.fld ⟨.coreDbg, 0⟩ Reg.GVI_DBG_BKPT 0 1 = 0) ∧
    ((preempted 5).core 0).stat.getLsbD 0 = true ∧ ((preempted 0).core 0).stat.getLsbD 0 = false ∧
    (overrun.core 0).maskSince = some 0 ∧ 0 + 4096 ≤ overrun.airtime := by decide +kernel
theorem witness_TrapAndReturn : coreFree run0 0 = true ∧ (run0.core 0).br = none ∧ (run0.core 0).pend = [] ∧
    bitOf (run0.core 0).stat.toNat 1 = false := by decide +kernel

/-- A task that core 0 runs. -/
def task0 : Item where
  sn := 7
  q := 3
  words := List.replicate 16 0
  fn := 0
  issuer := .notify
  kind := .block
  phase := .dispatched
  readyAt := 0
  ev := none
  taskid := 9
  exec := some (.core 0)
  tStart := 0
  runTc := 0
  save := none
  wait := none
  inWait := false
  heldEv := []
  cmdFail := false
  ended := none
  freed := false
  handles := []
  bindWait := false
  blocked := false
  heldRec := false
  rerun := false
  fetchEnded := false
  started := false
  avoid := none
/-- Core 0 runs `task0`, with what `f` changes of the core and `g` of the task. -/
def taskOn (f : Core → Core) (g : Item → Item) : State :=
  { runWith (fun c => f { c with taskid := 9 }) with fab := { Fabric.reset with items := [g task0], nextSn := 8 } }
theorem witness_TerminalCause : (taskOn id id).coreItem 0 = some task0 := by decide +kernel
/-- Core 0 with g1 the base of its own data memory. -/
theorem witness_CoreMemory : run0.mem.wf = true ∧ run0.links.rv = [] ∧ ownData 0 (coreMemBase + 64) = true ∧
    (run0.region (coreMemBase + 64)).isLine = false := by decide +kernel


theorem witness_ScalarLoadsAndStores : coreFree run0 0 = true := by decide +kernel
theorem witness_DoubleAndFarAccesses : coreFree run0 0 = true ∧ (2 : GReg).toNat % 2 = 0 ∧ (3 : GReg).toNat % 2 = 1 := by
  decide +kernel
theorem witness_CoreStoreEffect : run0.mem.wf = true ∧ run0.links.rv = [] ∧
    (ownData 0 (coreMemBase + 64) = true ∧ (run0.region (coreMemBase + 64)).isLine = false) ∧
    (∀ i, i < 4 → run0.serve (coreMemBase + 64 + i) = Serve.yes) ∧
    (ownData 1 (coreMemBase + 64) = false ∧ (run0.core 1).sg.length < 16) := by decide +kernel
theorem witness_CoreLoadEffect : ownData 0 (coreMemBase + 64) = true ∧ ownData 0 (coreMemBase + 67) = true ∧ (run0.core 0).sg = [] ∧
    (∀ i, i < 4 → run0.readsBad (coreMemBase + 64 + i) = false) ∧
    { run0 with mem := { run0.mem with poison := [coreMemBase + 64] } }.readsBad (coreMemBase + 64) = true := by decide +kernel
theorem witness_BlocksAndImages : coreFree run0 0 = true ∧ (1 : BitVec 16).getLsbD 15 = false ∧
    (0x8000 : BitVec 16).getLsbD 15 = true ∧
    (nearCheck run0 0 (nearEa (run0.core 0) 0 64) 64 4).toOption = some ((coreMemBase + 64)) ∧
    ((crestRead 0 (coreMemBase + 64) (blockWords 1) (taken run0 0)).2).isSome = true := by decide +kernel
/-- Core 0 with one store gathered for the deep buffer, whose banks are READY. -/
def gathered : State :=
  (ready State.reset ((List.range 32).map fun b => ⟨.dbBank, b⟩)).setCore 0 { runCore with sg := [⟨deepBase, [(0, 1)]⟩] }
theorem witness_GatherDrain : (gathered.core 0).sg[0]? = some ⟨deepBase, [(0, 1)]⟩ ∧ gathered.serve deepBase = .yes ∧
    (gathered.core 0).sg.length ≤ 16 := by decide +kernel
theorem witness_TaskEnds : (∀ st ∈ [0, 1, 2], let s := taskOn (fun c => { c with stat := BitVec.ofNat 32 st }) id
      coreFree s 0 = true ∧ (s.core 0).pend = [] ∧ (s.core 0).br = none ∧ (s.core 0).sg.length ≤ 16 ∧
      s.coreItem 0 = some task0) ∧
    (1 : Word).getLsbD 0 = true ∧ (2 : Word).getLsbD 1 = true ∧ (0 : Word).getLsbD 0 = false ∧ (0 : Word).getLsbD 1 = false := by
  decide +kernel
/-- Core 0 runs with interrupts allowed; queue 3 takes commands of class 2 from function 0. -/
def pushing : State := runWith fun c => { c with stat := 0x05, g := c.g.set 1 0x400000 }
theorem witness_Pushes : coreFree pushing 0 = true ∧ (pushing.core 0).stat.getLsbD 0 = true ∧ (pushing.core 0).pushRes = none ∧
    heldBy pushing 0 = false ∧ (nearCheck pushing 0 (readG (pushing.core 0) 0).toNat 64 64).toOption = some coreMemBase ∧
    (settleCore (taken pushing 0) 0).readWords coreMemBase 16 = some (List.replicate 16 0) ∧
    (pushAddr (taken pushing 0) 0 1 false).toOption = some clodMemBase ∧ (pushing.core 0).tagsOut.length < 256 ∧ isSvc 0 = false := by
  decide +kernel
/-- Core 0 runs `task0`, whose wait list at address 0 of its memory is one entry of zeros; an event is held for it or not. -/
def waiting (h : List DWord) : State := taskOn (fun c => { c with stat := 5 }) fun t => { t with heldEv := h }
theorem witness_WaitForEvents : (∀ n ∈ [0, 1], let s := waiting (List.replicate n 0)
    coreFree s 0 = true ∧ (s.core 0).stat.getLsbD 0 = true ∧ s.coreItem 0 = some { task0 with heldEv := List.replicate n 0 } ∧
    s.item? 7 = some { task0 with heldEv := List.replicate n 0 } ∧
    (nearCheck s 0 (readG (s.core 0) 0).toNat 16 16).toOption = some (coreMemBase) ∧
    (coreLoad (taken s 0) 0 coreMemBase 16).2 = some (List.replicate 16 0) ∧
    (drainHeld ⟨0, [[0, 0, 0, 0]], false, []⟩ (List.replicate n 0)).1.met = decide (n = 1)) ∧ dDeadline task0.words = 0 := by
  decide +kernel
theorem witness_VectorMemory : coreFree run0 0 = true ∧ (farAddr (run0.core 0) 0 0).toOption = some 0 ∧
    (let c := (runWith fun c => { c with vtype := 0x97 }).core 0; vET c = 7 ∧ 1 ≤ vN c ∧ vN c ≤ 16) ∧
    vET (run0.core 0) ≠ 7 ∧ vET (run0.core 0) < 7 := by decide +kernel
theorem witness_VectorOpsIssue : coreFree run0 0 = true := by decide +kernel
theorem witness_IntegerVectorResults : vET ((runWith fun c => { c with vtype := 0x101 }).core 0) ≤ 2 := by decide +kernel
theorem witness_AccumulatorsAndComplexMac : coreFree run0 0 = true ∧ vET (run0.core 0) = 5 ∧ vWrap (run0.core 0) = false := by
  decide +kernel


/-- Every deep-buffer bank is READY, and so is what `ps` lists. -/
def deepUp (ps : List Page) : State := ready State.reset (((List.range 32).map fun b => ⟨.dbBank, b⟩) ++ ps)
/-- A command of the deep buffer's first address, placed on instance 0 of its class, with deadline `dl`. -/
def cmdItem (cls : Nat) (kind : CmdKind) (dl : Word) : Item := { task0 with
  words := [1, 0, dl, 0, 0, 0, 0, 0, 0, 0, 0, 0, 0, 3, 0, 0]
  kind := kind
  issuer := .core 0 9 5
  exec := some (.engine cls 0) }
/-- Instance 0 of a class with a command at the front of its window and the block `bs` in memory. -/
def engState (cls : Nat) (kind : CmdKind) (dl : Word) (bs : List Byte) : State :=
  let s := deepUp [engPage cls 0]
  { s with
    airtime := 100
    mem := { s.mem with cells := memPuts [] deepBase bs }
    fab := { s.fab with items := [cmdItem cls kind dl], nextSn := 8, qcbs := [(3, ⟨[BitVec.ofNat 32 (16 * cls), 0, 0, 0, 0, 0], false⟩)] }
    tilth := { s.tilth with windows := [(4096 * cls, [7])] } }
theorem witness_EngineRow : ∀ cls ∈ [1, 2, 3, 5, 6, 7, 8], let s := engState cls .block 0 []
    s.engOn cls 0 = true ∧ s.engHead cls 0 = some (cmdItem cls .block 0) ∧ (cmdItem cls .block 0).kind = .block := by decide +kernel
theorem witness_EngineHeader :
    (let s := engState 2 .block 0 []
     dDeadline (cmdItem 2 .block 0).words = 0 ∧ s.read deepBase 32 = .ok (List.replicate 32 0) ∧ headOk 2 (List.replicate 32 0) = false) ∧
    (dDeadline (cmdItem 2 .block 50).words ≠ 0 ∧ dDeadline (cmdItem 2 .block 50).words ≤ (engState 2 .block 50 []).airtime) ∧
    (let h : List Byte := [1, 2, 4, 0, 0, 0, 0, 0, 50] ++ List.replicate 23 0
     (engState 2 .block 0 h).read deepBase 32 = .ok h ∧ headOk 2 h = true ∧ ofLe ((h.drop 8).take 8) = 50) ∧
    (let h : List Byte := [9, 2, 4] ++ List.replicate 29 0
     (engState 2 .block 0 h).read deepBase 32 = .ok h ∧ headOk 2 h = true ∧ (9, 4) ∉ engOps 2) ∧
    (State.reset.read deepBase 32 = .access) ∧
    (let s := engState 2 .block 0 []
     ({ s with mem := { s.mem with poison := [deepBase] } }.read deepBase 32 = .poison deepBase)) := by decide +kernel
theorem witness_EngineCompletion : (cmdItem 2 .block 0).issuer = .core 0 9 5 ∧ ((engState 2 .block 0 []).core 0).waiting = false ∧
    (engState 2 .block 0 []).item? 7 = some (cmdItem 2 .block 0) ∧ ((engState 2 .block 0 []).qcb 3).cls = 2 := by decide +kernel

/-- An FDC with a receive channel resident and a block of opcode `op` at the front of its window. -/
def fdcState (op : Byte) (rest : List Byte) : State :=
  { engState 4 .block 0 ([op, 4, 2, 0, 7, 0, 1, 0] ++ List.replicate 24 0 ++ rest) with ctxs := [⟨4, 0, 0, 0, 7, 64, []⟩] }
/-- The block that an FDC takes up, and its context. -/
def fdcBlock (s : State) (op : Nat) : Option (List Byte × Ctx) :=
  match s.fdcTurn 0 7 op with
  | some (_, .go b (some c)) => some (b, c)
  | _ => none
/-- A FILTER of one sample. -/
def filterOne : State := fdcState 1 (List.replicate 40 0 ++ [1])
theorem witness_FilterCommands :
    (fdcBlock filterOne 1).map (fun x => filterOk x.1) = some true ∧
    (fdcBlock (fdcState 1 []) 1).map (fun x => filterOk x.1) = some false ∧
    (fdcBlock (fdcState 2 []) 2).map (fun x => (controlOk x.1 x.2, bF x.1 0x30 4 1, bQ x.1 0x28)) = some (true, 0, 0) ∧
    (fdcBlock (fdcState 2 (List.replicate 16 1)) 2).map (fun x => controlOk x.1 x.2) = some false ∧
    (let s := fdcBegin filterOne 0 7
     s.engOn 4 0 = true ∧ (s.fdcNext 0).map (fun x => (x.1.sn, x.1.reqWait)) = some (7, false)) := by decide +kernel


/-! Contexts and the HARQ scan -/

/-- An instance of a class with a save or restore at the front of its window, and the contexts `cs`. -/
def ctxState (cls : Nat) (kind : CmdKind) (dl : Word) (bs : List Byte) (cs : List Ctx) : State :=
  { engState cls kind dl bs with ctxs := cs }
/-- The least FDC context: one tap, one decimation. -/
def fdcImage : List Byte := [0, 1, 1, 0] ++ List.replicate 2044 0
/-- A saved FDC context 1 as it lies in memory. -/
def fdcSaved : List Byte := [1, 0, 4, 0, 32] ++ List.replicate 59 0 ++ fdcImage.take 4
theorem witness_ContextCommands :
    (∀ keep ∈ [true, false], ∀ cs ∈ [[], [(⟨4, 0, 0, 0, 1, 64, []⟩ : Ctx)]],
      let s := ctxState 4 (.esave keep) 0 [1] cs
      s.engTurn 4 0 7 = some (cmdItem 4 (.esave keep) 0) ∧ s.read deepBase 4 = .ok [1, 0, 0, 0] ∧
      s.ctxHere 4 0 0 1 = cs.head? ∧
      (s.emit [(deepBase, leBytes 4 (1 + 2 ^ 16 * 4) ++ leBytes 4 1 ++ leBytes 56 0 ++ memGets [] 0 64)]).2 = true) ∧
    (let s := ctxState 2 (.esave true) 0 [] []
     s.engTurn 2 0 7 = some (cmdItem 2 (.esave true) 0) ∧ ctxSlots 2 = 0 ∧ ctxSlots 4 ≠ 0) ∧
    (let s := ctxState 4 .erest 50 [] []
     s.engTurn 4 0 7 = some (cmdItem 4 .erest 50) ∧ s.item? 7 = some (cmdItem 4 .erest 50) ∧ dKind (cmdItem 4 .erest 50).words = 1 ∧
     dDeadline (cmdItem 4 .erest 50).words = 50 ∧ 50 ≤ s.airtime) := by decide +kernel
set_option maxRecDepth 40000 in
theorem witness_ContextCommands_erest :
    (let s := ctxState 4 .erest 0 fdcSaved []
     s.engTurn 4 0 7 = some (cmdItem 4 .erest 0) ∧ s.read deepBase 64 = .ok (fdcSaved.take 64) ∧
     bF (fdcSaved.take 64) 0 16 16 = 4 ∧ bZero (fdcSaved.take 64) 8 56 = true ∧ 64 * bW (fdcSaved.take 64) 4 = 2048 ∧
     s.read (deepBase + 64) 2048 = .ok fdcImage ∧ imageOk 4 2048 fdcImage = true) := by decide +kernel

/-- A HARQ directory of one entry in the deep buffer; the entry's soft buffer lies at `lo`, `hi`. -/
def harqState (st : Nat) (lo hi : Word) : State :=
  let s := deepUp [pgHqd]
  let s := (s.setReg64 pgHqd Reg.HQD_BASE_LO deepBase).setFld pgHqd Reg.HQD_ENTRIES 0 17 1
  let s := s.setReg pgMem Reg.MEM_HBM_MAP 0
  { s with mem := { s.mem with cells := memPuts [] deepBase (wordBytes [BitVec.ofNat 32 st, 1, lo, hi, 64, 0, 1]) } }
/-- The words of the entry. -/
def harqWords (st : Nat) (lo hi : Word) : List Word := [BitVec.ofNat 32 st, 1, lo, hi, 64, 0, 1] ++ List.replicate 9 0
theorem witness_HarqScanMarks :
    (deepUp [pgHqd]).ready pgHqd = true ∧ (deepUp [pgHqd]).serving ⟨.hbmPc, 127⟩ = false ∧
    (deepUp [pgHqd]).fld pgHqd Reg.HQD_ENTRIES 0 17 = 0 ∧
    (let s := harqState 1 0x100 3
     s.ready pgHqd = true ∧ s.serving ⟨.hbmPc, 0⟩ = false ∧ s.fld pgHqd Reg.HQD_ENTRIES 0 17 = 1 ∧
     (s.hqEntry 0).toOption = some (harqWords 1 0x100 3) ∧
     (∀ r, r < 160 → hqStored (harqWords 1 0x100 3) r = true → s.region (deepBase + 0x100 + r * 64) ≠ .hbmLocal 0)) ∧
    (let s := harqState 1 0 16
     s.ready pgHqd = true ∧ s.serving ⟨.hbmPc, 0⟩ = false ∧ s.fld pgHqd Reg.HQD_ENTRIES 0 17 = 1 ∧
     (s.hqEntry 0).toOption = some (harqWords 1 0 16) ∧ hqValid (harqWords 1 0 16) = true ∧ hqStored (harqWords 1 0 16) 0 = true ∧
     wfld (harqWords 1 0 16) 5 31 1 = 0) := by decide +kernel
/-- With no interleaved and no mirrored window, HBM begins with pseudo-channel 0, whatever the capacity. -/
theorem region_hbmBase (s : State) (h : s.reg pgMem Reg.MEM_HBM_MAP = 0) : s.region hbmBase = .hbmLocal 0 := by
  have hp : 0 < pcCap := by unfold pcCap; split <;> decide
  simp [State.region, State.hbmRegion, State.intl, State.mir, State.reloc, State.fld, h, bitsOf, hbmBase, coreMemBase,
    clodMemBase, deepBase, regsBase, hp]
theorem witness_HarqScanMarks_channel : (harqState 1 0 16).region ((16 : Nat) * 2 ^ 32) = .hbmLocal 0 :=
  region_hbmBase _ (by decide +kernel)

/-! Queues and holds -/

/-- The QCB of a CORE queue of function 0 with depth 2: OVERFLOW `ov`, ORDER 0, enabled or not. -/
def qcbOf (ov en : Nat) : Qcb := ⟨[BitVec.ofNat 32 (ov * 2 ^ 8 + en * 2 ^ 18), 2, 0, 0, 0, 0], false⟩
/-- The fabric and Tilth are READY, and queue 3 has this QCB and these items. -/
def fabState (c : Qcb) (items : List Item) : State :=
  let s := ready State.reset [pgFabric, pgTilth, ⟨.coreCtl, 0⟩]
  { s with airtime := 100, fab := { s.fab with qcbs := [(3, c)], items := items, nextSn := 20, nextReady := 20 } }
/-- An item on queue 3 in a phase. -/
def itemIn (ph : Phase) (sn : Nat) (w : List Word) : Item :=
  { task0 with phase := ph, sn := sn, exec := none, taskid := 0, readyAt := sn, words := w }
/-- A TASK descriptor of sixteen zero words but for its deadline. -/
def taskWords (dl : Word) : List Word := [0, 0, dl] ++ List.replicate 13 0
/-- Two queued descriptors: queue 3 is full. -/
def fullItems : List Item := [itemIn .queued 1 (taskWords 0), itemIn .queued 2 (taskWords 0)]
theorem witness_EnqueueOutcomes : (∀ ov ∈ [0, 1], ∀ its ∈ [[], fullItems],
      let s := fabState (qcbOf ov 1) its
      s.fabOn = true ∧ isSvc 3 = false ∧ (taskWords 0).length = 16 ∧ (s.qcb 3).enabled = true ∧ (s.qcb 3).owner = 0 ∧
      kindAccepted (s.qcb 3).cls (dKind (taskWords 0)) = true ∧ (s.qcb 3).overflow = ov ∧ (s.qcb 3).noteEn = false ∧
      s.fullFor 3 (taskWords 0) = !its.isEmpty) ∧
    ((fabState (qcbOf 0 0) []).qcb 3).enabled = false ∧ kindAccepted 0 1 = false := by decide +kernel
/-- A descriptor held at queue 3. -/
def hold3 : Held := ⟨3, 0, taskWords 0, .notify, .block, .other⟩
/-- A state with the hold. -/
def heldState (en : Nat) (its : List Item) : State :=
  let s := fabState (qcbOf 0 en) its
  { s with fab := { s.fab with held := [hold3] } }
theorem witness_StallEndOutcomes : ∀ en ∈ [0, 1], ∀ its ∈ [[], fullItems], let s := heldState en its
    s.fabOn = true ∧ s.fab.held.find? (fun x => x.q == 3) = some hold3 ∧ hold3.who = .other ∧ (s.qcb 3).enabled = (en == 1) ∧
    s.fullFor 3 hold3.words = !its.isEmpty := by decide +kernel

/-- Tasks 9 in the phases in which an ABORT acts. -/
theorem witness_ServiceDescriptors :
    (let s := fabState (qcbOf 0 1) []
     s.fabOn = true ∧ s.fab.groups.length < 4096 ∧ s.fab.groups.any (fun g => g.fn == 0 && g.group == 1) = false) ∧
    ({ fabState (qcbOf 0 1) [] with fab := { Fabric.reset with groups := [⟨0, 1, 0, false, false⟩] } }.fab.groups.any
      (fun g => g.fn == 0 && g.group == 1) = true) ∧
    ((0x80000000 : Word).toNat = 0x80000000 ∧ (0x7FFFFFFF : Word).toNat < 0x80000000) ∧
    (∀ ph ∈ [Phase.dispatched, .suspended], let s := fabState (qcbOf 0 1) [{ task0 with phase := ph }]
      s.task? 9 = some { task0 with phase := ph } ∧ dKind task0.words = 0 ∧ task0.fn = 0) := by decide +kernel

/-- Events on their way: one to a task, one to a task that is gone, one to a queue. -/
def evState : State :=
  let s := fabState (qcbOf 0 1) [{ task0 with exec := some (.core 0) }]
  { s with fab := { s.fab with evs := [⟨1, .task 9⟩, ⟨2, .task 8⟩, ⟨3, .queue 3 []⟩] } }
theorem witness_EventDelivery : evState.fabOn = true ∧
    (∀ n, n < 3 → ∀ e, evState.fab.evs[n]? = some e → ∀ x ∈ evState.fab.evs.take n,
      ¬(x.word.toNat / 2 ^ 44 % 2 ^ 20 = e.word.toNat / 2 ^ 44 % 2 ^ 20 ∧ x.dest = e.dest)) ∧
    evState.fab.evs.map (·.dest) = [.task 9, .task 8, .queue 3 []] ∧ evState.task? 9 = some task0 ∧ evState.task? 8 = none ∧
    task0.phase ≠ .completed ∧ task0.wait = none ∧ (evState.core 0).waiting = false := by decide +kernel
theorem witness_TriggerRelease : let it := itemIn .armed 1 (taskWords 0)
    let s := fabState (qcbOf 0 1) [it]
    (s.qcb it.q).overflow ≠ 2 ∧ s.item? it.sn = some it ∧ it.words.length = 16 ∧ (s.qcb it.q).order = 0 ∧ s.links.rv = [] := by
  decide +kernel


/-! Dispatch, release, pre-emption, shedding and aborts -/

/-- A pool record: VALID, owner 0, shedding enabled, holding logical core 0 and the instances `sets` of words 1 to 4. -/
def poolRec (sets : List Word) : List Word := [0x10081] ++ sets ++ List.replicate (23 - sets.length) 0
/-- Core 0 is READY and idle, holds logical number 0 and image 0, and belongs to pool 0; queue 3 holds `items`. -/
def dispState (c : Qcb) (items : List Item) : State :=
  let s := fabState c items
  let s := s.setFld (pgCore 0) Reg.GVC_IDENT 0 9 0x100
  let s := s.setFld ⟨.coreDbg, 0⟩ Reg.GVI_LOAD 16 5 0x11
  { s with airtime := 0, tilth := { s.tilth with pools := [(0, poolRec [])] } }
/-- A ready task, and one pinned to a core that does not exist. -/
def readyTask : Item := itemIn .ready 1 (taskWords 0)
def badTask : Item := itemIn .ready 1 ([0x0E000100, 0, 0] ++ List.replicate 13 0)
theorem witness_Dispatching :
    (let s := dispState (qcbOf 0 1) [readyTask]
     s.item? 1 = some readyTask ∧ s.fabOn = true ∧ s.tilthOn = true ∧ s.freeTid 9 = true ∧ s.quiet = false ∧
     s.failsPinned readyTask = false ∧ s.selected readyTask (.core 0) = true ∧ s.chosen readyTask (.core 0) = true ∧
     dPreemptible readyTask.words = false ∧ (s.qcb readyTask.q).abortLate = false) ∧
    (let s := dispState (qcbOf 0 1) [badTask]
     s.item? 1 = some badTask ∧ s.fabOn = true ∧ s.tilthOn = true ∧ s.freeTid 9 = true ∧ s.quiet = false ∧
     s.failsPinned badTask = true) ∧
    (let it := itemIn .ready 1 ([0x20, 0, 0] ++ List.replicate 13 0)
     let s := dispState (qcbOf 0 1) [it]
     s.selected it (.core 0) = true ∧ s.chosen it (.core 0) = true ∧ dPreemptible it.words = true ∧ 3 ∉ s.savesUsed 0) := by
  decide +kernel

/-- A task that has ended with STATUS 0, and its descriptor's CHAIN bit with a chained descriptor at the deep buffer's start. -/
def endedTask (chain : Bool) (freed : Bool) : Item :=
  { task0 with
    phase := .completed
    ended := some ⟨true, 0⟩
    freed := freed
    words := if chain then [0x40, 0, 0, 0, 0, 0, 0, 0, 0, 3, 5, 0, 0, 0, 0, 0] else taskWords 0 }
/-- Queue 3 holds the ended task; queue 5, enabled or not, of depth `d`, takes the chained descriptor. -/
def chainState (it : Item) (en d : Nat) : State :=
  let s := ready (fabState (qcbOf 0 1) [it]) ((List.range 32).map fun b => ⟨.dbBank, b⟩)
  s.setQcb 5 ⟨[BitVec.ofNat 32 (en * 2 ^ 18), BitVec.ofNat 32 d, 0, 0, 0, 0], false⟩
theorem witness_TaskRelease :
    (∀ chain ∈ [true, false], let it := endedTask chain false
      let s := chainState it 1 1
      s.task? 9 = some it ∧ s.fabOn = true ∧ s.mayRelease it = true ∧ it.freed = false ∧ it.chains = chain) ∧
    (let it := endedTask true true
     it.phase = .completed ∧ it.freed = true ∧ it.chains = true ∧
     ∀ x ∈ [(1, 1, Enq.accepted), (1, 0, Enq.held), (0, 1, Enq.refused)], let s := chainState it x.1 x.2.1
       s.fab.held.any (fun h => h.who == .chain it.sn) = false ∧ s.task? 9 = some it ∧
       s.readFor (s.qcb it.q).owner (dChainAddr it.words) 16 = some (List.replicate 16 0) ∧ dChainQ it.words = 5 ∧
       (s.enqueue 5 (s.qcb it.q).owner (List.replicate 16 0) .notify .block (.chain it.sn) true).2 = x.2.2) := by decide +kernel

/-- Core 0 runs a PREEMPTIBLE task of queue 4, level 4; a task of queue 3, level 0, waits with PREEMPTS. -/
def preState : State :=
  let run : Item := { task0 with q := 4, words := [0x20, 0, 0] ++ List.replicate 13 0 }
  let s := dispState ⟨[0xC0000, 2, 0, 0, 0, 0], false⟩ [readyTask, run]
  ((s.setQcb 4 ⟨[0x40004, 2, 0, 0, 0, 0], false⟩).setCore 0 { runCore with taskid := 9 })
/-- Core 0 is free and has a suspended task. -/
def resState : State :=
  let s := dispState (qcbOf 0 1) [{ task0 with phase := .suspended }]
  s.setCore 0 { Core.reset with suspended := [9] }
theorem witness_PreemptAndResume :
    (preState.fabOn = true ∧ preState.quiet = false ∧ preState.tilthOn = true ∧ preState.item? 1 = some readyTask ∧
     readyTask.phase = .ready ∧ readyTask.blocked = false ∧ (preState.qcb readyTask.q).cls = 0 ∧
     (preState.qcb readyTask.q).preempts = true ∧ (∀ j ∈ preState.readyItems 0, preState.before j readyTask = false) ∧
     (∀ x ∈ classExecs 0, ¬(preState.execFree x = true ∧ preState.eligible readyTask x = true)) ∧
     preState.victimOf readyTask 0 = some (4, 0) ∧
     (∀ n, n < 272 → n ≠ 0 → preState.victimOf readyTask n = none) ∧ preState.fab.preempting = []) ∧
    (resState.fabOn = true ∧ resState.quiet = false ∧ resState.bestSuspended 0 = some { task0 with phase := .suspended } ∧
     resState.serving (pgCore 0) = true ∧ resState.execFree (.core 0) = true ∧ resState.readyItems 0 = []) := by decide +kernel

/-- An item of a phase with deadline 50 on a DROP_LATE queue of level 4, at AIRTIME 100; pool 0 sheds on slack. -/
def shedState (ph : Phase) : State :=
  let s := fabState ⟨[0x40204, 2, 0, 0, 0, 0], false⟩ [itemIn ph 1 (taskWords 50)]
  { s with tilth := { s.tilth with pools := [(0, [0x81] ++ List.replicate 23 0)] } }
theorem witness_Shedding : (∀ ph ∈ [Phase.ready, .armed], let it := itemIn ph 1 (taskWords 50)
      let s := shedState ph
      s.item? 1 = some it ∧ s.fabOn = true ∧ it.rerun = false ∧ (s.qcb it.q).overflow = 2 ∧ dDeadline it.words = 50 ∧
      dDeadline it.words < s.airtime + 64 * dRunEst it.words) ∧
    (let it := itemIn .ready 1 (taskWords 50)
     let s := shedState .ready
     s.tilthOn = true ∧ 4 ≤ (s.qcb it.q).level ∧ poolShedEn (s.pool (s.qcb it.q).pool) = true ∧ s.slackOverrun it = some 50) := by
  decide +kernel

/-- Core 0 runs or has suspended task 9, whose deadline or run limit has passed; queue 3 has ABORT_LATE. -/
def lateState (it : Item) : State := { fabState ⟨[0x140000, 2, 0, 0, 0, 0], false⟩ [it] with airtime := 2000 }
/-- A wait group whose one member waits for an event of a framer that is not READY. -/
def deadState : State :=
  let m : Item := { task0 with
    words := [0, 0, 0, 0, 0, 0, 0, 1] ++ List.replicate 8 0
    inWait := true
    wait := some ⟨0, [[0, 0, 0x2000]], false, []⟩ }
  let s := fabState (qcbOf 0 1) [m]
  { s with fab := { s.fab with groups := [⟨0, 1, 0, false, false⟩] } }
theorem witness_Aborts :
    (let it : Item := { task0 with words := taskWords 50, inWait := true }
     let s := lateState it
     s.task? 9 = some it ∧ s.fabOn = true ∧ dKind it.words = 0 ∧ it.phase = .dispatched ∧ dDeadline it.words = 50 ∧ 50 ≤ s.airtime) ∧
    (∀ ph ∈ [Phase.dispatched, .suspended], let it : Item := { task0 with words := taskWords 50, phase := ph }
      let s := lateState it
      s.task? 9 = some it ∧ (s.qcb it.q).abortLate = true ∧ it.inWait = false) ∧
    (let it : Item := { task0 with words := List.replicate 11 0 ++ [1, 0, 0, 0, 0] }
     let s := lateState it
     s.task? 9 = some it ∧ dRunLimit it.words = 1 ∧ 1024 * 1 ≤ it.runTc + (s.airtime - it.tStart)) ∧
    (deadState.fab.groups.find? (fun x => x.fn == 0 && x.group == 1) = some ⟨0, 1, 0, false, false⟩ ∧
     deadState.deadlocked ⟨0, 1, 0, false, false⟩ = true ∧ deadState.fabOn = true) := by decide +kernel


/-! The host's paths, and the windows of the fabric and of Tilth -/

/-- The link is up and the PF may master the bus; the fabric and Tilth are READY when `on` says so. -/
def hostState (on : Bool) : State :=
  let s := ready State.reset (if on then [pgHif, pgFabric, pgTilth] else [pgHif])
  let s := s.setFld ⟨.fnPage, 0⟩ Reg.HIF_FN_CTRL 1 1 1
  let s := s.setQcb 3 (qcbOf 1 1)
  { s with airtime := 100, pins := { s.pins with perstLow := false } }
/-- Ring 0 of the PF, with `tail` waiting descriptors, names queue `q`; push window 0 names queue 3. -/
def ringState (q tail : Nat) : State :=
  let s := (hostState true).setFld ⟨.fnPage, 0⟩ Reg.HIF_FN_RING_CFG 0 26 (q + 4 * 2 ^ 20 + 2 ^ 25)
  let s := s.setFld ⟨.fnPage, 0⟩ Reg.HIF_FN_PUSH 0 21 (3 + 2 ^ 20)
  s.setWin 0 { FnWin.reset with rings := [(0, ⟨tail, 0, false⟩)], doneLo := 9 }
/-- Task 9 runs on the PF's host executor. -/
def hostTask : Item := { task0 with exec := some (.host 0 0) }
theorem witness_HostPaths :
    (∀ on ∈ [true, false], (hostState on).winUp 0 = true ∧ (hostState on).ready pgFabric = on) ∧
    (∀ q ∈ [3, 4], let s := ringState q 1
      let r := lookupD FnRing.reset 0 (s.win 0).rings
      s.winUp 0 = true ∧ s.fabOn = true ∧ s.quiet = false ∧ s.fld ⟨.fnPage, 0⟩ Reg.HIF_FN_RING_CFG 25 1 = 1 ∧ r.next ≠ r.tail ∧
      s.bme 0 = true ∧ s.fab.held.any (fun h => h.who == .ring 0 0) = false ∧
      (s.enqueue (s.fld ⟨.fnPage, 0⟩ Reg.HIF_FN_RING_CFG 0 20) 0 (taskWords 0) .notify .block (.ring 0 0) true).2 =
        (if q = 3 then .accepted else .refused) ∧
      s.fld ⟨.fnPage, 0⟩ Reg.HIF_FN_PUSH 20 1 = 1 ∧ s.fullFor (s.fld ⟨.fnPage, 0⟩ Reg.HIF_FN_PUSH 0 20) (taskWords 0) = false) ∧
    (({ ringState 3 1 with rest := some ⟨4, 0, false, 0⟩ }).quiet = true ∧ ({ ringState 3 1 with rest := some ⟨4, 0, false, 0⟩ }).winUp 0 = true) ∧
    (let s : State := { ringState 3 1 with fab := { (ringState 3 1).fab with items := [hostTask] } }
     s.winUp 0 = true ∧ s.fabOn = true ∧ s.task? (s.win 0).doneLo = some hostTask ∧ hostTask.phase = .dispatched) ∧
    (ringState 3 1).task? ((ringState 3 1).win 0).doneLo = none := by decide +kernel

/-- The queue window selects queue `q`; queue 3 has this QCB, and a QCB is staged. -/
def qwinState (q : Nat) (c : Qcb) : State :=
  let s := (fabState c []).setFld pgFabric Reg.TFB_QSEL 0 20 q
  ((s.setReg pgFabric Reg.TFB_QCFG_HI 2).setReg pgFabric Reg.TFB_QBODY_HI 3)
/-- A QCB whose body is the start of the deep buffer. -/
def deepQcb (en : Nat) : Qcb := ⟨[BitVec.ofNat 32 (en * 2 ^ 18), 2, 0, 0, 0, 3], false⟩
theorem witness_QueueWindow :
    (∀ en ∈ [0, 1], let s := qwinState 3 (deepQcb en)
      allowed s .ward pgFabric = true ∧ agTrusted .ward = true ∧ agTrusted (.fn 0) = true ∧ isSvc 3 = false ∧
      s.fld pgFabric Reg.TFB_QSEL 0 20 = 3 ∧ (s.qcb 3).enabled = (en == 1) ∧ s.fab.items = [] ∧ s.fab.held = [] ∧
      (s.qcb 3).noteEn = false ∧ (s.qcb 3).words.length = 6 ∧ s.qcbOk (s.qcb 3) = true ∧
      s.qcbOk { s.qcb 3 with words := s.qStaged } = true ∧ bitOf ((s.qStaged.getD 0 0).toNat) 22 = false) ∧
    ((qwinState 3 (qcbOf 3 0)).qcbOk ((qwinState 3 (qcbOf 3 0)).qcb 3) = false) ∧
    (allowed (qwinState 0xFFFC0 (deepQcb 0)) .ward pgFabric = true ∧
     isSvc ((qwinState 0xFFFC0 (deepQcb 0)).fld pgFabric Reg.TFB_QSEL 0 20) = true) := by decide +kernel

/-- Pool 0 is VALID with a table of two handles at the start of the deep buffer and a region of 4 KiB of it one bank on; entry 0
has these words. -/
def handleState (e : List Word) : State :=
  let s := ready (fabState (qcbOf 0 1) []) ((List.range 32).map fun b => ⟨.dbBank, b⟩)
  let pool : List Word := [1] ++ List.replicate 11 0 ++ [0x300000, 3, 1, 0, 0, 0, 0, 3, 1, 0, 0, 0]
  { s with
    tilth := { s.tilth with pools := [(0, pool)] }
    mem := { s.mem with cells := memPuts [] deepBase (wordBytes e) } }
/-- An entry of 64 bytes, FREE and declared for the deep buffer near its producer; BOUND with `refs` references. -/
def freeEntry : List Word := [0x80110001, 0, 0, 0, 0, 0, 0, 0]
def boundEntry (refs : Word) : List Word := [0x00110001, 0, 0x300000, 0x00120003, 0, refs, 0, 0]
theorem witness_TilthWindows :
    (∀ a ∈ [Agent.ward, .fn 0], allowed (hostState true) a pgTilth = true) ∧ agWard .ward = true ∧ agWard (.fn 0) = false ∧
    (let s := hostState true
     s.poolJudge (s.fld pgTilth Reg.TLT_PSEL 0 10) (s.tilth.staged.take 24) = 0) ∧
    (let s := handleState freeEntry
     allowed s .ward pgTilth = true ∧ s.hPick .ward = some (0, freeEntry) ∧ eState freeEntry = 0 ∧ eDecl freeEntry = true ∧
     eUses freeEntry = 0 ∧ s.tilthOn = true ∧ eSize freeEntry ≠ 0 ∧ eHint freeEntry ≠ 3 ∧
     s.judge 0 freeEntry none none noItem (deepBase + 0x300000) = .at_ (deepBase + 0x300000) 2) ∧
    (∀ n ∈ [0, 1], let e := boundEntry (BitVec.ofNat 32 n)
      (handleState e).hPick .ward = some (0, e) ∧ eState e ≠ 0 ∧ eUses e = 0 ∧ eRefs e = n) ∧
    (fabState (qcbOf 0 1) []).hPick .ward = none := by decide +kernel

/-- The handle's migration to the start of another bank has been ordered. -/
def migrState : State :=
  let s := handleState [0x00110001, 0, 0x300000, 0x00220003, 0, 0, 0, 0]
  { s with tilth := { s.tilth with migr := [⟨0, ⟨0, deepBase + 0x600000, 4096, 2⟩⟩] } }
/-- Bank 0 drains while entry 0 is BOUND there and the region is one bank on. -/
def drainState : State :=
  (handleState [0x00110001, 0, 0, 0x00120003, 0, 0, 0, 0]).setFld ⟨.dbBank, 0⟩ Reg.PG_STATE 0 4 stDraining
/-- A context of a BFE that drains, while another is READY. -/
def bfeCtx : Ctx := ⟨1, 0, 0, 0, 7, 64, []⟩
def moveState : State :=
  let s := ready (fabState (qcbOf 0 1) []) [⟨.bfe, 1⟩]
  { s.setFld ⟨.bfe, 0⟩ Reg.PG_STATE 0 4 stDraining with ctxs := [bfeCtx] }
/-- A command of DTE 0 with deadline `dl` that waits behind another whose run estimate is 64 Tc at the floor. -/
def replaceItem (sn : Nat) (est : Word) : Item :=
  { cmdItem 2 .block 5000 with sn := sn, words := [1, 0, 5000, 0, 0, 0, 0, est] ++ List.replicate 8 0 }
def replaceState : State :=
  let s := ready (fabState ⟨[0x40020, 2, 0, 0, 0, 0], false⟩ [replaceItem 6 0x00010000, replaceItem 7 0]) [engPage 2 0, engPage 2 1]
  let s := s.setFld (engPage 2 1) identOff 0 5 0x10
  { s with airtime := 5000, tilth := { s.tilth with windows := [(8192, [6, 7])], pools := [(0, [1, 0, 1] ++ List.replicate 21 0)] } }
theorem witness_TilthDecisions :
    (let s := migrState
     let e : List Word := [0x00110001, 0, 0x300000, 0x00220003, 0, 0, 0, 0]
     s.tilthOn = true ∧ s.hNamed 0 = true ∧ s.hEntry 0 = some e ∧ eState e = 2 ∧
     s.tilth.migr.find? (fun m => m.handle == 0) = some ⟨0, ⟨0, deepBase + 0x600000, 4096, 2⟩⟩) ∧
    (let s := drainState
     let e : List Word := [0x00110001, 0, 0, 0x00120003, 0, 0, 0, 0]
     s.hNamed 0 = true ∧ s.hEntry 0 = some e ∧ eState e = 1 ∧ eRefs e = 0 ∧ eMcls e ≠ 0 ∧ s.tilth.migr = [] ∧
     s.drainingAt (eAddr e) = true ∧
     (allowedLocs e none ((List.range 16).map Loc.clodMem ++ (List.range 8).map (fun o => Loc.deepAt (stopDB o)) ++
       [Loc.hbm])).find? (fun l => s.locEver 0 l && s.locRoom 0 l (eSize e) && s.locAt 0 false l (eSize e) (deepBase + 0x300000)) =
       some (.deepAt (stopDB 0))) ∧
    (moveState.ctxs.find? (fun c => c.cls == 1 && c.inst == 0 && c.ctx == 7 && c.fn == 0) = some bfeCtx ∧ moveState.tilthOn = true ∧
     moveState.part ⟨engKind 1, 0⟩ = stDraining ∧ moveState.window 1 0 = [] ∧ moveState.ready ⟨engKind 1, 1⟩ = true ∧
     moveState.ctxRoom 1 1 64 = true) ∧
    (let it : Item := { task0 with phase := .abandoned, exec := some (.core 0), avoid := some (.core 0) }
     let s := fabState (qcbOf 0 1) [it]
     s.item? 7 = some it ∧ s.fabOn = true ∧ s.tilthOn = true ∧ dDeadline it.words = 0 ∧ it.handles = []) := by decide +kernel
/-- The paces are what the device measures; where both instances run at their floor, the command can only meet its deadline on
the other one. -/
theorem witness_TilthDecisions_replace (h0 : replaceState.paceOf (.engine 2 0) = (1, 1))
    (h1 : replaceState.paceOf (.engine 2 1) = (1, 1)) : ∃ it, replaceState.item? 7 = some it ∧ it.exec = some (.engine 2 0) ∧
    it.phase = .dispatched ∧ it.started = false ∧ dDeadline it.words = 5000 ∧ replaceState.eligible it (.engine 2 1) = true ∧
    replaceState.execFree (.engine 2 1) = true ∧
    5000 < replaceState.airtime + ((((replaceState.window 2 0).takeWhile (· != 7)).filterMap replaceState.item?).foldl
        (fun a j => a + replaceState.estRun j (.engine 2 0)) 0 + replaceState.estRun it (.engine 2 0)) ∧
    replaceState.airtime + replaceState.estFinish it (.engine 2 1) ≤ 5000 ∧
    replaceState.tilth.replaceAt + 4096 ≤ replaceState.airtime := by
  have e (j : Item) (x : Exec) (h : replaceState.paceOf x = (1, 1)) : replaceState.estRun j x = 64 * dRunEst j.words := by
    simp [State.estRun, h]
  refine ⟨replaceItem 7 0, by decide +kernel, by decide +kernel, by decide +kernel, by decide +kernel, by decide +kernel,
    by decide +kernel, by decide +kernel, ?_, ?_, by decide +kernel⟩
  · have hw : ((replaceState.window 2 0).takeWhile (· != 7)).filterMap replaceState.item? = [replaceItem 6 0x00010000] := by
      decide +kernel
    rw [hw]
    simp only [List.foldl, e _ _ h0]
    decide +kernel
  · have hw : (replaceState.window 2 1).filterMap replaceState.item? = [] := by decide +kernel
    simp only [State.estFinish, hw, List.foldl, e _ _ h1]
    decide +kernel


/-! Rings, memory and BAR2 -/

/-- The deep buffer's banks and every stop are READY. -/
def ringsUp : State := ready (deepUp []) ((List.range 86).map pgStop)
/-- A WRITE flit of one line from the PCIe stop to the first line of the deep buffer, on the ring of its stream. -/
def lineFlit : Flit where
  ring := (ringsUp.ringOf 0 stopPcie (stopDB 0)).getD 0
  dst := stopDB 0
  src := stopPcie
  agent := 31
  tag := 4095
  seq := 0
  addr := deepBase
  len := 64
  last := true
  unord := false
  mask := none
  data := List.replicate 64 5
  hops := 0
  corr := 0
  unc := []
/-- The same stream with `n` credits used, owed and a response waiting. -/
def creditState (n : Nat) : State :=
  let k := 128 * stopPcie + stopDB 0
  { ringsUp with rings := { Rings.reset with used := [(k, n)], owed := [(k, n)] } }
/-- A read request for `n` bytes at an address of the deep buffer. -/
def readFlit (a : Nat) (n : Nat) : Flit := { lineFlit with data := [], addr := a, len := n }
/-- A response of a kind waits for the PCIe stop, whose operation is open, or dead. -/
def respState (kind : Nat) (dead : Bool) : State :=
  let id : OpId := ⟨stopPcie, 31, 4095⟩
  { ringsUp with rings := { Rings.reset with
      resps := [⟨kind, id, stopDB 0, 0, true, 0, false, [], 0⟩]
      ops := [⟨id, true, stopDB 0, deepBase, 0, none, []⟩]
      dead := if dead then [id] else [] } }
theorem noProbe_ringsUp : ∀ n, n < 32 → ringsUp.fld (pgProbe n) Reg.PRB_CTRL 0 1 = 0 := by decide +kernel
theorem witness_RingTransfers :
    (ringsUp.flitOk lineFlit = true ∧ lookupD 0 (128 * stopPcie + stopDB 0) ringsUp.rings.used = 0 ∧ ringsUp.rings.bursts = [] ∧
     lineFlit.data.length = 64 ∧ lineFlit.addr % 64 = 0 ∧ ringsUp.passThrough lineFlit.dst = false ∧
     ringsUp.addrStop lineFlit.addr = some lineFlit.dst ∧ (∀ j, j < 64 → ringsUp.serve (lineFlit.addr + j) = .yes)) ∧
    (lookupD 0 (128 * stopPcie + stopDB 0) (creditState 64).rings.used = 64 ∧ (creditState 64).flitOk lineFlit = true) ∧
    (let f := readFlit deepBase 128
     ringsUp.flitOk f = true ∧ ringsUp.addrStop (f.addr + f.len - 1) = some f.dst ∧
     (∀ l ∈ linesOf f.addr f.len, ringsUp.serve l ≠ .no) ∧ (ringsUp.fetch f.addr f.len).2 = .ok (List.replicate 128 0)) ∧
    (ringsUp.flitOk (readFlit regsBase 64) = true ∧ ringsUp.addrStop regsBase ≠ some (stopDB 0)) ∧
    (∀ kind ∈ [2, 3, 5], ∀ dead ∈ [true, false], let s := respState kind dead
      let r : Resp := ⟨kind, ⟨stopPcie, 31, 4095⟩, stopDB 0, 0, true, 0, false, [], 0⟩
      s.rings.resps[0]? = some r ∧ (s.ringOf 1 r.src r.id.stop).isSome = true ∧ (r.id ∈ s.rings.dead ↔ dead = true) ∧
      r.src < 86 ∧ r.id.stop < 86) ∧
    ((ringsUp.ringOf 1 (stopDB 0) stopPcie).isSome = true ∧
     lookupD 0 (128 * stopPcie + stopDB 0) (creditState 64).rings.owed = 64) := by decide +kernel

/-- A burst of two flits, one of which has arrived, open at the deep buffer. -/
def burstState : State :=
  { ringsUp with rings := { Rings.reset with
      bursts := [⟨⟨stopPcie, 31, 1⟩, stopDB 0, deepBase, 128, false, [0], 64, [], 0, []⟩]
      ops := [⟨⟨stopPcie, 31, 1⟩, false, stopDB 0, deepBase, 128, none, []⟩] } }
/-- Rings 0 to `n` - 1 have failed. -/
def failedRings (n : Nat) : State := ringsUp.setReg pgRing Reg.RNG_STATE (BitVec.ofNat 32 (2 ^ n - 1))
/-- The probe 0 page belongs to the PF; the PF's link is up. -/
theorem witness_RingFailures :
    (burstState.rings.bursts.find? (fun b => b.id == ⟨stopPcie, 31, 1⟩ && b.target == stopDB 0) =
       some ⟨⟨stopPcie, 31, 1⟩, stopDB 0, deepBase, 128, false, [0], 64, [], 0, []⟩ ∧
     burstState.mayRide 0 stopPcie (stopDB 0) lineFlit.ring false = true ∧ lineFlit.ring < 4 ∧ stopDB 0 < 86 ∧
     (∀ j, j < 1 → j ∈ [0]) ∧ (∀ n, n < 32 → burstState.fld (pgProbe n) Reg.PRB_CTRL 0 1 = 0)) ∧
    (∀ b ∈ burstState.rings.bursts, b.id.stop = stopPcie → ∀ j, j < b.seqs.length → j ∈ b.seqs) ∧
    (ringsUp.pins.on = true ∧
     lookupD 0 ((85 * 32 + 31) * 4096 + 4095) { Rings.reset with crcFails := [((85 * 32 + 31) * 4096 + 4095, 2)] }.crcFails = 2 ∧
     lookup? ((21 * 32 + 0) * 4096 + 7) ringsUp.rings.copies = none ∧ (hostState true).winUp 0 = true ∧
     7 ∈ lookupD [] (21 * 32 + 0) { Rings.reset with applied := [(21 * 32, [7])] }.applied) ∧
    (ringsUp.ringFailed 11 = false ∧ (∀ rs ∈ [[0, 1, 2, 3], [4, 5, 6, 7], [8, 9]], ∃ r ∈ rs, r ≠ 11 ∧ ringsUp.ringFailed r = false)) ∧
    ((failedRings 3).pins.on = true ∧ (failedRings 3).ringFailed 3 = false ∧ (failedRings 3).mode ≠ modeRest ∧
     (∀ r ∈ [0, 1, 2, 3], r ≠ 3 → (failedRings 3).ringFailed r = true)) ∧
    (allowed ringsUp .ward (pgProbe 31) = true ∧ ringsUp.fld (pgProbe 31) Reg.PRB_CTRL 0 1 = 0 ∧
     bitOf (0xFFFFFFFF : Word).toNat 0 = true) := by decide +kernel

/-- Deep-buffer bank 0's page offset, with a poisoned line, or a correction to be written back. -/
def bank0 : Page := ⟨.dbBank, 0⟩
/-- Pseudo-channel 5 is in a state; `others`: every other channel is READY, the interleaved window is 16 MiB and the reserve holds
1 MiB a channel. -/
def pcState (st : Nat) (others : Bool) : State :=
  let s := ready State.reset (if others then (List.range 128).map pgPc else [])
  let s := s.setReg pgMem Reg.MEM_HBM_MAP (if others then 0x00010001 else 0)
  s.setFld (pgPc 5) Reg.PG_STATE 0 4 st
theorem witness_MemoryCare :
    (memPart bank0.addr = some (bank0, 0) ∧ (deepUp []).scrubbed bank0 = true ∧ (deepUp []).scrubAddr bank0 0 0 = some deepBase ∧
     (deepUp []).bad1 deepBase = false ∧ (deepUp []).bad2 deepBase = false) ∧
    (deepBase ∈ { Memory.reset with wb := [deepBase] }.wb ∧ deepBase ∉ (deepUp []).mem.wb ∧
     ((deepUp []).region deepBase).page = some bank0 ∧ (deepUp []).serve deepBase = .yes ∧ (deepUp []).readsBad deepBase = false) ∧
    (((lookupD [] bank0.addr (deepUp []).mem.uncHits).filter fun x => decide ((deepUp []).airtime < x + 1966080)).length = 0 ∧
     (deepUp []).region deepBase = .deep 0 ∧
     ({ deepUp [] with mem := { Memory.reset with poison := [deepBase] } }.bad1 deepBase = true)) ∧
    (allowed State.reset .ward bank0 = true ∧
     (let s : State := { (deepUp []).setReg pgMem Reg.MEM_RETIRE_CTRL 0x00010101 with
        mem := { Memory.reset with rowHits := [(bank0.addr, [(7, 0)])] } }
      s.serving bank0 = true ∧ s.fld pgMem Reg.MEM_RETIRE_CTRL 16 1 = 1 ∧
      s.fld pgMem Reg.MEM_RETIRE_CTRL 0 4 ≤ ((lookupD [] bank0.addr s.mem.rowHits).filter fun h =>
        h.1 == 7 && decide (s.airtime ≤ h.2 + s.fld pgMem Reg.MEM_RETIRE_CTRL 8 8 * 3600 * 1966080000)).length)) ∧
    (∀ pin ∈ [0, 128], let s : State := { (pcState stReady false).setReg (pgPc 5) Reg.MEM_BK_PIN (BitVec.ofNat 32 pin) with
        mem := { Memory.reset with pinHits := [((pgPc 5).addr, List.replicate 64 (71, 0))] } }
      s.serving (pgPc 5) = true ∧
      64 ≤ ((lookupD [] (pgPc 5).addr s.mem.pinHits).filter fun h => h.1 == 71 && decide (s.airtime ≤ h.2 + 1966080000)).length ∧
      s.fld (pgPc 5) Reg.MEM_BK_PIN 7 1 = pin / 128 ∧ s.fld (pgPc 5) Reg.MEM_BK_PIN 0 7 ≠ 71) ∧
    ((pcState stReady true).part (pgPc 5) = stReady ∧ (pcState stReady true).pins.on = true ∧
     ((pcState stReady true).roomFor 5).isSome = true ∧ (pcState stReady false).part (pgPc 5) = stReady ∧
     ({ pcState stReady false with mem := { Memory.reset with resUsed := [] } }.setReg pgMem Reg.MEM_HBM_MAP 1).roomFor 5 = none) ∧
    (let s : State := { pcState stFaulted false with mem := { Memory.reset with moved := [5] } }
     s.part (pgPc 5) = stFaulted ∧ 5 ∈ s.mem.moved ∧ 5 ∉ s.mem.rebuilt) ∧
    (deepUp []).part ⟨.dbBank, 31⟩ = stReady := by decide +kernel
/-- Rows and spares are the part's own; a part of 100 rows has two spares. -/
theorem witness_MemoryCare_rows (h : Config.memRows 0 = 100) : 99 < Config.memRows 0 ∧ Config.memRows 0 ≤ 100 ∧ 1 < spareRows 0 ∧
    spareRows 0 ≤ 2 := by simp [spareRows, h]

/-- The PF reaches the deep buffer through BAR2, and function 1 an aperture of 4 KiB of it; banks READY if `on`. -/
def barState (on : Bool) : State :=
  let s := hostState true
  let s := if on then ready s ((List.range 32).map fun b => ⟨.dbBank, b⟩) else s
  let s := s.setFld pgHif Reg.HIF_LINK 9 7 63
  (s.setReg64 ⟨.fnPage, 1⟩ Reg.HIF_FN_APT_LO deepBase).setReg ⟨.fnPage, 1⟩ (Reg.HIF_FN_APT_LO + 8) 0x00008001
theorem witness_HostMemoryAccess :
    (State.reset.hostUp = false ∧ (barState true).linkDown = false) ∧
    ((barState true).hostUp = true ∧ (∀ f ∈ [0, 1, 63], (barState true).fnUp f = true) ∧
     (barState true).bar2Run 0 0xFC6000000 4 = none ∧ (barState true).bar2Run 63 0 4 = none ∧
     (barState true).bar2Run 0 0xFC0000000 4 = some deepBase ∧ (barState true).bar2Run 1 4092 4 = some (deepBase + 4092) ∧
     (barState true).bar2Run 1 4093 4 = none ∧
     ((barState true).fetch deepBase 4).2 = .ok [0, 0, 0, 0] ∧
     ({ barState true with mem := { Memory.reset with poison := [deepBase] } }.fetch deepBase 4).2 = .poison deepBase ∧
     ((barState true).write deepBase [1, 2, 3, 4]).2 ≠ .access) := by decide +kernel


/-! DMA and lanes -/

/-- DMA channel 0 is READY with this DMA_CH_CFG, one request pending on its line, and these bytes in the deep buffer. -/
def dmaState (cfg : Word) (r : DmaReq) (bs : List Byte) : State :=
  let s := deepUp [pgDma 0, ⟨.dmaUnit, 0⟩]
  let s := s.setReg (pgDma 0) Reg.DMA_CH_CFG cfg
  let s := (s.setReg64 (pgDma 0) Reg.DMA_CH_SRC_LO deepBase).setReg64 (pgDma 0) Reg.DMA_CH_DST_LO (deepBase + 0x100)
  let s := { s with mem := { s.mem with cells := memPuts [] deepBase bs } }
  s.setLine (s.chanLine 0) [r]
/-- IN and OUT channels of line 0, and a MEM channel of 64-byte bursts with no line. -/
def inReq : DmaReq := ⟨deepBase, 4, [1, 2, 3, 4], none⟩
def inState : State := dmaState 0x00400040 inReq []
def outState : State := dmaState 0x00400041 ⟨deepBase, 4, [], none⟩ [9, 8, 7, 6]
/-- Source and destination lists of one entry of 64 bytes each: from 0x1000 to 0x2000 of the deep buffer. -/
def memLists : List Byte :=
  [0, 0x10, 0, 0, 3, 0, 64] ++ List.replicate 249 0 ++ [0, 0x20, 0, 0, 3, 0, 64]
def moveDma : State := dmaState 0x00400002 ⟨0, 0, [], none⟩ memLists
/-- A channel's commands read and write registers as the DMA does. -/
theorem witness_DmaBursts :
    (inState.quiet = false ∧ inState.pins.on = true ∧ (inState.lineReqs 0).length < 16 ∧
     ({ inState with dmaLines := [(0, List.replicate 16 inReq)] }.lineReqs 0).length = 16 ∧ inState.lineChan 0 = some 0) ∧
    (∀ s ∈ [inState, outState, moveDma], s.dmaCanStart 0 = true ∧ s.dmaTurn 0 = true ∧ (s.lineReqs (s.chanLine 0)).length = 1 ∧
      s.dmaMode 0 = 0 ∧ s.owner (pgDma 0) = 0 ∧ (s.dmaChan 0).flight = []) ∧
    (inState.dmaKind 0 = 0 ∧ addressed (inState.dmaLine 0) = true ∧ (dmaPut (dmaWr 0) inState 0 deepBase [1, 2, 3, 4]).2 = .ok) ∧
    (outState.dmaKind 0 = 1 ∧ addressed (outState.dmaLine 0) = true ∧
     (dmaGet (dmaRd 0) outState 0 [] deepBase 4).2.2 = .ok [9, 8, 7, 6]) ∧
    (moveDma.dmaKind 0 = 2 ∧ moveDma.dmaBurst 0 = 64) := by decide +kernel
theorem witness_DmaBursts_mem :
    (match dmaEntry (dmaRd 0) moveDma 0 [] 0 deepBase 0 64 1 with
     | (s, h, .ok e) => decide (s.mem = moveDma.mem ∧ h = [] ∧ e.addr = deepBase + 0x1000 ∧ e.len = 64)
     | _ => false) = true ∧
    (match dmaGet (dmaRd 0) moveDma 0 [] (deepBase + 0x1000) 64 with
     | (_, _, .ok bs) => bs.length
     | _ => 0) = 64 ∧
    (match dmaEntry (dmaRd 0) moveDma 0 [] 1 (deepBase + 0x100) 0 64 1 with
     | (_, _, .ok e) => decide (e.addr = deepBase + 0x2000 ∧ e.len = 64)
     | _ => false) = true ∧
    (dmaPut (dmaWr 0) moveDma 0 (deepBase + 0x2000) (List.replicate 64 0)).2 ≠ .access ∧
    (match dmaEntry (dmaRd 0) (dmaState 0x00400002 ⟨0, 0, [], none⟩ []) 0 [] 0 deepBase 0 64 1 with
     | (_, _, .error (.ended side e)) => decide (side = 0 ∧ e = 0)
     | _ => false) = true := by decide +kernel
/-- Channel 0 has a burst in flight that moved its bytes, or failed with cause 2. -/
def flightState (cfg : Word) (fail : Option (Nat × Nat)) : State :=
  (dmaState cfg inReq []).setDmaChan 0 { DmaChan.reset with flight := [⟨inReq, DmaPos.zero, false, fail, [], 0, []⟩] }
/-- Channel 0 is halted. -/
def haltState : State := inState.setDmaChan 0 { DmaChan.reset with run := 3, cause := 2, held := some inReq }
theorem witness_DmaEndsAndCommands :
    (∀ x ∈ [some (2, deepBase), none], (flightState 0x00406C42 x).ready (pgDma 0) = true ∧ (flightState 0x00406C42 x).chanLine 0 = 216) ∧
    (allowed haltState .ward (pgDma 0) = true ∧ (haltState.dmaChan 0).run = 3 ∧ haltState.dmaKind 0 = 0 ∧
     haltState.dmaLineEn 0 = true ∧ addressed (haltState.dmaLine 0) = true ∧ (inState.dmaChan 0).run ≠ 3) ∧
    (moveDma.dmaKind 0 = 2 ∧ moveDma.dmaLineEn 0 = false ∧ moveDma.ready (pgDma 0) = true ∧
     (moveDma.lineReqs (kickLine 0)).length < 16) := by decide +kernel

/-- Lane 63 in a part state, with what `x` says of it; its group is READY. -/
def laneState (st : Nat) (x : LaneSt) : State :=
  ((ready State.reset [pgLng 7]).setFld (pgLane 63) Reg.PG_STATE 0 4 st).setLane 63 x
theorem witness_LaneCommands :
    (∀ st ∈ [stReady, stTending, stRising], let s := laneState st { LaneSt.reset with cdr := true, confirm := true }
      allowed s .ward (pgLane 63) = true ∧ s.part (pgLane 63) = st ∧ s.fld (pgLane 63) Reg.LN_RECAL 2 1 = 0 ∧
      s.fld (pgLane 63) Reg.LN_SWEEP_CTRL 1 1 = 0 ∧ s.rxSampling 63 = true ∧ (s.laneSt 63).cdr = true ∧
      (s.laneSt 63).confirm = true ∧ s.ready (pgLng (63 / 8)) = true) ∧
    (∀ m ∈ [0, 1, 3], (alignPositions m).isSome = (m != 3) ∧
      (State.reset.setFld (pgLane 63) Reg.LN_CFG 12 2 m).fld (pgLane 63) Reg.LN_CFG 12 2 = m) ∧
    State.writeInRange (pgLane 63) Reg.LN_EYE_CTRL ((0x01F00000 : Word).toNat ||| 1) false = true ∧
    ((State.reset.setFld (pgLane 63) Reg.LN_RECAL 2 1 1).fld (pgLane 63) Reg.LN_RECAL 2 1 = 1) ∧
    (let s := (laneState stTending { LaneSt.reset with saved := [1, 2, 3, 4] }).setFld (pgLane 63) Reg.LN_SWEEP_CTRL 1 11 3
     s.fld (pgLane 63) Reg.LN_SWEEP_CTRL 1 1 = 1 ∧ s.fld (pgLane 63) Reg.LN_SWEEP_CTRL 2 10 = 1 ∧ (s.laneSt 63).saved.length = 4) ∧
    (State.reset.setFld (pgLng 7) Reg.PG_STATE 0 4 stRising).part (pgLng 7) = stRising := by decide +kernel

/-- Lane 63 follows schedule 0 of its group, whose one window of 16,384 Tc is open from AIRTIME 8,192 on in each 65,536 Tc. -/
def winState (t : Nat) (x : LaneSt) : State :=
  let s := laneState stReady x
  let s := s.setFld (pgLng 7) Reg.LNG_SCHED_CTRL 0 2 1
  let s := s.setFld (pgLane 63) Reg.LN_CFG 14 2 1
  { s with airtime := t, links := { s.links with scheds := [(14, ⟨0, 65536, [(8192, 24576)], 0⟩)] } }
/-- Schedule 0 of group 7 is staged with a period of 8,192 Tc and a window, and committed from AIRTIME 8,192 on. -/
def stageState (wEnd : Word) : State :=
  let s := (ready State.reset [pgLng 7]).setReg (pgLng 7) Reg.LNG_SCHED0_PERIOD 8192
  (s.setReg (pgLng 7) (Reg.LNG_SCHED0_BASE_LO + 16) wEnd)
theorem witness_LaneSleep :
    (allowed (laneState stReady LaneSt.reset) .ward (pgLane 63) = true ∧ LaneSt.reset.window = none ∧
     (laneState stReady LaneSt.reset).fld (pgLane 63) Reg.LN_SLEEP 3 1 = 0 ∧
     (let s := ((laneState stReady LaneSt.reset).setFld (pgLane 63) Reg.LN_SLEEP 1 3 5).setFld (pgLane 63) Reg.LN_ALIGN 2 1 1
      s.fld (pgLane 63) Reg.LN_SLEEP 3 1 = 1 ∧ s.fld (pgLane 63) Reg.LN_ALIGN 2 1 = 1)) ∧
    (laneState stReady LaneSt.reset).laneSched 63 = none ∧
    (∀ t ∈ [8192, 24575], let s := winState t LaneSt.reset
      s.laneSched 63 = some ⟨0, 65536, [(8192, 24576)], 0⟩ ∧ (⟨0, 65536, [(8192, 24576)], 0⟩ : Sched).openAt t = some 24576) ∧
    (∀ t ∈ [20480, 24575, 24576],
      let s := (winState t { LaneSt.reset with window := some 24576 }).setFld (pgLane 63) Reg.LN_SLEEP 3 1 1
      (s.laneSt 63).window = some 24576 ∧ s.fld (pgLane 63) Reg.LN_SLEEP 1 1 = 0 ∧ 24576 ≤ s.airtime + 4096 ∧
      (s.laneSched 63).isSome = true ∧ s.fld (pgLane 63) Reg.LN_SLEEP 3 1 = 1) ∧
    (∀ x ∈ [(0, true), (8192, true), (8193, false)], let s := stageState (BitVec.ofNat 32 x.1)
      allowed s .ward (pgLng 7) = true ∧
      decide (∀ w ∈ s.stagedWins (pgLng 7) 0, w.1 < w.2 ∧
        w.2 ≤ (s.reg (pgLng 7) Reg.LNG_SCHED0_PERIOD).toNat) = x.2 ∧
      (s.reg (pgLng 7) Reg.LNG_SCHED0_PERIOD).toNat = 8192 ∧ winsApart (s.stagedWins (pgLng 7) 0) = true) ∧
    (lookup? 14 [(14, (⟨0, 8192, [], 8192⟩ : Sched))]).isSome = true := by decide +kernel


/-! Time, frames and framers -/

/-- The time base is READY at AIRTIME `t`; generator 63 is enabled for the first slot and its symbols 0 and 1. -/
def genState (t : Nat) (on : Bool) : State :=
  let s := ready State.reset [pgTime]
  let s := s.setReg pgTime (genOff 63 Reg.GEN_SLOTMASK0) 1
  let s := s.setReg pgTime (genOff 63 Reg.GEN_SYMMASK) 3
  let s := s.setReg pgTime (genOff 63 Reg.GEN_CFG) (if on then 0x10 else 0)
  { s with airtime := t, pins := { s.pins with perstLow := false } }
/-- … from its second frame on. -/
def genLater : State := (genState 0 true).setTime { TimeSt.reset with genFrom := [(63, 20000000)] }
/-- A timed request of period 10 from AIRTIME 50 on, its first `n` Tc over. -/
def treqState (per from_ t : Nat) : State :=
  let s := (genState t false).setReg pgTime (Reg.TB_TREQ_PERIOD + 16 * 19) (BitVec.ofNat 32 (per + 2 ^ 31))
  (s.setReg64 pgTime (Reg.TB_TREQ_BASE_LO + 16 * 19) 50).setTime { TimeSt.reset with treqFrom := [(19, from_)] }
theorem witness_TimeBaseCommands :
    (let s := genState 0 true
     s.genOn 63 = true ∧ s.serving pgTime = true ∧ s.mode ≠ modeSafe ∧ s.nextTick 63 = some ⟨0, 0, 0, 0⟩ ∧ 0 ≤ s.airtime + s.genLead 63) ∧
    ((genLater.nextTick 63).isSome = true ∧ ∀ k ∈ genLater.nextTick 63, genLater.airtime + genLater.genLead 63 < k.code / 2) ∧
    (∀ sl ∈ [0, 1], let s := (genState 0 true).setTime { TimeSt.reset with slew := sl }
      allowed s .ward pgTime = true ∧ (s.time.slew = 0 ↔ sl = 0)) ∧
    (∀ on ∈ [true, false], let s := genState 100 on
      s.time.held = none ∧ s.noGen = !on ∧ allowed s .ward pgTime = true ∧ (-100#64 : DWord).toInt < 0 ∧
      (-100#64 : DWord).toInt.natAbs ≤ s.airtime ∧ s.airtime < (-101#64 : DWord).toInt.natAbs ∧ 0 ≤ (7#64 : DWord).toInt) ∧
    (∀ on ∈ [true, false], let s := (genState 100 on).setTime { TimeSt.reset with held := some 60 }
      s.time.held = some 60 ∧ s.noGen = !on) ∧
    ((genState 0 false).genOn 63 = false ∧ (genCfgOf (0x10 : Word).toNat).ok = true ∧ (genCfgOf (0x14 : Word).toNat).ok = false ∧
     bitOf (0x14 : Word).toNat 4 = true) ∧
    (∀ x ∈ [(10, 50, 50), (10, 51, 60), (10, 61, 79)], let s := treqState x.1 x.2.1 x.2.2
      s.fld pgTime (Reg.TB_TREQ_PERIOD + 16 * 19) 31 1 = 1 ∧ s.fld pgTime (Reg.TB_TREQ_PERIOD + 16 * 19) 0 31 = 10 ∧
      s.reg64 pgTime (Reg.TB_TREQ_BASE_LO + 16 * 19) = 50 ∧ lookupD 0 19 s.time.treqFrom = x.2.1 ∧
      (s.lineReqs (204 + 19)).length < 16 ∧ s.airtime = x.2.2) ∧
    ((60 - 50) % 10 = 0 ∧ (70 - 50) % 10 = 0 ∧ 61 ≤ 70 ∧ 70 < 61 + 10 ∧ 70 ≤ 79 ∧
     (treqState 0 51 60).fld pgTime (Reg.TB_TREQ_PERIOD + 16 * 19) 0 31 = 0) := by decide +kernel

/-- The sync bytes, and the seconds 1; its sum is 1 also. -/
def todMsg (sum : Byte) : List Byte := [0xA5, 0x5A, 0, 0, 0, 0, 0, 1, 0, 0, 0, 0, 0, 0, 0, sum]
/-- The PTP transmit ring of two entries in Ward SRAM holds one valid entry for port 63. -/
def ptpState : State :=
  let s := genState 0 false
  let s := (s.setFld pgTime Reg.TB_PTP_SIZE 16 12 2).setFld pgTime Reg.TB_PTP_TX_TAIL 0 12 1
  { s with ward := { s.ward with sram := memPuts s.ward.sram 0 (leBytes 4 (1 + 64 * 2 + 63 * 2 ^ 14)) } }
theorem witness_PulsesAndStamps :
    (∀ t ∈ [0, 5], let s := (genState t false).setReg pgTime Reg.TB_PPS_OUT 0x80000000
      s.pins.on = true ∧ s.fld pgTime Reg.TB_PPS_OUT 31 1 = 1 ∧ 0 ≤ s.airtime ∧ s.airtime ≤ 0 + 5 ∧
      0 % 1966080000 = s.fld pgTime Reg.TB_PPS_OUT 0 31 % 1966080000 ∧ s.time.ppsAt ≠ some 0) ∧
    (genState 0 false).airtime + 4 < 2 ^ 64 ∧
    (let s := ((genState 196608000 false).setTime { TimeSt.reset with tod := some 0 }).setReg pgTime Reg.TB_TOD_CTRL 1
     s.time.tod = some 0 ∧ s.fld pgTime Reg.TB_TOD_CTRL 0 1 = 1 ∧ s.airtime ≤ 0 + 196608000) ∧
    ((todMsg 1).length = 16 ∧ (todMsg 1).take 2 = [0xA5, 0x5A] ∧
     (todMsg 1).getD 15 0 = (((todMsg 1).drop 2).take 13).foldl (· + ·) 0 ∧
     (todMsg 2).getD 15 0 ≠ (((todMsg 2).drop 2).take 13).foldl (· + ·) 0) ∧
    (let s := ptpState
     s.serving pgTime = true ∧ 0 < s.fld pgTime Reg.TB_PTP_SIZE 16 12 ∧ s.time.ptpTx ≠ s.fld pgTime Reg.TB_PTP_TX_TAIL 0 12 ∧
     bitOf (ofLe ((s.ptpGet (s.reg64 pgTime Reg.TB_PTP_TX_LO + 2048 * s.time.ptpTx) 2048 []).take 4)) 0 = true) := by
  decide +kernel

/-- Port 63 and framer 0, logical framer 0, are READY; flow 5 is an uplink flow of the port with eAxC 7, uncompressed, of carrier 3,
flow 6 a downlink C-plane flow of it; the carrier, uplink or downlink, has one antenna of one PRB, a window of 100 Tc and one notice. -/
def frmState (t : Nat) (down : Nat) : State :=
  let s := ready State.reset [pgPort 63, pgFrm 0, pgTime]
  let s := s.setFld (pgFrm 0) identOff 0 5 0x10
  let fl (b : Nat) : List Word := [BitVec.ofNat 32 (b + 63 * 4 + 3 * 2 ^ 8 + 16 * 2 ^ 22), 7, 0, 0, 0, 0, 0, 0]
  let ca : List Word := [BitVec.ofNat 32 (down + 2 ^ 7 + 2 ^ 14), 0x11, 0, 3, 0, 0, 0, 100] ++ List.replicate 8 0
  let s := s.setFramer 0 { FramerSt.reset with flows := [(5, fl down), (6, fl 3)], flowOn := [5, 6], carriers := [(3, ca)], carrierOn := [3] }
  { s with airtime := t }
/-- An eCPRI U-plane message for eAxC 7: frame 1, subframe, slot and symbol 0, one section of PRB 0. -/
def uMsg : List Byte :=
  [0x10, 0, 0, 60, 0, 7, 0, 0x80, 0x10, 1, 0, 0, 0, 0, 0, 1] ++ List.replicate 48 0
/-- An Ethernet frame of an EtherType. -/
def ethFrame (hi lo : Byte) (m : List Byte) : List Byte := withFcs (List.replicate 12 0 ++ [hi, lo] ++ m)
/-- The frame in the inbox, received at `t`. -/
def inboxState (now t : Nat) : State :=
  let s := frmState now 0
  s.setFramer 0 { s.framer 0 with inbox := [⟨63, t, 5, 0, uMsg⟩] }
/-- The symbol in which the message lies, expected. -/
def sym0 (closed : Option Nat) (got : List (Nat × Nat)) : SymSt := ⟨3, 19660800, 19660800, 0, [(0, 0)], got, [], closed, false⟩
def symState (now : Nat) (closed : Option Nat) (got : List (Nat × Nat)) : State :=
  let s := frmState now 0
  s.setFramer 0 { s.framer 0 with syms := [sym0 closed got] }
theorem witness_FramerReceive :
    (let s := frmState 0 0
     s.serving (pgPort 63) = true ∧ s.mode ≠ modeSafe ∧ fcsOk (List.replicate 64 0) = false ∧
     fcsOk (ethFrame 0xAE 0xFE uMsg) = true ∧ 64 ≤ (ethFrame 0xAE 0xFE uMsg).length ∧
     (ethFrame 0xAE 0xFE uMsg).length ≤ s.fld (pgPort 63) Reg.PORT_CFG 9 14 ∧
     (ethParse (ethFrame 0x81 0 ([0, 0, 0x81, 0] ++ List.replicate 60 0))).isNone = true ∧
     (ethParse (ethFrame 0xAE 0xFE uMsg)).map (fun (x : Option Nat × Nat × List Byte) => (x.2.1, x.2.2.take (x.2.2.length - 4))) = some (0xAEFE, uMsg) ∧
     s.quiet = false ∧ s.framerAs (s.fld (pgPort 63) Reg.PORT_CFG 5 4) = some 0 ∧ ecpriOk uMsg = true ∧ ecpriType uMsg = 0 ∧
     ((s.framer 0).portFlows 63).find? (fun j =>
       let fl := (s.framer 0).flow j
       !flDown fl && !flCplane fl && flEaxc fl == numBe ((ecpriBody uMsg).take 2) && !flVlan fl) = some 5) ∧
    (let s := (frmState 0 0).setFld (pgPort 63) Reg.PORT_CFG 5 4 9
     s.framerAs (s.fld (pgPort 63) Reg.PORT_CFG 5 4) = none ∧ s.serving (pgPort 63) = true) ∧
    (ptpFrame 0x9999 [] = false ∧ ptpFrame 0x88F7 [] = true) ∧
    (frmState 0 0).fld pgTime Reg.TB_PTP_SIZE 0 12 = 0 := by decide +kernel
theorem witness_FramerReceive_window :
    (∀ t ∈ [19660800, 19660900, 19660901], let s := inboxState t t
      let fl := (s.framer 0).flow 5
      let ca := (s.framer 0).carrier 3
      let b := (ecpriBody uMsg).drop 4
      s.framerOn 0 = true ∧ bitsOf (b.getD 0 0).toNat 4 3 = 1 ∧ bitsOf (b.getD 0 0).toNat 7 1 = 0 ∧ flowFits fl ca = true ∧
      flCarrier fl = 3 ∧ 3 ∈ (s.framer 0).carrierOn ∧ caDown ca = false ∧ caWinStart ca = 0 ∧ caWinEnd ca = 100 ∧
      (s.uParse fl ca t b).1 = some ⟨19660800, 19660800, 0⟩ ∧ (s.uParse fl ca t b).2.1 = [(0, 1, List.replicate 48 0)] ∧
      (s.uParse fl ca t b).2.2 = (true, false)) ∧
    (let s := (inboxState 19660700 19660700).setFld (pgFrm 0) Reg.FRM_EARLY 0 24 100
     (s.framer 0).early = [] ∧ s.fld (pgFrm 0) Reg.FRM_EARLY 0 24 = 100 ∧
     (s.uParse ((s.framer 0).flow 5) ((s.framer 0).carrier 3) 19660700 ((ecpriBody uMsg).drop 4)).1 = some ⟨19660800, 19660800, 0⟩) ∧
    (let e : EarlyFrame := ⟨5, 19660800, 19660700, (ecpriBody uMsg).drop 4⟩
     let s := frmState 19660800 0
     let s := s.setFramer 0 { s.framer 0 with early := [e] }
     (s.framer 0).early.find? (fun e => decide (e.openAt ≤ s.airtime)) = some e) := by decide +kernel
theorem witness_FramerReceive_symbol :
    (∀ x ∈ [(none, 19660900), (none, 19660899), (some 1, 19660900)], let s := symState x.2 x.1 []
      s.framerOn 0 = true ∧ (s.framer 0).sym? 3 19660800 = some (sym0 x.1 []) ∧ (sym0 x.1 []).posted = false ∧
      caWinEnd ((s.framer 0).carrier 3) = 100 ∧ (s.framerReqs 0).any (fun r => r.carrier == 3 && r.start == 19660800) = false) ∧
    (let s := frmState 0 0
     let y : HalfSt := ⟨3, 0, 19660800, 0, 0, true, false, 0⟩
     let s := s.setFramer 0 { s.framer 0 with halves := [y] }
     let s := { s with links := { s.links with notices := [⟨0, 3, 19660800, 0⟩] } }
     s.links.notices[0]? = some ⟨0, 3, 19660800, 0⟩ ∧ s.framerOn 0 = true ∧ 3 ∈ (s.framer 0).carrierOn ∧
     caDown ((s.framer 0).carrier 3) = false ∧ (s.framer 0).half 3 (0 % 2) = some y) := by decide +kernel

/-- Egress queues 6 and 7 of port 63 hold a frame each. -/
def queuedState : State :=
  let s := frmState 0 0
  s.setMac 63 { MacSt.reset with queues := [(6, [⟨[1], none, none, none⟩]), (7, [⟨[2], none, none, none⟩])] }
/-- Framer 0 polls a ring of one entry, whose word 0 is `w`, in the deep buffer. -/
def pollState (w : Nat) : State :=
  let s := ready (frmState 0 0) ((List.range 32).map fun b => ⟨.dbBank, b⟩)
  let s := (s.setReg (pgFrm 0) Reg.FRM_RING_HI 3).setFld (pgFrm 0) Reg.FRM_RING_SIZE 0 12 1
  { s with mem := { s.mem with cells := memPuts [] deepBase (leBytes 4 w) } }
/-- An entry with word 0 `w`, TX_TIME `tx` and a message of section type 1, read at `t`. -/
def ringEnt (w tx : Nat) : List Byte := leBytes 4 w ++ leBytes 4 3 ++ leBytes 8 tx ++ List.replicate 48 0 ++ [0, 0, 0, 0, 0, 1, 0, 0]
def entState (now w tx t down : Nat) : State :=
  let s := frmState now down
  s.setFramer 0 { s.framer 0 with entry := some (ringEnt w tx, t) }
/-- Half 0 of downlink carrier 3, ready or not. -/
def halfState (now : Nat) (full : Bool) : State :=
  let s := frmState now 1
  s.setFramer 0 { s.framer 0 with halves := [⟨3, 0, 19660800, 0, 1, full, false, 0⟩] }
/-- Framer 15 has failed and #16 is free. -/
def takeState : State :=
  let s := ready State.reset []
  let s := (s.setFld (pgFrm 15) identOff 0 5 0x1F).setFld (pgFrm 15) Reg.PG_STATE 0 4 stFaulted
  s
/-- A one-way delay message of an action in the inbox. -/
def owdState (act : Byte) : State :=
  let s := frmState 0 0
  let m : List Byte := [0x10, 5, 0, 20, 77, act] ++ List.replicate 18 0
  s.setFramer 0 { s.framer 0 with inbox := [⟨63, 0, 5, 0, m⟩], owd := [(77, 5)] }
theorem witness_FramerSend :
    (let s := queuedState
     s.serving (pgPort 63) = true ∧ s.mode ≠ modeSafe ∧ (List.range 8).reverse.find? (s.mayEgress 63) = some 7 ∧
     lookupD [] 7 (s.mac 63).queues = [⟨[2], none, none, none⟩]) ∧
    (∀ w ∈ [1, 0, 7], let s := pollState w
      s.framerOn 0 = true ∧ (s.framer 0).entry = none ∧ 0 < s.fld (pgFrm 0) Reg.FRM_RING_SIZE 0 12 ∧
      (s.fetch (s.ringAt 0) 2048).1.mem = s.mem) ∧
    (∀ x ∈ [(0, 0), (70000, 65536 + 70000), (1, 65536 + 2)], let s := entState 200000 (1 + 6 * 8 + 8 * 2 ^ 11) x.1 x.2 0
      let e := ringEnt (1 + 6 * 8 + 8 * 2 ^ 11) x.1
      let w := ofLe (e.take 4)
      s.framerOn 0 = true ∧ (s.framer 0).entry = some (e, x.2) ∧ ofLe ((e.drop 8).take 8) = x.1 ∧ x.1 ≤ s.airtime ∧
      bitsOf w 1 2 = 0 ∧ bitsOf w 3 8 = 6 ∧ (((e.drop 64).take (bitsOf w 11 11)).getD 5 0).toNat ∈ [0, 1, 3, 5, 6] ∧
      6 ∈ (s.framer 0).flowOn ∧ flDown ((s.framer 0).flow 6) = true ∧ flCplane ((s.framer 0).flow 6) = true) ∧
    (∀ down ∈ [0, 1], ∀ kind ∈ [1, 2], let s := entState 0 (1 + 2 * kind) 0 0 down
      bitsOf (ofLe ((ringEnt (1 + 2 * kind) 0).take 4)) 1 2 = kind ∧ caByRing ((s.framer 0).carrier 3) = true ∧
      caDown ((s.framer 0).carrier 3) = (down == 1)) := by decide +kernel
/-- No notice has come for half 0 of downlink carrier 3; `e` is where its symbols have ended. -/
def noHalf (e : Nat) : State :=
  let s := frmState 19660900 1
  s.setFramer 0 { s.framer 0 with ended := [(6, e)] }
theorem witness_FramerSend_missed :
    ∀ e ∈ [16 * 19660800, 1 + 16 * 19660800], let s := noHalf e
      let ca := (s.framer 0).carrier 3
      s.framerOn 0 = true ∧ (s.framer 0).half 3 0 = none ∧ 3 ∈ (s.framer 0).carrierOn ∧ caDown ca = true ∧
      s.symDue (caGen ca) 0 (s.airtime - caWinEnd ca) = some (19660800, 0) ∧ lookupD 0 (2 * 3 + 0) (s.framer 0).ended = e := by
  decide +kernel
theorem witness_FramerSend_half :
    (∀ x ∈ [(19660800, true), (19660799, true), (19660900, false)], let s := halfState x.1 x.2
      let ca := (s.framer 0).carrier 3
      s.framerOn 0 = true ∧ (s.framer 0).half 3 0 = some ⟨3, 0, 19660800, 0, 1, x.2, false, 0⟩ ∧ caDown ca = true ∧
      s.symOf (caGen ca) 19660800 0 = some 19660800 ∧ caWinStart ca = 0 ∧ caWinEnd ca = 100 ∧
      (s.txParts 0 3 19660800).length = 1 ∧ s.lineReqs (8 * 0 + caLine ca) = []) ∧
    (takeState.part (pgFrm 15) = stFaulted ∧ takeState.identity (pgFrm 15) = some 15 ∧ takeState.part (pgFrm 16) = stDown ∧
     takeState.identity (pgFrm 16) = none ∧ takeState.ward.stopped = false ∧ takeState.mode ≠ modeSafe ∧
     (∀ j, j < 8 → takeState.lineReqs (8 * 15 + j) = [])) ∧
    (∀ act ∈ [0, 2, 3], let s := owdState (BitVec.ofNat 8 act)
      s.framerOn 0 = true ∧ (s.framer 0).inbox.map (fun m => (ecpriType m.bytes, ((ecpriBody m.bytes).getD 1 0).toNat)) = [(5, act)] ∧
      lookup? 77 (s.framer 0).owd = some 5) := by decide +kernel

/-- The table window of framer 16 selects an entry. -/
def tselState (sel : Nat) : State := State.reset.setFld (pgFrm 16) Reg.FRM_TSEL 0 9 sel
/-- CPRI buffer 31 sends on a port that runs CPRI; a hyperframe may be due. -/
def cpriState (t : Nat) (hyper : Option Nat) : State :=
  let s := ready State.reset [cpriPg 31, pgPort 56, pgPort 31]
  let s := (s.setFld (cpriPg 31) (cpriReg 31) 0 2 3).setFld (pgPort 56) Reg.PORT_CFG 0 3 7
  let s := (s.setFld (pgPort 31) Reg.PORT_CFG 0 3 7).setMac 31 { MacSt.reset with hyper := hyper }
  { s with airtime := t }
theorem witness_FramerTablesAndCpri :
    (∀ sel ∈ [255, 256, 319, 320], let s := tselState sel
      allowed s .ward (pgFrm 16) = true ∧ s.fld (pgFrm 16) Reg.FRM_TSEL 8 1 = sel / 256 ∧ s.fld (pgFrm 16) Reg.FRM_TSEL 0 8 = sel % 256) ∧
    (let s := cpriState 0 none
     s.cpriOn 31 = true ∧ s.cpriFld 31 1 1 = 1 ∧ s.serving (pgPort (s.cpriPort 31)) = true ∧
     s.fld (pgPort (s.cpriPort 31)) Reg.PORT_CFG 0 3 = 7) ∧
    (∀ t ∈ [19660800, 19660805], let s := cpriState t (some 19660800)
      s.serving (pgPort 31) = true ∧ s.fld (pgPort 31) Reg.PORT_CFG 0 3 = 7 ∧ (s.mac 31).hyper = some 19660800 ∧
      19660800 ≤ s.airtime ∧ s.airtime ≤ 19660800 + 5 ∧ tcFrame ≤ 19660800 ∧
      s.genOffset (s.fld (pgPort 31) Reg.PORT_CFG 26 6) = 0) ∧
    (∀ w ∈ [8, 16], ∀ v ∈ comps [0x7F, 0, 0x80, 0xFF], -(2 ^ (w - 1) : Int) ≤ v ∧ v < 2 ^ (w - 1)) := by decide +kernel


/-! Realvin links -/

/-- Link 7 is READY, its state field is `link`; inbound window 7 covers 4 KiB from 0x10000. -/
def rvState (link : Nat) : State :=
  let s := (ready State.reset [pgRv 7]).setFld (pgRv 7) Reg.RV_STATE 0 2 link
  { s.setRv 7 { s.rv 7 with tables := [(256 + 7, [0x10000, 0, 1])] } with airtime := 300000000 }
theorem witness_RealvinPackets :
    (let s := rvState 2
     s.rvOn 7 = true ∧ s.rvLink 7 = 2 ∧ (s.rv 7).replay = [] ∧ (s.rv 7).stalled = [] ∧ (s.rv 7).rxSeq = 0 ∧ rvIntact [] = false) ∧
    (∀ ty ∈ [1, 2, 3], ∀ q ∈ [0, 1, 2047, 2048, 4095], let pkt := rvPacket ty q 0 false 5 []
      rvIntact pkt = true ∧ bitsOf (rvHead pkt) 0 4 = ty ∧ (bitsOf (rvHead pkt) 4 12 + 4096 - 0) % 4096 = q) ∧
    (∀ x ∈ [(0x10FFF, 1), (0x11000, 1)], let pkt := rvPacket 1 0 0 false (x.1 + x.2 * 2 ^ 48) [0x77]
      bitsOf (rvHead pkt) 33 48 = x.1 ∧ bitsOf (rvHead pkt) 81 16 = x.2 ∧ x.2 ≤ (pkt.drop 32).length ∧ rvIntact pkt = true) ∧
    (let e := ((rvState 2).rv 7).entry 1 7
     (e.getD 0 0).toNat + (e.getD 1 0).toNat * 2 ^ 32 = 0x10000 ∧ (e.getD 2 0).toNat * 4096 = 4096) := by decide +kernel
/-- A link with two packets not acknowledged, sent at AIRTIME 299999000, SEQ 5 and 6. -/
def rvBusy : State :=
  let s := rvState 2
  let s := s.setFld (pgRv 7) Reg.RV_TIMERS 0 16 1000
  let s := s.setFld (pgRv 7) Reg.RV_STATE 2 1 1
  s.setRv 7 { RvSt.reset with replay := [⟨5, .write 0 [1], 299999000⟩, ⟨6, .write 0 [2], 299999000⟩], txSeq := 7 }
theorem witness_RealvinPackets_replay :
    (∀ ty ∈ [0, 4], let s := rvBusy
      let pkt := rvPacket ty 0 6 false 0 []
      s.rvOn 7 = true ∧ s.rvLink 7 = 2 ∧ rvIntact pkt = true ∧ bitsOf (rvHead pkt) 0 4 = ty ∧ bitOf (rvHead pkt) 28 = false ∧
      (s.rv 7).wait = [] ∧ (s.rv 7).tables = [] ∧ (s.rv 7).replay.findIdx? (fun k => k.seq == bitsOf (rvHead pkt) 16 12) = some 1) ∧
    (∀ k ∈ (rvBusy.rv 7).replay, ∃ a bs, k.body = .write a bs) ∧
    (∀ t ∈ [299999999, 300000000], let s := { rvBusy with airtime := t }
      s.rvOn 7 = true ∧ s.rvLink 7 = 2 ∧ (s.rv 7).replay.head?.map (·.sentAt) = some 299999000 ∧ s.rvTimeout 7 = 1000) := by
  refine ⟨by decide +kernel, ?_, by decide +kernel⟩
  intro k hk
  have : (rvBusy.rv 7).replay = [⟨5, .write 0 [1], 299999000⟩, ⟨6, .write 0 [2], 299999000⟩] := by decide +kernel
  rw [this] at hk
  simp at hk
  rcases hk with rfl | rfl <;> exact ⟨_, _, rfl⟩

/-- Link 7 rises and trains; lanes 0 to 7 of its octant are READY where `m` has them, and enabled; its claim to lead is `c`. -/
def rvTrain (m c : Nat) : State :=
  let s := ready State.reset (((List.range 8).filter (bitOf m)).map fun j => pgLane (56 + j))
  let s := (s.setFld (pgRv 7) Reg.PG_STATE 0 4 stRising).setFld (pgRv 7) Reg.RV_STATE 0 2 1
  (s.setFld (pgRv 7) Reg.RV_CFG 8 8 0xFF).setFld (pgRv 7) Reg.RV_CFG 0 1 c
/-- Link 7 is up on the lanes of `m`; lane 7 is aligned. -/
def rvLanes (m n : Nat) : State :=
  let s := (ready (rvState 2) [pgLane 63]).setFld (pgLane 63) Reg.LN_ALIGN 2 1 1
  let s := (s.setFld (pgRv 7) Reg.RV_CFG 8 8 0xFF).setFld (pgRv 7) Reg.RV_STATE 8 8 m
  s.setRv 7 { RvSt.reset with replays := n, swapOut := true }
theorem witness_RealvinLinks_training :
    (∀ m ∈ [0, 0x81], ∀ c ∈ [0, 1], let s := rvTrain m c
      s.part (pgRv 7) = stRising ∧ s.rvLink 7 = 1 ∧ (s.rv 7).tables = [] ∧ s.fld (pgRv 7) Reg.RV_CFG 0 1 = c ∧
      ((List.range 8).filter fun j =>
        bitOf 0xFF j && s.fld (pgRv 7) Reg.RV_CFG (8 + j) 1 == 1 && s.ready (pgLane (56 + j))).foldl (fun a j => a + 2 ^ j) 0 = m) ∧
    (∀ n ∈ [3, 4], let s := rvLanes 3 n
      s.rvOn 7 = true ∧ s.rvLink 7 = 2 ∧ (s.rv 7).replays = n ∧ (s.rv 7).swapOut = true ∧ allowed s .ward (pgRv 7) = true) ∧
    (let s := rvLanes 3 0
     bitOf (s.rvActive 7) 1 = true ∧ popcount8 (s.rvActive 7) = 2 ∧ bitOf (s.rvActive 7) 7 = false ∧
     s.fld (pgRv 7) Reg.RV_CFG 15 1 = 1 ∧ s.ready (pgLane 63) = true ∧ s.fld (pgLane 63) Reg.LN_ALIGN 2 1 = 1) ∧
    (bitOf ((rvLanes 0x80 0).rvActive 7) 7 = true ∧ popcount8 ((rvLanes 0x80 0).rvActive 7) = 1) := by decide +kernel
/-- A link that retrains since AIRTIME 0. -/
def rvDownState (t : Nat) : State := { (rvState 3).setRv 7 { RvSt.reset with retrainAt := 0 } with airtime := t }
/-- The table window selects an entry of a table; entry 0 of the queue map forwards queue 9, which holds an item. -/
def rvTableState (tb j : Nat) (staged : List Word) : State :=
  let s := ((rvState 2).setFld (pgRv 7) Reg.RV_TSEL 8 2 tb).setFld (pgRv 7) Reg.RV_TSEL 0 8 j
  let s := s.setRv 7 { RvSt.reset with staged := staged, tables := [(512, [0x100009, 0])] }
  { s with fab := { s.fab with items := [{ task0 with phase := .queued, q := 9, exec := none }] } }
theorem witness_RealvinLinks :
    (∀ t ∈ [196607999, 196608000], let s := rvDownState t
      s.rvLink 7 = 3 ∧ (s.rv 7).retrainAt = 0 ∧ (s.rv 7).replay.map (·.body) ++ (s.rv 7).wait = []) ∧
    (∀ x ∈ [(0, 15), (0, 16), (1, 7), (1, 8), (2, 255), (3, 15), (3, 16)], let s := rvTableState x.1 x.2 []
      allowed s .ward (pgRv 7) = true ∧ s.fld (pgRv 7) Reg.RV_TSEL 8 2 = x.1 ∧ s.fld (pgRv 7) Reg.RV_TSEL 0 8 = x.2) ∧
    ((rvTable 0).1 = 16 ∧ (rvTable 1).1 = 8 ∧ (rvTable 2).1 = 256 ∧ (rvTable 3).1 = 16) ∧
    (rvEntryOk 2 [0x400000, 0] = false ∧ rvEntryOk 2 [0, 0] = true) ∧
    (let s := rvTableState 2 0 []
     wfld ((s.rv 7).entry 2 0) 0 20 2 = 1 ∧ s.qCount (wfld ((s.rv 7).entry 2 0) 0 0 20) ≠ 0) := by decide +kernel


/-! The mailbox -/

/-- The queue of Ward's mailbox holds one request of function `f`. -/
def mbxState (f code : Nat) (pars : List Word) : State :=
  let s := State.reset.setMode modeServe
  let s := s.setWin f { FnWin.reset with
    mbx := .running
    mbxReq := ([BitVec.ofNat 32 (code + pars.length * 2 ^ 16), 0] ++ pars ++ List.replicate 62 0).take 64 }
  s.setWard { s.ward with queue := [f] }
/-- The request at the front is this one. -/
def mbxFrontB (s : State) (code f : Nat) (pars : List Word) : Bool :=
  let w := (s.win f).mbxReq
  s.mbxOpen && s.ward.queue.head? == some f && s.mbxServes code && (w.getD 0 0).toNat % 65536 == code &&
    (w.getD 0 0).toNat / 65536 % 256 == pars.length && decide (pars.length ≤ 62) && (w.drop 2).take pars.length == pars
theorem mbxFront_of {s : State} {code f : Nat} {pars : List Word} (h : mbxFrontB s code f pars = true) : mbxFront s code f pars := by
  simpa [mbxFrontB, mbxFront, and_assoc] using h
/-- A request can be sent; the window is in the state `m`, `n` requests wait. -/
def goState (m : MbxState) (n : Nat) : State :=
  let s := (hostState true).setWin 0 { FnWin.reset with mbx := m }
  s.setWard { s.ward with queue := List.replicate n 5 }
theorem witness_MailboxRequests_go :
    (∀ m ∈ [MbxState.idle, .done, .busy, .queued, .running], ∀ n ∈ [63, 64], let s := goState m n
      s.winUp 0 = true ∧ (s.win 0).mbx = m ∧ s.ward.queue.length = n) ∧
    ([] : List Word).length ≤ 62 ∧ (List.replicate 62 (1 : Word)).length ≤ 62 := by decide +kernel
theorem witness_MailboxRequests_unknown : mbxFront (mbxState 63 0x999 []) 0x999 63 [] ∧ 0x999 ∉ mbxCodes :=
  ⟨mbxFront_of (by decide +kernel), by decide⟩
/-- Queue 3 is the PF's, or function 5's. -/
def mbxQ (f code : Nat) (pars : List Word) : State := (mbxState f code pars).setQcb 3 ⟨[BitVec.ofNat 32 (2 ^ 18), 2, 0, 0, 0, 0], false⟩
theorem witness_MailboxRequests_queue :
    (∀ code ∈ [0x001, 0x003, 0x004, 0x005], ∀ f ∈ [0, 5], let s := mbxQ f code [3]
      mbxFrontB s code f [3] = true ∧ ((s.qcb 3).owner = f ↔ f = 0)) ∧
    (let pars : List Word := [3, 0, 0, 0, 0, 0, 0]
     let s := mbxQ 0 0x002 pars
     let s := { s with tilth := { s.tilth with pools := [(0, [1])] } }
     let c : Qcb := ⟨pars.drop 1, false⟩
     pars.length = 7 ∧ mbxFrontB s 0x002 0 pars = true ∧ (s.qcb 3).owner = 0 ∧ c.owner = 0 ∧ poolValid (s.pool c.pool) = true ∧
     poolOwner (s.pool c.pool) = 0) ∧
    (let pars : List Word := [3, 0x5000, 0, 0, 0, 0, 0]
     let c : Qcb := ⟨pars.drop 1, false⟩
     mbxFrontB (mbxQ 0 0x002 pars) 0x002 0 pars = true ∧ c.owner ≠ 0) ∧
    (3 : Word).toNat < 2 ^ 20 ∧ mbxFrontB (mbxQ 0 0x001 []) 0x001 0 [] = true := by decide +kernel
/-- Pool 0 is the PF's and VALID; a handle request waits. -/
def mbxHandleState (f code : Nat) (e : List Word) : State :=
  let m := mbxState f code [0]
  let s := { handleState e with wins := m.wins, ward := m.ward }
  s.setMode modeServe
theorem witness_MailboxRequests_handle :
    (∀ x ∈ [(0x010, freeEntry), (0x011, boundEntry 1), (0x012, boundEntry 1)], let s := mbxHandleState 0 x.1 x.2
      mbxFrontB s x.1 0 [0] = true ∧ poolValid (s.pool (hPool 0)) = true ∧ poolOwner (s.pool (hPool 0)) = 0) ∧
    (∀ x ∈ [(0x010, freeEntry), (0x011, boundEntry 1), (0x012, boundEntry 1)], let s := mbxHandleState 5 x.1 x.2
      mbxFrontB s x.1 5 [0] = true ∧ poolOwner (s.pool (hPool 0)) ≠ 5) ∧
    (let v (x : Nat × List Word) : State := ((mbxTaken (mbxHandleState 0 x.1 x.2)).setReg pgTilth Reg.TLT_HSEL 0).hResult 7
     ((v (0x010, freeEntry)).hBind .ward (deepBase + 0x300000)).fld pgTilth Reg.TLT_HCMD 9 3 ≠ 7 ∧
     ((v (0x011, boundEntry 1)).hRelease .ward).fld pgTilth Reg.TLT_HCMD 9 3 ≠ 7 ∧
     ((v (0x012, boundEntry 1)).hRead .ward).fld pgTilth Reg.TLT_HCMD 9 3 ≠ 7) := by decide +kernel
/-- Core 3's page is function 5's. -/
def mbxPage (code : Nat) (f : Nat) (pars : List Word) : State := (mbxState f code pars).setFld ⟨.coreCtl, 3⟩ Reg.PG_OWNER 0 6 5
theorem witness_MailboxRequests_pages :
    (∀ f ∈ [5, 6], let a : Word := BitVec.ofNat 32 ((⟨.coreCtl, 3⟩ : Page).addr + 0x40)
      mbxFrontB (mbxPage 0x020 f [a]) 0x020 f [a] = true ∧ mbxFrontB (mbxPage 0x021 f [a, 1]) 0x021 f [a, 1] = true ∧
      a.toNat % 4 = 0 ∧ pageAt a.toNat = some ⟨.coreCtl, 3⟩ ∧
      ((mbxPage 0x020 f [a]).owner ⟨.coreCtl, 3⟩ = f ↔ f = 5)) ∧
    (∀ f ∈ [0, 5], let s := mbxState f 0x031 [1023]
      let s := { s with tilth := { s.tilth with pools := [(1023, [BitVec.ofNat 32 (5 * 2 ^ 1)])] } }
      mbxFrontB s 0x031 f [1023] = true) ∧
    (∀ f ∈ [0, 5], let s := mbxState f 0x030 (1023 :: List.replicate 24 0)
      let s := { s with tilth := { s.tilth with staged := List.replicate 32 0 } }
      mbxFrontB s 0x030 f (1023 :: List.replicate 24 0) = true ∧ s.tilth.staged.length = 32) ∧
    (poolOwner ((mbxState 5 0x031 [1]).pool 1) ≠ 5) ∧
    mbxFrontB (mbxState 0 0x100 []) 0x100 0 [] = true ∧ mbxFrontB (mbxState 0 0x101 []) 0x101 0 [] = true := by decide +kernel


/-! Flash, images and boot -/

/-- A Ward firmware of body 1, 2, 3, 4: header and signature, made with a P-384 key made up for this test (R550). -/
def fwImage : List Byte := leBytes 0x130
  0x8b2b4fa20e7200155a60990228e7198922cfb4b6bacc291d7e0279c936204a9ee1440489ebbe8a5e33ea38827788d5848ea152804a5778cf3d24cdf6a6c3a45815242811ea0d76fd2c5b89a4031a736311d916d3c993261500d9b875aa368854fe7f6bbcca6f363ed48394579ed47bb140fdb71a561d099940bb05ceb3636ee0d9a394b03d83815240dd84c4421acd82b3003436ffd5058b43f4ed8e4f20075b95dedc336cd4ea4e8fb08460f24666c1f19e51b07efc1704c796011dbe1e97a5c7f32e2b2fb46cc66a3812d76d7bad282ada305b9593177049747dcdc411d6edc04393333e4ba3e258c0a43627d665a0000000000000000000000000000000000000000000000000000000000000000000000000000000400000002000000070000000000000000000000014e4b4947
/-- The hash of that key. -/
def keyHash : List Byte := leBytes 48
  0x7002639514331f46f45b3c35292c795006d9194e7a2a82ab903616c06a675a5c049d84ab49f9b9ca500ecaef09b33849
def le4 (ws : List Nat) : List Byte := ws.flatMap (leBytes 4)
/-- Bytes as flash holds them from an offset on. -/
def flashCells : Nat → List Byte → List Host.Cell
  | _, [] => []
  | a, b :: bs => if b = 0xFF then flashCells (a + 1) bs else (a, b) :: flashCells (a + 1) bs
/-- The firmware with its body. -/
def fwBytes : List Byte := fwImage ++ List.replicate 208 0xFF ++ [1, 2, 3, 4]
/-- The boot record with these flags; slot A holds the firmware where `va`. -/
def bootFlash (flags : Nat) (va : Bool) : List Host.Cell :=
  let r := le4 [0x4E4B4252, 5, flags, 0x100000, 0x200000, 0x100000]
  let dir := flashCells 0 (r ++ leBytes 4 (crc32 r)) ++ flashCells 0x100000 (le4 [0x4E4B5344, 1, 0x100, 0x204])
  dir ++ (flashCells 0x100100 (if va then fwBytes else []) ++ [])
/-- That flash, and the hash of the key in OTP, before BOOT. -/
def bootState (flags : Nat) (va : Bool) : State :=
  let s := State.reset.otpSet (otpKeySlot 0) keyHash
  s.setWard { s.ward with flash := bootFlash flags va }
/-- BOOT has read the hash. -/
def keyed (s : State) : State := s.setWard { s.ward with keys := [keyHash] }

theorem lookup?_append {α : Type} (k : Nat) (l m : List (Nat × α)) : lookup? k (l ++ m) = (lookup? k l).orElse fun _ => lookup? k m := by
  induction l with
  | nil => simp [lookup?]
  | cons h t ih =>
    obtain ⟨j, v⟩ := h
    by_cases e : j = k <;> simp [lookup?, e, ih]
theorem lookup?_flashCells_low (bs : List Byte) : ∀ a k, k < a → lookup? k (flashCells a bs) = none := by
  induction bs with
  | nil => intros; rfl
  | cons b bs ih =>
    intro a k h
    have := ih (a + 1) k (by omega)
    unfold flashCells
    split
    · exact this
    · simp [lookup?, show a ≠ k by omega, this]
theorem lookup?_flashCells (bs : List Byte) : ∀ a i, (lookup? (a + i) (flashCells a bs)).getD 0xFF = bs.getD i 0xFF := by
  induction bs with
  | nil => intros; rfl
  | cons b bs ih =>
    intro a i
    rcases i with _ | i
    · unfold flashCells
      split
      · rename_i h
        rw [lookup?_flashCells_low _ _ _ (by omega)]
        simp [h]
      · simp [lookup?]
    · have := ih (a + 1) i
      rw [show a + 1 + i = a + (i + 1) by omega] at this
      unfold flashCells
      split
      · simpa using this
      · simp only [List.getD_eq_getElem?_getD, List.getElem?_cons_succ] at this ⊢
        rw [← this]
        simp [lookup?]
/-- What flash holds between two other parts of its list. -/
theorem flashBytes_in {s : State} {pre post : List Host.Cell} {lo : Nat} {bs : List Byte}
    (h : s.ward.flash = pre ++ (flashCells lo bs ++ post)) (hpre : ∀ i, i < bs.length → lookup? (lo + i) pre = none)
    (hpost : ∀ i, i < bs.length → lookup? (lo + i) post = none) (o n : Nat) (hn : o + n ≤ bs.length) :
    s.flashBytes (lo + o) n = (bs.drop o).take n := by
  apply List.ext_getElem
  · simp [State.flashBytes]; omega
  · intro j h1 h2
    have hj : j < n := by simpa [State.flashBytes] using h1
    have e := lookup?_flashCells bs lo (o + j)
    have hp := hpre (o + j) (by omega)
    have hq := hpost (o + j) (by omega)
    have : s.flashByte (lo + (o + j)) = bs.getD (o + j) 0xFF := by
      rw [← e]
      unfold State.flashByte
      rw [h, lookup?_append, lookup?_append, hp, hq]
      cases lookup? (lo + (o + j)) (flashCells lo bs) <;> simp
    simp [State.flashBytes, Nat.add_assoc, this, List.getD, show o + j < bs.length by omega]

/-- The firmware of slot A passes every test in a state of that flash in which BOOT has read the key's hash. -/
theorem imageOk_fw {s : State} (flags : Nat) (hf : flags ∈ [2, 7]) (h : s.ward = (bootState flags true).bootOtp.ward) :
    s.imageOk 0x100100 0x204 = true := by
  have hs : s.ward.flash = bootFlash flags true := by rw [h]; rfl
  have hk : s.ward.keys.getD 0 [] = keyHash := by
    rw [h]
    have : ∀ f ∈ [2, 7], (bootState f true).bootOtp.ward.keys.getD 0 [] = keyHash := by decide +kernel
    exact this flags hf
  have hr : s.ward.revoked = 0 := by
    rw [h]
    have : ∀ f ∈ [2, 7], (bootState f true).bootOtp.ward.revoked = 0 := by decide +kernel
    exact this flags hf
  have hb : s.rollback 0 = 0 := by
    have e : s.rollback 0 = (bootState flags true).bootOtp.rollback 0 := by simp only [State.rollback, State.otpNum, State.otpBytes, h]
    rw [e]
    have : ∀ f ∈ [2, 7], (bootState f true).bootOtp.rollback 0 = 0 := by decide +kernel
    exact this flags hf
  have hpre : ∀ f ∈ [2, 7], ∀ i, i < fwBytes.length → lookup? (0x100100 + i)
      (flashCells 0 (le4 [0x4E4B4252, 5, f, 0x100000, 0x200000, 0x100000] ++
        leBytes 4 (crc32 (le4 [0x4E4B4252, 5, f, 0x100000, 0x200000, 0x100000]))) ++
        flashCells 0x100000 (le4 [0x4E4B5344, 1, 0x100, 0x204])) = none := by decide +kernel
  have H := fun o n hn => flashBytes_in (bs := fwBytes) (lo := 0x100100) (post := []) (by rw [hs]; rfl) (hpre flags hf) (by simp [lookup?]) o n hn
  have L : fwBytes.length = 516 := by decide +kernel
  rw [L] at H
  have H0 := H 0 4 (by omega)
  have Hd := H 0 0xD0 (by omega)
  rw [Nat.add_zero] at H0 Hd
  have t0 : ofLe ((fwBytes.drop 8).take 4) = 0 := by decide +kernel
  have n0 : ofLe ((fwBytes.drop 0x18).take 4) = 4 := by decide +kernel
  have k0 : ofLe ((fwBytes.drop 0x20).take 4) = 0 := by decide +kernel
  simp only [State.imageOk, State.imgType, State.imgKey, State.imgLen, State.imgRollback, State.flashW, H0, Hd,
    H 0x1C 4 (by omega), H 8 4 (by omega), H 4 4 (by omega), H 0x20 4 (by omega), H 0x18 4 (by omega), H 0x14 4 (by omega),
    H 0x70 96 (by omega), H 0x70 48 (by omega), H 0xA0 48 (by omega), H 0xD0 48 (by omega), H 0x100 48 (by omega),
    H 0x40 48 (by omega), t0, n0, k0, hk, hr, hb, H 512 4 (by omega), show ((0 : Nat) != 5) = true from rfl, Bool.true_or]
  decide +kernel

/-- What Ward reads of flash rests on Ward's state alone. -/
def onWard (w : Ward) : State := { State.reset with ward := w }
theorem slotImages_ward (s : State) (n : Nat) : s.slotImages n = (onWard s.ward).slotImages n := rfl
theorem imgType_ward (s : State) (a : Nat) : s.imgType a = (onWard s.ward).imgType a := rfl
theorem imgLen_ward (s : State) (a : Nat) : s.imgLen a = (onWard s.ward).imgLen a := rfl
theorem wardImage_fw {s : State} (flags : Nat) (hf : flags ∈ [2, 7]) (h : s.ward = (bootState flags true).bootOtp.ward) :
    s.wardImage 0 = some 0x100100 := by
  have e : ∀ f ∈ [2, 7], (onWard (bootState f true).bootOtp.ward).slotImages 0 = [(0x100100, 0x204)] := by
    decide +kernel
  have t' : ∀ f ∈ [2, 7], (onWard (bootState f true).bootOtp.ward).imgType 0x100100 = 0 := by
    decide +kernel
  have l' : ∀ f ∈ [2, 7], (onWard (bootState f true).bootOtp.ward).imgLen 0x100100 = 4 := by
    decide +kernel
  have t0 : s.imgType 0x100100 = 0 := by rw [imgType_ward, h]; exact t' flags hf
  have l0 : s.imgLen 0x100100 = 4 := by rw [imgLen_ward, h]; exact l' flags hf
  unfold State.wardImage
  rw [slotImages_ward, h, e flags hf]
  simp [t0, l0, imageOk_fw flags hf h]
theorem witness_BootOutcomes :
    (∀ f ∈ [2, 7, 0x10, 0], ∀ va ∈ [true, false], let s := bootState f va
      s.pins.on = true ∧ s.mode = modeBoot ∧ s.fld pgWard Reg.WRD_BOOT 2 2 ≠ 2 ∧
      s.bootOtp.bootRec = some (0, [0x4E4B4252, 5, f, 0x100000, 0x200000, 0x100000])) ∧
    State.reset.bootOtp.bootRec = none ∧
    (∀ f ∈ [2, 7], let r := [0x4E4B4252, 5, f, 0x100000, 0x200000, 0x100000]
      brCommitted r (brPreferred r) = true ∧ (bootChoice r).2 = r.getD 2 0 ∧ brCommitted r (1 - (bootChoice r).1) = (f == 7) ∧
      (bootChoice r).1 = (if f = 2 then 0 else 1)) ∧
    (let r := [0x4E4B4252, 5, 0x10, 0x100000, 0x200000, 0x100000]
     brCommitted r (brPreferred r) = false ∧ brTries r > 0) ∧
    (let r := [0x4E4B4252, 5, 0, 0x100000, 0x200000, 0x100000]
     brCommitted r (brPreferred r) = false ∧ brTries r = 0) ∧
    ((bootState 7 true).bootOtp.wardImage 1 = none ∧ (bootState 2 false).bootOtp.wardImage 0 = none) := by decide +kernel
theorem witness_BootOutcomes_image : (bootState 2 true).bootOtp.wardImage 0 = some 0x100100 ∧
    (bootState 7 true).bootOtp.wardImage 0 = some 0x100100 := ⟨wardImage_fw 2 (by decide) rfl, wardImage_fw 7 (by decide) rfl⟩


/-! What Ward serves for the PF -/

/-- A request with that flash; `booted` is the slot that runs. -/
def serveState (f code : Nat) (pars : List Word) (flags booted : Nat) (va : Bool) : State :=
  let s := (mbxState f code pars).setFld pgWard Reg.WRD_BOOT 0 1 booted
  s.setWard { (bootState flags va).ward with queue := [f], keys := [keyHash] }
theorem witness_MailboxService_denied :
    ∀ code ∈ [0x201, 0x202, 0x203, 0x204, 0x205, 0x206, 0x209, 0x20A, 0x20B], mbxFrontB (mbxState 5 code []) code 5 [] = true := by
  decide +kernel
theorem witness_MailboxService_logs :
    (∀ f ∈ [0, 5], mbxFrontB (mbxState f 0x200 []) 0x200 f [] = true ∧ mbxFrontB (mbxState f 0x208 [14]) 0x208 f [14] = true) := by
  decide +kernel
theorem witness_MailboxService :
    (∀ code ∈ [0x201, 0x203, 0x205], ∀ booted ∈ [0, 1],
      mbxFrontB (mbxState 0 code []) code 0 [] = true ∧ (mbxState 0 code []).bootRec = none ∧
      mbxFrontB (serveState 0 code [] 2 booted true) code 0 [] = true ∧ (serveState 0 code [] 2 booted true).bootSlot = booted ∧
      (serveState 0 code [] 2 booted true).bootRec.isSome = true) ∧
    (∀ x ∈ [((0, 0xFFFFC) : Nat × Nat), (1, 0xFFFFC), (1, 0xFFFFD), (2, 0)],
      let pars := [BitVec.ofNat 32 x.1, BitVec.ofNat 32 x.2, 0x55]
      let s := serveState 0 0x202 pars 2 0 false
      mbxFrontB s 0x202 0 pars = true ∧ s.bootSlot = 0 ∧ s.inRecovery = false ∧ s.bootRec.map (fun b => brSize b.2) = some 0x100000 ∧
      (wordBytes (pars.drop 2)).length = 4) ∧
    (let pars : List Word := [1, 0, 3]
     mbxFrontB (mbxState 0 0x202 pars) 0x202 0 pars = true ∧ (mbxState 0 0x202 pars).bootRec = none) ∧
    (∀ x ∈ [((0x3F, 0) : Nat × Nat), (0, 5)], let pars := [BitVec.ofNat 32 x.1, BitVec.ofNat 32 x.2, 0]
      mbxFrontB (serveState 0 0x204 pars 2 0 true) 0x204 0 pars = true) ∧
    (∀ n ∈ [2, 3], let pars : List Word := [0, BitVec.ofNat 32 n]
      mbxFrontB (serveState 0 0x206 pars 2 0 true) 0x206 0 pars = true ∧ mbxFrontB (mbxState 0 0x206 pars) 0x206 0 pars = true ∧
      (serveState 0 0x206 pars 2 0 true).bootRec.map (fun b => committedSlot b.2 0) = some (some 0)) := by decide +kernel
/-- WARD_UPDATE waits, and slot A is preferred and holds a firmware. -/
theorem witness_MailboxService_update : let s := serveState 0 0x205 [] 2 0 true
    mbxFront s 0x205 0 [] ∧ s.bootRec = some (0, [0x4E4B4252, 5, 2, 0x100000, 0x200000, 0x100000]) ∧
    s.fld pgWard Reg.WRD_PAIRS 1 2 ≠ 3 := ⟨mbxFront_of (by decide +kernel), by decide +kernel, by decide +kernel⟩
/-- Ring 11 has failed in segment 77. -/
def ringLost (pars : List Word) : State :=
  let s := (mbxState 0 0x209 pars).setFld pgRing Reg.RNG_STATE 11 1 1
  s.setReg pgRing (Reg.RNG_FAIL_SEG + 44) 77
theorem witness_MailboxService_rings :
    (let s := ringLost [11, 77]
     mbxFrontB s 0x209 0 [11, 77] = true ∧ s.ringFailed 11 = true ∧ s.fld pgRing (Reg.RNG_FAIL_SEG + 44) 0 7 = 77) ∧
    mbxFrontB (ringLost [12, 0]) 0x209 0 [12, 0] = true ∧
    (mbxFrontB (ringLost [10, 0]) 0x209 0 [10, 0] = true ∧ (ringLost [10, 0]).ringFailed 10 = false) ∧
    (∀ n ∈ [3, 4], let pars : List Word := [BitVec.ofNat 32 n, 1, 2, 3, 4]
      mbxFrontB (mbxState 0 0x20A pars) 0x20A 0 pars = true) ∧
    (∀ c ∈ [0x20, 0x40], let pars : List Word := [BitVec.ofNat 32 c, 0x1234]
      mbxFrontB (mbxState 0 0x20B pars) 0x20B 0 pars = true) := by decide +kernel


/-! Resets, modes and parts -/

theorem witness_DeviceResets :
    mbxFrontB (mbxState 0 0x207 []) 0x207 0 [] = true ∧
    (let s := State.reset.setMode modeSafe
     s.pins.on = true ∧ s.mode = modeSafe ∧ s.ward.stopped = false) ∧
    State.reset.mode ≠ modeSafe ∧ State.reset.pins.on = true ∧
    ({ State.reset with pins := { State.reset.pins with on := false } } : State).pins.on = false := by decide +kernel
/-- The device in a mode, its link up. -/
def modeState (m : Nat) : State := (hostState false).setMode m
/-- … with REST entered from `m`, or being entered since AIRTIME 0. -/
def restState (m now : Nat) (done : Bool) (edges : Nat) : State :=
  { (if done then modeState modeRest else modeState m) with rest := some ⟨m, 0, done, edges⟩, airtime := now }
/-- … with what wakes it. -/
def wakeState (done : Bool) (ctrl now edges : Nat) : State :=
  let s := restState modeServe now done edges
  (s.setReg pgDevice Reg.DEV_WAKE_CTRL (BitVec.ofNat 32 ctrl)).setReg pgDevice Reg.DEV_WAKE_ALARM_LO 1000
theorem witness_DeviceModes :
    (∀ m ∈ [modeRise, modeServe, modeTrim, modeTest, modeSafe], let s := modeState m
      (m ≠ modeSafe → allowed s (.fn 0) pgDevice = true) ∧ agTrusted (.fn 0) = true ∧ allowed s .ward pgDevice = true ∧
      s.fld pgDevice Reg.DEV_MODE 8 1 = 0 ∧ s.rest = none ∧ s.mode = m ∧ s.noGen = true) ∧
    (∀ n, n < 20 → (modeState modeServe).fld pgTime (treqOff n Reg.TB_TREQ_PERIOD) 31 1 = 0) ∧
    (let s := (modeState modeServe).setReg pgTime (treqOff 19 Reg.TB_TREQ_PERIOD) 0x80000001
     s.mode = modeServe ∧ s.fld pgTime (treqOff 19 Reg.TB_TREQ_PERIOD) 31 1 = 1) ∧
    ((modeState modeServe).planesOff = true ∧ ((modeState modeServe).setFld ⟨.coreCtl, 0⟩ Reg.PG_STATE 0 4 stReady).planesOff = false) := by
  decide +kernel
theorem witness_DeviceModes_rest :
    (∀ now ∈ [1966079, 1966080], let s := restState modeServe now false 0
      s.rest = some ⟨modeServe, 0, false, 0⟩ ∧ s.workDone = true ∧ (s.setCore 0 runCore).workDone = false ∧
      s.mode ≠ modeRest ∧ allowed s .ward pgDevice = true) ∧
    (let s := restState modeTrim 0 true 0
     s.rest = some ⟨modeTrim, 0, true, 0⟩ ∧ s.mode = modeRest ∧ modeTrim < 16 ∧ allowed s (.fn 0) pgDevice = true) ∧
    (∀ x ∈ [(7 + 3 * 2 ^ 16, 1000, 3), (0, 999, 2), (3 * 2 ^ 16, 999, 2)], let s := wakeState true x.1 x.2.1 x.2.2
      s.fld pgDevice Reg.DEV_WAKE_CTRL 0 3 = x.1 % 8 ∧ s.reg64 pgDevice Reg.DEV_WAKE_ALARM_LO = 1000 ∧ s.airtime = x.2.1 ∧
      s.fld pgDevice Reg.DEV_WAKE_CTRL 16 16 = x.1 / 2 ^ 16 ∧ s.rest = some ⟨modeServe, 0, true, x.2.2⟩) ∧
    (wakeState false 1 0 0).fld pgDevice Reg.DEV_WAKE_CTRL 0 1 = 1 ∧ (0x7FF : Nat) < 2 ^ 11 := by decide +kernel

/-- A part in a state, with the last command and BUSY as they are, all it stands on READY. -/
def partState (p : Page) (st cmd busy : Nat) (up : List Page) : State :=
  let s := ready ((State.reset).setMode modeServe) up
  ((s.setFld p Reg.PG_STATE 0 4 st).setFld p Reg.PG_STATE 8 3 cmd).setFld p Reg.PG_STATE 11 1 busy
def stopOf (p : Page) : List Page := match p.stop with
  | some x => [pgStop x]
  | none => []
theorem witness_PartCommands :
    (∀ st ∈ [stDown, stReady, stTending, stFaulted], let p : Page := ⟨.coreCtl, 271⟩
      let s := partState p st 0 0 (stopOf p ++ [⟨.clod, 15⟩])
      pageAt p.addr = some p ∧ allowed s .ward p = true ∧ p.home = p ∧ s.part p = st ∧ s.fld p Reg.PG_STATE 11 1 = 0 ∧
      s.riseCheck p = none ∧ s.prereqsOk p = true ∧ risesByEvent p.kind = false ∧ bitOf p.caps 3 = true ∧ bitOf p.caps 4 = true ∧
      bitOf p.caps 2 = true ∧ s.retainOk p = true) ∧
    (∀ st ∈ [stDown, stDraining], let p : Page := ⟨.bfe, 0⟩
      let s := partState p st 0 1 []
      pageAt p.addr = some p ∧ s.part p = st ∧ s.fld p Reg.PG_STATE 11 1 = 1 ∧ s.prereqsOk p = p.stop.isNone) ∧
    (let p : Page := ⟨.lane, 63⟩
     let s := (partState p stDown 0 0 []).setReg pgDevice Reg.DEV_PAD_HELD 0x80
     pageAt p.addr = some p ∧ s.riseCheck p = some (rsPower, 7)) ∧
    (let p : Page := ⟨.framer, 3⟩
     bitOf p.caps 2 = false ∧ (partState p stReady 0 0 []).part p = stReady ∧ pageAt p.addr = some p) ∧
    (let p : Page := ⟨.hbmPc, 5⟩
     let s := partState p stReady 0 0 []
     let u := ((List.range 128).filter (· != 5)).foldl (fun s c => s.setFld ⟨.hbmPc, c⟩ Reg.PG_STATE 0 4 stFaulted) s
     pageAt p.addr = some p ∧ bitOf p.caps 3 = true ∧ s.part p = stReady ∧ (s.roomFor 5).isSome = true ∧ u.part p = stReady ∧
     u.roomFor 5 = none) ∧
    (let p : Page := ⟨.framer, 3⟩
     let s := (partState p stFaulted 0 0 []).setFld p identOff 0 5 0x13
     s.identity p = some 3 ∧ spareOf p = some ⟨.framer, 16⟩ ∧ s.part ⟨.framer, 16⟩ = stDown ∧ s.identity ⟨.framer, 16⟩ = none ∧
     s.ward.stopped = false) := by decide +kernel

/-- The part's last command was taken at AIRTIME 0. -/
def cmdState (p : Page) (st cmd now : Nat) : State := { partState p st cmd 1 [] with airtime := now }
/-- The device rises by itself; the first part of the set has not been tried. -/
def riseState (p : Page) (st : Nat) : State :=
  let s := (hostState false).setMode modeRise
  (s.setFld pgHif Reg.PG_STATE 0 4 stDown).setFld p Reg.PG_STATE 0 4 st
/-- Ward retires faulted parts by policy. -/
def policyState : State :=
  (partState ⟨.coreCtl, 271⟩ stFaulted 0 0 (stopOf ⟨.coreCtl, 271⟩ ++ [⟨.clod, 15⟩])).setFld pgWard Reg.WRD_POLICY 0 1 1
theorem witness_PartTransitions :
    (∀ x ∈ [((stDraining, 2) : Nat × Nat), (stDraining, 6), (stReady, 0)], let p : Page := ⟨.coreCtl, 271⟩
      let s := partState p x.1 x.2 1 []
      pageAt p.addr = some p ∧ p.kind ≠ .coreDbg ∧ s.part p = x.1 ∧ s.fld p Reg.PG_STATE 8 3 = x.2 ∧ s.drained p = true ∧
      (s.setCore 271 runCore).drained p = false) ∧
    (let p : Page := ⟨.hbmPc, 5⟩
     let s := partState p stDraining 2 1 []
     s.drained p = true ∧ (s.roomFor 5).isSome = true) ∧
    (∀ cmd ∈ [1, 4], ∀ now ∈ [19660799, 19660800], let p : Page := ⟨.coreCtl, 271⟩
      let s := cmdState p stRising cmd now
      s.part p = stRising ∧ lookupD 0 p.addr s.cmdAt + s.riseCeiling p = 19660800 ∧ s.airtime = now) ∧
    (let s := riseState pgHif stDown
     s.part pgHif = stDown ∧ s.fld pgHif Reg.PG_STATE 11 1 = 0 ∧ s.fld pgHif Reg.PG_STATE 8 3 = 0 ∧ s.mode = modeRise ∧
     s.ward.stopped = false ∧ s.inRiseSet pgHif = true ∧ s.pins.perstLow = false) ∧
    (let s := riseState pgTime stDown
     s.part pgTime = stDown ∧ s.fld pgTime Reg.PG_STATE 11 1 = 0 ∧ s.fld pgTime Reg.PG_STATE 8 3 = 0 ∧ s.inRiseSet pgTime = true ∧
     s.riseCheck pgTime = none ∧ s.prereqsOk pgTime = true ∧ (riseState pgTime stRising).part pgTime = stRising ∧
     risesByEvent pgTime.kind = false) ∧
    (∀ p ∈ [(⟨.coreCtl, 271⟩ : Page), pgTime], let s := partState p stReady 0 0 []
      s.pins.on = true ∧ noPart p.kind = false ∧ s.part p = stReady ∧ s.mode ≠ modeRest ∧ pageAt p.addr = some p) ∧
    (let p : Page := ⟨.coreCtl, 271⟩
     let s := policyState
     identBits p = some 8 ∧ s.part p = stFaulted ∧ s.fld pgWard Reg.WRD_POLICY 0 1 = 1 ∧ s.fld p Reg.PG_STATE 11 1 = 0 ∧
     (lookupD [] p.addr s.ward.faults).length = 0 ∧ s.prereqsOk p = true ∧ s.ward.stopped = false ∧ s.mode ≠ modeSafe ∧ s.mode ≠ modeRest) ∧
    (State.reset.pins.on = true ∧ State.reset.mode ≠ modeRest ∧ State.reset.part ⟨.coreCtl, 271⟩ ≠ stAbsent) ∧
    (let s := (partState ⟨.coreCtl, 271⟩ stTending 0 0 []).setCore 271 { Core.reset with reload := true }
     s.part ⟨.coreCtl, 271⟩ = stTending ∧ (s.core 271).reload = true ∧ s.ward.stopped = false ∧
     (s.wardLoad (s.fld pgWard Reg.WRD_BOOT 0 1) ⟨.coreCtl, 271⟩).2 = false) ∧
    (∀ act ∈ [0, 1], ∀ st ∈ [1, 2, 3], let s := State.reset.setReg pgWard Reg.WRD_PAIRS (BitVec.ofNat 32 (act + 2 * st))
      s.fld pgWard Reg.WRD_PAIRS 0 1 = act ∧ s.fld pgWard Reg.WRD_PAIRS 1 2 = st ∧ s.ward.stopped = false) := by decide +kernel


/-! Supplies and temperature -/

/-- Octant 7: phase 63 as it is, and the phases that work and are sensed. -/
def phaseState (mark work sensed : Nat) : State :=
  let p : Page := ⟨.octant, 7⟩
  ((State.reset.setFld p Reg.PWR_OCT_PHASE 14 2 mark).setFld p Reg.PWR_OCT_STATE 0 4 work).setFld p Reg.PWR_OCT_STATE 4 4 sensed
theorem witness_SupplyAndHeat :
    (∀ x ∈ [((0, 8, 8) : Nat × Nat × Nat), (0, 6, 3), (0, 1, 1), (1, 7, 7)], let s := phaseState x.1 x.2.1 x.2.2
      s.pins.on = true ∧ s.fld ⟨.octant, 7⟩ Reg.PWR_OCT_PHASE 14 2 = x.1 ∧ s.fld ⟨.octant, 7⟩ Reg.PWR_OCT_STATE 0 4 = x.2.1 ∧
      s.fld ⟨.octant, 7⟩ Reg.PWR_OCT_STATE 4 4 = x.2.2 ∧ s.octState 7 = 0) ∧
    State.reset.mode ≠ modeRest ∧ State.reset.mode ≠ modeSafe ∧
    (∀ p ∈ (octParts 7).take 1, (ready State.reset [p]).ready p = true) ∧ (octParts 7).length ≠ 0 ∧
    (∀ p ∈ octParts 7, State.reset.ready p = false) ∧
    ((List.replicate 64 (8 : Int)).length = 64 ∧ ([1, 2, 3, 4] : List Int).length = 4 ∧
      ∀ x ∈ List.replicate 64 (8 : Int), -32768 ≤ x ∧ x < 32768) ∧
    (∀ up ∈ [1966079, 1966080], let s : State := { State.reset with pins := { State.reset.pins with up := up } }
      s.pins.on = true ∧ s.pins.up = up) := by decide +kernel

/-! Register accesses -/

/-- Core 3's control page, its last RW register and one that is LOCKED. -/
theorem witness_HostRegisters_read :
    (let s := (modeState modeServe)
     s.linkDown = false ∧ s.hostUp = true ∧ s.fnUp 0 = true ∧ bar0 (.fn 0) 0x10000000 = .outside ∧
     (State.reset.setFld pgHif Reg.PG_STATE 0 4 stDown).hostUp = false) ∧
    (bar0 (.fn 0) 0x100FFC = .window 0 0xFFC ∧ bar0 (.fn 0) 0x101000 = .window 0 0x1000 ∧ 0x100FFC % 4 = 0) ∧
    (∀ m ∈ [modeServe, modeRest], let p := pgDevice
      let off := p.addr + Reg.DEV_WAKE_CTRL
      let s := modeState m
      bar0 (.fn 0) off = .page p Reg.DEV_WAKE_CTRL ∧ off % 4 = 0 ∧ (rowAt p.kind Reg.DEV_WAKE_CTRL).map (·.half) = some .whole ∧
      p.always = true ∧ s.hostUp = true) := by decide +kernel
theorem witness_HostRegisters_write :
    (let s := modeState modeServe
     s.winUp 0 = true ∧ s.linkDown = false ∧ (s.setFld pgHif Reg.PG_STATE 0 4 stDown).winUp 0 = false ∧
     bar0 (.fn 0) 0x1008FC = .window 0 0x8FC ∧ bar0 (.fn 0) 0x10022C = .window 0 0x22C) ∧
    (bar0 (.fn 0) 0xFFFF000 = .nothing ∧ 0xFFFF000 % 4 = 0) ∧
    (∀ m ∈ [modeServe, modeSafe], let p : Page := ⟨.ringSys, 0⟩
      let s := modeState m
      bar0 (.fn 0) (p.addr + Reg.RNG_STATE) = .page p Reg.RNG_STATE ∧ Reg.RNG_STATE ≠ Reg.PG_CMD ∧
      (rowAt p.kind Reg.RNG_STATE).isSome = true ∧ s.turnedAway (.fn 0) p = (if m = modeSafe then some 2 else none) ∧
      s.pins.on = true) ∧
    (let p := pgTherm
     let s := modeState modeServe
     ∀ r ∈ rowAt p.kind Reg.THM_CTRL, r.half = .whole ∧ 0x40 ≤ Reg.THM_CTRL ∧ Reg.THM_CTRL < 0xF00 ∧ r.inRange 90 = true ∧
       s.turnedAway .ward p = none) ∧
    (∃ r ∈ rowsThermal, r.inRange 0xFFFFFFFF = false) ∧
    (∀ r ∈ rowAt .lee Reg.IMG_ADDR, r.inRange 0 = true ∧ ∀ x ∈ r.fields, x.acc = .rwl →
      (modeState modeServe).rwlOpen ⟨.lee, 0⟩ = true) := by decide +kernel

/-- Core 3's page belongs to function 5, and is locked or not. -/
def ownedState (lock : Nat) : State :=
  let s := (modeState modeServe).setFld ⟨.coreCtl, 3⟩ Reg.PG_OWNER 0 6 5
  s.setFld ⟨.coreCtl, 3⟩ Reg.PG_OWNER 6 1 lock
/-- The trace ring 7 is enabled or not, over the deep buffer's start. -/
def traceState (en : Nat) : State :=
  let s := (modeState modeServe).setFld pgSed (sedOff Reg.SED_RING_CFG 7) 0 5 7
  (s.setFld pgSed (sedOff Reg.SED_RING_CFG 7) 6 1 en).setReg64 pgSed (sedOff Reg.SED_RING_LO 7) deepBase
theorem witness_HeaderAndTraceWrites :
    (let p : Page := ⟨.coreCtl, 3⟩
     let s := ownedState 0
     pageAt p.addr = some p ∧ p.home = p ∧ agTrusted (.fn 0) = true ∧ agTrusted .ward = true ∧ allowed s (.fn 0) p = true ∧
     allowed s .ward p = true ∧ s.locked p = false ∧ s.ownsPage .ward p = true ∧ s.ownsPage (.fn 0) p = false ∧
     bitsOf (0x45 : Word).toNat 6 1 ≠ s.fld p Reg.PG_OWNER 6 1) ∧
    ((ownedState 1).turnedAway (.fn 0) ⟨.coreCtl, 3⟩ = some 3 ∧ (ownedState 1).reaches (.fn 0) = true) ∧
    (let s := modeState modeServe
     allowed s .ward pgWard = true ∧ pgWard.home = pgWard ∧ bitsOf (5 : Word).toNat 0 6 ≠ s.owner pgWard ∧
     allowed s (.fn 0) (engPage 4 16) = true) ∧
    (∀ en ∈ [0, 1], let s := traceState en
      allowed s (.fn 0) pgSed = true ∧ s.fld pgSed (sedOff Reg.SED_RING_CFG 7) 6 1 = en ∧
      7 ≤ s.fld pgSed (sedOff Reg.SED_RING_CFG 7) 0 5 ∧
      s.traceRange (s.reg64 pgSed (sedOff Reg.SED_RING_LO 7) % 2 ^ 48) (2 ^ 7 * 32) = true ∧
      s.traceRange (s.reg64 pgSed (sedOff Reg.SED_RING_LO 7) % 2 ^ 48) (2 ^ 24 * 32) = false) := by decide +kernel

/-! Configuration requests and resets of functions -/

/-- `n` functions beside the PF; ring 3 of function 1 is in use, and its mailbox request waits. -/
def vfState (n : Nat) : State :=
  let s := (modeState modeServe).setFld pgHif Reg.HIF_LINK 9 7 n
  let s := s.setWin 1 { FnWin.reset with rings := [(3, ⟨9, 4, true⟩)], dlv := [(0, ⟨2, 3, false⟩)], mbx := .queued }
  s.setWard { s.ward with queue := [1] }
/-- … with a host task of function 1 dispatched. -/
def vfTask : State :=
  let s := vfState 1
  { s with fab := { s.fab with items := [{ task0 with phase := .dispatched, exec := some (.host 1 3) }] } }
theorem witness_ConfigurationAndReset :
    (let s := vfState 1
     s.linkDown = false ∧ s.hostUp = true ∧ s.fld pgHif Reg.HIF_LINK 9 7 = 1 ∧
     (s.setFld pgHif Reg.PG_STATE 0 4 stDown).hostUp = false ∧ s.fab.items = []) ∧
    (vfTask.fab.items.map fun j => (j.phase, j.exec)) = [(.dispatched, some (.host 1 3))] ∧
    (∀ low ∈ [true, false], let s : State := { vfState 1 with pins := { (vfState 1).pins with perstLow := low } }
      s.pins.on = true ∧ s.pins.perstLow = low) := by decide +kernel


/-! Images, Kaolin, the step -/

/-- Core 271's pages in a part state, the write address of its image at the last word. -/
def imemState (st : Nat) : State :=
  (partState ⟨.coreCtl, 271⟩ st 0 0 []).setFld (pgDbg 271) Reg.GVI_IMEM_ADDR 2 14 0x3FFF
/-- LDE 16, the write address of its image at the last word. -/
def imgState (st : Nat) : State := (partState ⟨.lde, 16⟩ st 0 0 []).setFld ⟨.lde, 16⟩ Reg.IMG_ADDR 2 22 0x3FFFFF
/-- A halted core on a bundle of zeros. -/
def steppedState (st : Nat) : State := (partState ⟨.coreCtl, 5⟩ st 0 0 []).setCore 5 { Core.reset with halted := true, pc := 32 }
theorem witness_ImageWrites :
    (∀ st ∈ [stDown, stTending, stReady], let s := imemState st
      allowed s .ward (pgDbg 271) = true ∧
      s.rwlOpen (pgDbg 271) = (st != stReady) ∧ cellsWf (s.core 271).imem = true ∧ s.fld (pgDbg 271) Reg.GVI_IMEM_ADDR 2 14 = 0x3FFF) ∧
    ((List.replicate 8 (0 : Nat)).length ≤ 8) ∧
    (∀ st ∈ [stDown, stTending, stReady], let s := imgState st
      let p : Page := ⟨.lde, 16⟩
      imgPage p.addr = some p ∧ allowed s .ward p = true ∧ s.rwlOpen p = (st != stReady) ∧
      cellsWf (lookupD [] p.addr s.imgs) = true ∧ s.fld p Reg.IMG_ADDR 2 22 = 0x3FFFFF) ∧
    (let s := modeState modeServe
     allowed s (.fn 0) (pgDbg 271) = true ∧ allowed s (.fn 0) ⟨.lde, 16⟩ = true ∧ agTrusted (.fn 0) = true) ∧
    (∀ st ∈ [stDown, stReady], let s := steppedState st
      let c := s.core 5
      c.halted = true ∧ allowed s .ward (pgDbg 5) = true ∧ s.rwlOpen (pgDbg 5) = (st == stDown) ∧ c.waiting = false ∧
      c.preempt = false ∧ c.vresume = false ∧ memGets c.imem (c.pc / 16 % 4096 * 16) 16 = List.replicate 16 0 ∧ c.pend = [] ∧
      c.br = none ∧ loopNext c = (c, (c.pc + 16) % 65536)) ∧
    (State.reset.core 5).halted = false := by decide +kernel

/-- Kaolin is READY for a user `u`, 0 for none; owner slot 0 holds a seed. -/
def klnState (u : Nat) : State :=
  let s := ((modeState modeServe).setFld pgKaolin Reg.PG_STATE 0 4 stReady).setFld pgKaolin Reg.KLN_LOCK 2 2 u
  s.otpSet (otpOwner 0) (List.replicate 16 7 ++ [1])
/-- The state in which a command's words are judged: its word as KLN_CMD takes it, and LENGTH. -/
def klnGo (u cmd op len : Nat) : State :=
  let s := (klnState u).setReg pgKaolin Reg.KLN_LEN (BitVec.ofNat 32 len)
  (s.setWard { s.ward with klnAt := s.airtime }).setFld pgKaolin Reg.KLN_CMD 0 14 (setBits cmd 0 3 op)
theorem witness_KaolinCommands :
    (∀ u ∈ [0, 3], let s := klnState u
      agTrusted (.fn 0) = true ∧ allowed s (.fn 0) pgKaolin = true ∧ s.klnUser (.fn 0) = 3 ∧ s.klnHolder = u ∧
      s.ward.klnDenied.contains 3 = false) ∧
    (allowed (klnState 1) .ward pgKaolin = true ∧ (klnState 1).klnUser .ward = 1 ∧ (klnState 1).klnHolder = 1) ∧
    (∀ op ∈ [1, 2, 3, 4], let c := (klnGo 3 0 op 512).klnCmd
      (klnGo 3 0 op 512).klnValid 3 c = true ∧ c.owner = false ∧ c.sram = false ∧ c.len = 512) ∧
    (∀ op ∈ [1, 2], (klnGo 3 0 op 511).klnValid 3 (klnGo 3 0 op 511).klnCmd = false) ∧
    (∀ op ∈ [3, 4], (klnGo 3 0 op 0x801).klnValid 3 (klnGo 3 0 op 0x801).klnCmd = false) ∧
    (∀ op ∈ [1, 2, 3, 4], let s := klnGo 3 0x18 op 512
      s.klnValid 3 s.klnCmd = true ∧ s.klnCmd.owner = true ∧ s.ownerRoot s.klnCmd.slot = none) := by decide +kernel
theorem witness_LockLost :
    (∀ t ∈ [19660799, 19660800], let s : State := { klnState 3 with airtime := t }
      s.klnHolder ≠ 0 ∧ s.ward.klnAt = 0 ∧ s.klnUser (.fn 0) = s.klnHolder) ∧ Reg.KLN_DATA ≠ Reg.KLN_LOCK := by decide +kernel

theorem witness_IdleClock :
    (let s := State.reset
     s.pending = [] ∧ s.pins.on = true ∧ s.time.slew = 0 ∧ s.time.frac = 0 ∧ s.reg pgTime Reg.TB_FREQ = 0) ∧
    (let s : State := { State.reset with pins := { State.reset.pins with on := false } }
     s.pending = [] ∧ s.pins.on = false) := by decide +kernel
theorem witness_StepRunsFront : ({ State.reset with pending := [.boot, .powerOff] } : State).pending = [.boot, .powerOff] := rfl
theorem witness_StepKeepsMemoryCanonical : State.reset.mem.wf = true ∧
    ∃ t, Machine.step State.reset = .next t := ⟨by decide +kernel, _, rfl⟩
theorem witness_StepKeepsZeroRegister : (∀ k, (State.reset.core k).g.getD 0 0 = 0 ∧ (State.reset.core k).g.length = 32) ∧
    ∃ t, Machine.step State.reset = .next t := ⟨fun _ => ⟨rfl, rfl⟩, _, rfl⟩


/-! ### Tests of meanings: the manual's worked figures, and published test vectors -/

/-- The example of R117. -/
theorem test_rounding : rnd false 13536 6 = 212 ∧ rnd true 13536 6 = 211 ∧ rnd false (-1272) 6 = -20 ∧ rnd true (-1272) 6 = -20 := by
  decide
/-- The example of R10: floors at grade B. -/
theorem test_gradeB : gradeB 256 = 226 := by decide
/-- CRC-32 of the digits 1 to 9, its published check value. -/
theorem test_crc32 : crc32 [0x31, 0x32, 0x33, 0x34, 0x35, 0x36, 0x37, 0x38, 0x39] = 0xCBF43926 := by decide +kernel
/-- SHA-384 of "abc" (FIPS 180-4). -/
theorem test_sha384 : msbNum (sha384 [0x61, 0x62, 0x63]) =
    0xcb00753f45a35e8bb5a03d699ac65007272c32ab0eded1631a8b605a43ff5bed8086072ba1e7cc2358baeca134c825a7 := by decide +kernel
/-- AES-256 of FIPS 197, appendix C.3. -/
theorem test_aes256 : (aesEnc (aesKeys (List.range 32)) ((List.range 16).map (17 * ·))).foldl (fun a b => 256 * a + b) 0 =
    0x8ea2b7ca516745bfeafc49904b496089 := by decide +kernel
/-- AES-256-CMAC of the empty message (NIST SP 800-38B, D.3). -/
theorem test_cmac :
    (cmac (natBytes (msbBytes 32 0x603deb1015ca71be2b73aef0857d77811f352c073b6108d72d9810a30914dff4)) []).foldl
      (fun a b => 256 * a + b) 0 = 0x028962f61b7bf89efc6b551f4667d983 := by decide +kernel
/-- The MRC example: exponent 6, mantissas 212 and −20 (R115). -/
theorem test_bfpNormalize : bfpFits 9 (bfpTry false [443547648, -41680896] 15 5) = false ∧
    bfpTry false [443547648, -41680896] 15 6 = [212, -20] := by decide


/-! ### Ill-formed commands: one for each check -/

theorem wellFormed_refuses : ([.ldW 272 1 1 0 true, .fdcSlice 17, .combine 33, .engineErest 9 0 0, .engineErest 0 0 0,
    .dispatch (.host 64 0) 0 0 0 [], .dispatch (.host 0 8) 0 0 0 [], .dispatch (.core 272) 0 0 0 [], .dispatch (.engine 8 5) 0 0 0 [],
    .serve (.fn 64), .serve (.dma 64), .drainComplete 0x10000000, .drainComplete 0x1004, .riseSequence 0 (.fails 256 0),
    .riseSequence 0 (.fails 0 0x1000000), .regWrite ⟨.fails 256 0, 0⟩, .configRequest 0 (.read 4096), .configRequest 0 (.read 2),
    .configRequest 0 (.vfEnable 64), .configRequest 64 (.read 0)] : List Instr).all (!wellFormed ·) = true := by decide +kernel
def aFlit : Flit := ⟨0, 0, 0, 0, 0, 0, 0, 64, true, false, none, [], 0, 0, []⟩
theorem wellFormed_refuses_flits : ([.write { aFlit with ring := 8 }, .write { aFlit with dst := 86 }, .readReq { aFlit with src := 86 },
    .write { aFlit with addr := 0x1000000000000 }, .write { aFlit with len := 65 },
    .write { aFlit with data := List.replicate 65 0 }, .abortTail 8 0 0 0 0 0, .abortTail 0 86 0 0 0 0, .abortTail 0 0 0 86 0 0,
    .credit 86 0 0, .credit 0 86 0, .nak 86 0 0 0, .nak 0 0 86 0, .nak 0 0 0 4096, .ctrlRetransmit 86 0 0 0 0,
    .ctrlRetransmit 0 0 86 0 0, .ctrlRetransmit 0 0 0 4096 0, .segmentFail 12 0 [] [], .segmentFail 0 86 [] []] : List Instr).all
    (!wellFormed ·) = true := by decide +kernel
theorem wellFormed_refuses_fabric : ([.enqueue 0x100000 0 (List.replicate 16 0), .enqueue 0 64 (List.replicate 16 0), .enqueue 0 0 [],
    .stallEnd 0x100000, .wgOpen 64 0 0 false, .wgOpen 0 65536 0 false, .wgOpen 0 0 0x100000 false, .wgClose 64 0, .wgClose 0 65536,
    .post 64 none 0, .post 0 (some 272) 0, .abort 64 0, .preemptDecision 0 272, .taskResume 272, .deadlock 64 0, .deadlock 0 65536,
    .hfwDb 64 0 0, .hfwDb 0 64 0, .ringFetch 64 0 [], .ringFetch 0 64 [], .pushSlot 64 0 (List.replicate 16 0) true,
    .pushSlot 0 64 (List.replicate 16 0) true, .pushSlot 0 0 [] true, .hfwDoneHi 64 0, .ctxMove 9 0 0 0 1, .ctxMove 1 0 0 64 1,
    .ctxMove 1 0 0 0 33, .harqScan 128, .tick 64, .genEnable .ward 64 0] : List Instr).all (!wellFormed ·) = true := by decide +kernel
theorem wellFormed_refuses_parts : ([.pinFail 128 0, .channelLoss 128 0 0 false, .bankLoss 32 0 0, .correctionWriteback 0x1000000000000 0,
    .poisonWrite 0x1000000000000 0 false, .poisonWrite 0 16 false, .hostBar2Read 64 0 0, .hostBar2Write 64 0 [], .dmaRequest 256 0 0 [],
    .dmaBurst 64 0 0 0 [], .schedCommit .ward 8 0, .schedCommit .ward 0 2, .schedApply 8 0, .schedApply 0 2, .sweep .ward 64 0,
    .sweep .ward 0 1024, .slip .ward 64, .rxFrame 64 0 [] [], .rxFrame 0 4 [] [], .txFrame 64, .egress 17 0 0, .egress 0 0 2,
    .egressMissed 17 0 0, .egressMissed 0 0 2, .uPlaneFrame 17, .ppsIn 4, .timedRequest 20, .todRx [], .training 8 true 0 0 0,
    .training 0 true 0 0 256, .rvWrite 8 [], .laneRemoved 8 0, .laneRemoved 0 8, .laneAdded 8 0, .laneAdded 0 8, .flr 64, .mbxGo 64,
    .scrub 0x1004 0 0, .autoRowRetire 0x1004 0, .tendRow .ward 0x1004 0] : List Instr).all (!wellFormed ·) = true := by decide +kernel
theorem wellFormed_refuses_device : ([.padRelease .ward 2048, .phaseOpen 64, .senseFail 64, .avsUpdate 8 0 0 0 0 0, .railFault 8,
    .thermalSample [] [0, 0, 0, 0], .thermalSample (List.replicate 64 0) [], .thermalSafe 64, .powerOn 65536, .resetN 65536,
    .aonPor 65536, .imemData .ward 272 0, .imemCommit .ward 272 0 [] 0 0, .imemCommit .ward 0 65536 [] 0 0,
    .imemCommit .ward 0 0 [] 65536 0, .imemCommit .ward 0 0 (List.replicate 9 0) 0 0, .imemCommit .ward 0 0 [] 0 3,
    .imgCommit .ward 0x1004 0 0, .imgCommit .ward 0 65536 0, .imgCommit .ward 0 0 3, .debugStep .ward 272, .coreReload 272 .ready,
    .lockstepMismatch 2, .xtsEnc .ward 16384, .cmacCheck .ward 16384, .safe 256 0, .safe 0 0x1000000, .partFault 4 0 0 true,
    .partFault 0 256 0 true, .partFault 0 0 0x1000000 true, .sedRingCfg .ward 8 0, .prbCtrl .ward 32 0, .alignLock 64 0 0,
    .alignLock 0 0x100000 0, .alignLock 0 0 0x100000, .refOk 8 true true true, .cpriUnderrun 32, .hyperframe 64 true 0,
    .hyperframe 0 true 4, .registerRead .ward 0x10000000 4, .registerWrite .ward 0x10000000 4 0 ⟨.ready, 0⟩] : List Instr).all
    (!wellFormed ·) = true := by decide +kernel
theorem wellFormed_accepts : ([.ldW 271 1 1 0 true, .combine 32, .dispatch (.host 63 7) 0 0 0 [], .serve (.dma 63),
    .riseSequence 0xFFFF000 (.fails 255 0xFFFFFF), .configRequest 63 (.vfEnable 63), .write aFlit, .boot] : List Instr).all wellFormed = true := by
  decide +kernel

end Sys2Proof.Tests
end

section
/-!
PROOF. Bit fields of numbers, and the fields of a register row: what is left of a field when another is replaced, when a write
lands in the row (R27) and when the bits of some of its fields are masked out.
-/
namespace Sys2Proof.Machine

/-! ### Bit fields -/

theorem testBit_bitsOf (x lo w i : Nat) : (bitsOf x lo w).testBit i = (decide (i < w) && x.testBit (lo + i)) := by
  rw [bitsOf, Nat.testBit_mod_two_pow, Nat.testBit_div_two_pow, Nat.add_comm]

theorem bitsOf_lt (x lo w : Nat) : bitsOf x lo w < 2 ^ w := Nat.mod_lt _ (Nat.two_pow_pos w)

theorem bitsOf_eq_of_testBit {x y lo w : Nat} (h : ∀ i, lo ≤ i → i < lo + w → x.testBit i = y.testBit i) :
    bitsOf x lo w = bitsOf y lo w := by
  refine Nat.eq_of_testBit_eq fun i => ?_
  rw [testBit_bitsOf, testBit_bitsOf]
  by_cases hi : i < w
  · rw [h (lo + i) (by omega) (by omega)]
  · simp [hi]

theorem bitsOf_mod_two_pow {lo w n : Nat} (h : lo + w ≤ n) (x : Nat) : bitsOf (x % 2 ^ n) lo w = bitsOf x lo w :=
  bitsOf_eq_of_testBit fun i _ hi => by simp [Nat.testBit_mod_two_pow, show i < n by omega]

theorem bitsOf_w32 {lo w : Nat} (h : lo + w ≤ 32) (x : Nat) : bitsOf (w32 x).toNat lo w = bitsOf x lo w := by
  rw [BitVec.toNat_ofNat, bitsOf_mod_two_pow h]

/-- `setBits` keeps what lies below and above the field. -/
theorem setBits_eq (x lo w v : Nat) :
    setBits x lo w v = 2 ^ lo * (2 ^ w * (x / 2 ^ lo / 2 ^ w) + v % 2 ^ w) + x % 2 ^ lo := by
  have hx := Nat.div_add_mod x (2 ^ lo)
  have hq := Nat.div_add_mod (x / 2 ^ lo) (2 ^ w)
  have key : x = 2 ^ lo * (2 ^ w * (x / 2 ^ lo / 2 ^ w)) + x % 2 ^ lo + bitsOf x lo w * 2 ^ lo := by
    rw [Nat.mul_comm (bitsOf x lo w), bitsOf, Nat.add_right_comm, ← Nat.mul_add, hq, hx]
  rw [setBits, Nat.mul_add, Nat.mul_comm (v % 2 ^ w)]
  omega

theorem testBit_setBits (x lo w v i : Nat) :
    (setBits x lo w v).testBit i = if lo ≤ i ∧ i < lo + w then v.testBit (i - lo) else x.testBit i := by
  rw [setBits_eq, Nat.testBit_two_pow_mul_add _ (Nat.mod_lt _ (Nat.two_pow_pos lo)),
    Nat.testBit_two_pow_mul_add _ (Nat.mod_lt _ (Nat.two_pow_pos w))]
  by_cases h1 : i < lo
  · rw [if_pos h1, if_neg (by omega), Nat.testBit_mod_two_pow, decide_eq_true h1, Bool.true_and]
  · by_cases h2 : i < lo + w
    · rw [if_neg h1, if_pos (by omega), if_pos ⟨by omega, h2⟩, Nat.testBit_mod_two_pow, decide_eq_true (by omega),
        Bool.true_and]
    · rw [if_neg h1, if_neg (by omega), if_neg (by omega), Nat.testBit_div_two_pow, Nat.testBit_div_two_pow]
      congr 1
      omega

theorem bitsOf_setBits_same (x lo w v : Nat) : bitsOf (setBits x lo w v) lo w = v % 2 ^ w := by
  refine Nat.eq_of_testBit_eq fun i => ?_
  rw [testBit_bitsOf, testBit_setBits, Nat.testBit_mod_two_pow]
  by_cases hi : i < w <;> simp [hi]

theorem bitsOf_setBits_apart {lo w lo' w' : Nat} (h : lo + w ≤ lo' ∨ lo' + w' ≤ lo) (x v : Nat) :
    bitsOf (setBits x lo w v) lo' w' = bitsOf x lo' w' :=
  bitsOf_eq_of_testBit fun i _ _ => by rw [testBit_setBits, if_neg (by omega)]

/-! ### Rows whose fields share no bit -/

/-- Two fields of a register that share no bit. -/
abbrev RegField.Apart (x y : RegField) : Prop := x.lo + x.w ≤ y.lo ∨ y.lo + y.w ≤ x.lo

/-- The fields of a row share no bit and lie within the 32 bits of a register. -/
abbrev RegRow.Fits (r : RegRow) : Prop := r.fields.Pairwise RegField.Apart ∧ ∀ x ∈ r.fields, x.lo + x.w ≤ 32

/-- The manual's field tables (R506 and the register pages): no two fields of a register overlap. -/
theorem tables_fit : ∀ r ∈ rowsCommon ++ allKinds.flatMap rowsOf, r.Fits := by decide +kernel

theorem mem_allKinds (k : PageKind) : k ∈ allKinds := by cases k <;> decide

theorem rowAt_fits {k : PageKind} {off : Nat} {r : RegRow} (h : rowAt k off = some r) : r.Fits := by
  apply tables_fit
  unfold rowAt at h
  split at h
  · exact List.mem_append_left _ (List.mem_of_find?_eq_some h)
  · exact List.mem_append_right _ (List.mem_flatMap.2 ⟨k, mem_allKinds k, List.mem_of_find?_eq_some h⟩)

/-! ### A write lands in the fields of a row (R27) -/

/-- What a field of width `w` holds after a write, from what it held and what is written. -/
def Acc.after (acc : Acc) (w : Nat) (rwl : Bool) (old new : Nat) : Nat :=
  match acc with
  | .rw => new
  | .rwl => if rwl then new else old
  | .w1c => old &&& (2 ^ w - 1 - new)
  | .w1s => old ||| new
  | _ => old

/-- One field of a register takes its part of a write. -/
def landField (rwl : Bool) (v x : Nat) (f : RegField) : Nat :=
  setBits x f.lo f.w (f.acc.after f.w rwl (bitsOf x f.lo f.w) (bitsOf v f.lo f.w))

theorem setBits_bitsOf (x lo w : Nat) : setBits x lo w (bitsOf x lo w) = x := by
  refine Nat.eq_of_testBit_eq fun i => ?_
  rw [testBit_setBits]
  split
  · rw [testBit_bitsOf, decide_eq_true (by omega), Bool.true_and]
    congr 1
    omega
  · rfl

theorem apply_eq_foldl (r : RegRow) (rwl : Bool) (cur v : Nat) : r.apply rwl cur v = r.fields.foldl (landField rwl v) cur := by
  unfold RegRow.apply
  congr 1
  funext x f
  unfold landField Acc.after
  cases f.acc <;> cases rwl <;> simp [setBits_bitsOf]

theorem after_lt {acc : Acc} {w old new : Nat} (rwl : Bool) (ho : old < 2 ^ w) (hn : new < 2 ^ w) :
    acc.after w rwl old new < 2 ^ w := by
  cases acc <;> simp only [Acc.after]
  case rwl => split <;> assumption
  case w1c => exact Nat.lt_of_le_of_lt Nat.and_le_left ho
  case w1s => exact Nat.or_lt_two_pow ho hn
  all_goals assumption

theorem bitsOf_landField_same (rwl : Bool) (v x : Nat) (f : RegField) :
    bitsOf (landField rwl v x f) f.lo f.w = f.acc.after f.w rwl (bitsOf x f.lo f.w) (bitsOf v f.lo f.w) := by
  rw [landField, bitsOf_setBits_same, Nat.mod_eq_of_lt (after_lt rwl (bitsOf_lt _ _ _) (bitsOf_lt _ _ _))]

theorem bitsOf_landFields_apart (rwl : Bool) (v : Nat) (f : RegField) (l : List RegField) (h : ∀ y ∈ l, f.Apart y) (x : Nat) :
    bitsOf (l.foldl (landField rwl v) x) f.lo f.w = bitsOf x f.lo f.w := by
  induction l generalizing x with
  | nil => rfl
  | cons y l ih =>
    rw [List.foldl_cons, ih fun z hz => h z (List.mem_cons_of_mem _ hz), landField,
      bitsOf_setBits_apart (h y List.mem_cons_self).symm]

theorem bitsOf_landFields (rwl : Bool) (v : Nat) {f : RegField} {l : List RegField} (hl : l.Pairwise RegField.Apart)
    (hf : f ∈ l) (x : Nat) :
    bitsOf (l.foldl (landField rwl v) x) f.lo f.w = f.acc.after f.w rwl (bitsOf x f.lo f.w) (bitsOf v f.lo f.w) := by
  induction l generalizing x with
  | nil => cases hf
  | cons y l ih =>
    obtain ⟨hy, hl⟩ := List.pairwise_cons.1 hl
    rw [List.foldl_cons]
    rcases List.mem_cons.1 hf with rfl | hf
    · rw [bitsOf_landFields_apart rwl v f l hy, bitsOf_landField_same]
    · rw [ih hl hf, landField, bitsOf_setBits_apart (hy f hf)]

/-- Each field of a row takes its part of a write by its own access code. -/
theorem bitsOf_apply {r : RegRow} (hr : r.Fits) {f : RegField} (hf : f ∈ r.fields) (rwl : Bool) (cur v : Nat) :
    bitsOf (r.apply rwl cur v) f.lo f.w = f.acc.after f.w rwl (bitsOf cur f.lo f.w) (bitsOf v f.lo f.w) := by
  rw [apply_eq_foldl, bitsOf_landFields rwl v hr.1 hf]

/-! ### The mask of some fields of a row -/

/-- Is the bit one of the field's? -/
def RegField.covers (x : RegField) (i : Nat) : Bool := decide (x.lo ≤ i) && decide (i < x.lo + x.w)

theorem not_covers_of_apart {x y : RegField} (h : x.Apart y) {i : Nat} (hx : x.covers i = true) : y.covers i = false := by
  simp only [RegField.covers, Bool.and_eq_true, decide_eq_true_eq] at hx
  simp only [RegField.covers, Bool.and_eq_false_iff, decide_eq_false_iff_not]
  omega

/-- A bit belongs to one field of a row at most. -/
theorem eq_of_covers {l : List RegField} (hl : l.Pairwise RegField.Apart) {x y : RegField} (hx : x ∈ l) (hy : y ∈ l) {i : Nat}
    (hxi : x.covers i = true) (hyi : y.covers i = true) : x = y := by
  induction l with
  | nil => cases hx
  | cons z l ih =>
    obtain ⟨hz, hl⟩ := List.pairwise_cons.1 hl
    rcases List.mem_cons.1 hx with rfl | hxl
    · rcases List.mem_cons.1 hy with rfl | hyl
      · rfl
      · rw [not_covers_of_apart (hz y hyl) hxi] at hyi
        cases hyi
    · rcases List.mem_cons.1 hy with rfl | hyl
      · rw [not_covers_of_apart (hz x hxl) hyi] at hxi
        cases hxi
      · exact ih hl hxl hyl

/-- Adding the ones of a field that is clear sets its bits. -/
theorem add_ones_eq_setBits {a lo w : Nat} (h : bitsOf a lo w = 0) :
    a + (2 ^ w - 1) * 2 ^ lo = setBits a lo w (2 ^ w - 1) := by
  rw [setBits, h, Nat.zero_mul, Nat.sub_zero, Nat.mod_eq_of_lt (Nat.sub_lt (Nat.two_pow_pos w) Nat.one_pos)]

theorem testBit_foldl_ones {l : List RegField} (hl : l.Pairwise RegField.Apart) (i : Nat) (a : Nat)
    (ha : ∀ x ∈ l, bitsOf a x.lo x.w = 0) :
    (l.foldl (fun a x => a + (2 ^ x.w - 1) * 2 ^ x.lo) a).testBit i = (a.testBit i || l.any fun x => x.covers i) := by
  induction l generalizing a with
  | nil => simp
  | cons y l ih =>
    obtain ⟨hy, hl⟩ := List.pairwise_cons.1 hl
    rw [List.foldl_cons, add_ones_eq_setBits (ha y List.mem_cons_self), ih hl, testBit_setBits, List.any_cons,
      Nat.testBit_two_pow_sub_one]
    · by_cases hc : y.lo ≤ i ∧ i < y.lo + y.w
      · simp [RegField.covers, hc, show i - y.lo < y.w by omega]
      · have hn : y.covers i = false := by simpa [RegField.covers] using hc
        rw [if_neg hc, hn, Bool.false_or]
    · intro x hx
      rw [bitsOf_setBits_apart (hy x hx), ha x (List.mem_cons_of_mem _ hx)]

theorem testBit_fieldMask {r : RegRow} (hr : r.Fits) (c : RegField → Bool) (i : Nat) :
    (fieldMask r c).testBit i = r.fields.any fun x => c x && x.covers i := by
  rw [fieldMask, testBit_foldl_ones (hr.1.filter c) i 0 fun x _ => by simp [bitsOf], Nat.zero_testBit, Bool.false_or,
    List.any_filter]

theorem fieldMask_lt {r : RegRow} (hr : r.Fits) (c : RegField → Bool) : fieldMask r c < 2 ^ 32 := by
  refine Nat.lt_pow_two_of_testBit _ fun i hi => ?_
  rw [testBit_fieldMask hr, List.any_eq_false]
  intro x hx
  have := hr.2 x hx
  simp [RegField.covers]
  omega

/-- Within a field of the row, the mask of the fields that `c` picks is all ones or clear. -/
theorem testBit_fieldMask_of_covers {r : RegRow} (hr : r.Fits) (c : RegField → Bool) {x : RegField} (hx : x ∈ r.fields) {i : Nat}
    (hi : x.covers i = true) : (fieldMask r c).testBit i = c x := by
  rw [testBit_fieldMask hr]
  cases hc : c x with
  | true => exact List.any_eq_true.2 ⟨x, hx, by rw [hc, hi]; rfl⟩
  | false =>
    refine List.any_eq_false.2 fun y hy hcy => ?_
    obtain ⟨hcy, hyi⟩ := Bool.and_eq_true_iff.1 hcy
    rw [eq_of_covers hr.1 hy hx hyi hi, hc] at hcy
    cases hcy

/-- A register with the fields that `c` picks masked out: those read 0, the others are as they were. -/
theorem bitsOf_maskOut {r : RegRow} (hr : r.Fits) (c : RegField → Bool) {x : RegField} (hx : x ∈ r.fields) (n : Nat) :
    bitsOf (n &&& (2 ^ 32 - 1 - fieldMask r c)) x.lo x.w = if c x then 0 else bitsOf n x.lo x.w := by
  have width := hr.2 x hx
  have key : ∀ i, x.lo ≤ i → i < x.lo + x.w →
      (n &&& (2 ^ 32 - 1 - fieldMask r c)).testBit i = (n.testBit i && !c x) := by
    intro i h1 h2
    rw [Nat.testBit_and, Nat.sub_sub, Nat.add_comm 1, Nat.testBit_two_pow_sub_succ (fieldMask_lt hr c),
      testBit_fieldMask_of_covers hr c hx (by simp [RegField.covers, h1, h2]), decide_eq_true (by omega), Bool.true_and]
  cases hc : c x with
  | true =>
    rw [if_pos rfl, bitsOf_eq_of_testBit (y := 0) fun i h1 h2 => by rw [key i h1 h2, hc]; simp]
    simp [bitsOf]
  | false =>
    rw [if_neg Bool.false_ne_true]
    exact bitsOf_eq_of_testBit fun i h1 h2 => by rw [key i h1 h2, hc]; simp

end Sys2Proof.Machine
end

section
/-!
PROOF. Where an access leads (R504), and the report of an access (R505): the page that an offset lies in, and what the report
leaves in the host interface's registers and of the rest of the state.
-/
namespace Sys2Proof.Machine
open Sys2Proof.Safety

/-! ### Pages by address -/

theorem num_of_kindIx {k : PageKind} {inst i : Nat} (h : kindIx k inst = some i) : (⟨k, i⟩ : Page).num = inst := by
  unfold kindIx at h
  split at h
  · obtain ⟨⟨_, hmod⟩, hi⟩ := Option.ite_none_right_eq_some.1 h
    simp only [Page.num, ← Option.some.inj hi]
    omega
  · obtain ⟨⟨_, hmod⟩, hi⟩ := Option.ite_none_right_eq_some.1 h
    simp only [Page.num, ← Option.some.inj hi]
    omega
  · next hctl hdbg =>
    obtain ⟨⟨hlo, _⟩, hi⟩ := Option.ite_none_right_eq_some.1 h
    unfold Page.num
    dsimp only
    split
    · exact absurd rfl hctl
    · exact absurd rfl hdbg
    · rw [← Option.some.inj hi, Nat.add_sub_cancel' hlo]

theorem addr_of_pageOf {cls inst : Nat} {p : Page} (h : pageOf cls inst = some p) :
    p.addr = cls * 0x1000000 + inst * 0x1000 := by
  obtain ⟨k, hk, hp⟩ := List.mem_filterMap.1 (List.mem_of_mem_head? h)
  obtain ⟨i, hi, rfl⟩ := Option.map_eq_some_iff.1 hp
  have hcls : k.base.1 = cls := by simpa using (List.mem_filter.1 hk).2
  rw [Page.addr, num_of_kindIx hi, hcls]

theorem pageAt_eq_some {a : Nat} {p : Page} (h : pageAt a = some p) :
    p.addr + a % 0x1000 = a ∧ pageOf (a / 0x1000000) (a / 0x1000 % 4096) = some p := by
  obtain ⟨_, h⟩ := Option.ite_none_right_eq_some.1 h
  refine ⟨?_, h⟩
  rw [addr_of_pageOf h]
  omega

theorem pageOf_hif : pageOf 0 2 = some pgHif := by decide

/-- No register of another page has an address in the host interface's page. -/
theorem eq_pgHif_of_pageAt {a : Nat} {p : Page} (h : pageAt a = some p) (ha : a / 0x1000 = 2) : p = pgHif := by
  obtain ⟨_, hp⟩ := pageAt_eq_some h
  rw [show a / 0x1000000 = 0 by omega, show a / 0x1000 % 4096 = 2 by omega, pageOf_hif] at hp
  exact (Option.some.inj hp).symm

theorem bar0_eq_page {a : Agent} {off o : Nat} {p : Page} (h : bar0 a off = .page p o) :
    pageAt off = some p ∧ o = off % 0x1000 := by
  unfold bar0 at h
  split at h
  · split at h <;> cases h
  · split at h
    · cases h
    · split at h
      · cases h
      · split at h
        · next q hq =>
          cases h
          exact ⟨hq, rfl⟩
        · cases h

theorem addr_of_bar0 {a : Agent} {off o : Nat} {p : Page} (h : bar0 a off = .page p o) : p.addr + o = off := by
  obtain ⟨hp, rfl⟩ := bar0_eq_page h
  exact (pageAt_eq_some hp).1

theorem addr_ne_hif {a : Agent} {off o x : Nat} {p : Page} (h : bar0 a off = .page p o) (hp : p ≠ pgHif) (hx : x < 0x1000) :
    p.addr + o ≠ pgHif.addr + x := by
  intro heq
  refine hp (eq_pgHif_of_pageAt (bar0_eq_page h).1 ?_)
  rw [← addr_of_bar0 h, heq, show pgHif.addr = 0x2000 from rfl]
  omega

/-! ### Tallies and interrupts -/

theorem reg_count (s : State) (p : Page) (off n : Nat) : (s.count p off n).reg p off = tallied (s.reg p off) n := by
  have hx := (s.reg p off).isLt
  have hf : s.fld p off 0 32 = (s.reg p off).toNat := by simp [State.fld, bitsOf, Nat.mod_eq_of_lt hx]
  have hsat : satAdd 32 (s.reg p off).toNat n = min ((s.reg p off).toNat + n) (2 ^ 32 - 1) := by
    unfold satAdd
    split <;> omega
  rw [State.count, State.tally, State.setFld, reg_setReg_same, hf, hsat, setBits_eq, tallied]
  apply BitVec.eq_of_toNat_eq
  simp [Nat.div_eq_of_lt hx, Nat.mod_one]

/-- What follows from an interrupt's edge is a message to the host, or a tally of one that has no vector (R499). -/
theorem irqEdge_frame (before s : State) (p : Page) :
    before.irqEdge s p = { s with regs := (before.irqEdge s p).regs, msix := (before.irqEdge s p).msix } := by
  unfold State.irqEdge State.raiseVec
  repeat' split
  all_goals rfl

theorem reg_raiseVec (s : State) (fn vec : Nat) {q : Page} {o : Nat} (h : q.addr + o ≠ pgHif.addr + Reg.HIF_TALLY_BADVEC) :
    (s.raiseVec fn vec).reg q o = s.reg q o := by
  unfold State.raiseVec
  generalize (if fn = 0 then 2048 else 32) = n
  split
  · exact (reg_setReg ..).trans (if_neg h)
  · split <;> rfl

theorem reg_irqEdge (before s : State) (p : Page) {q : Page} {o : Nat} (h : q.addr + o ≠ pgHif.addr + Reg.HIF_TALLY_BADVEC) :
    (before.irqEdge s p).reg q o = s.reg q o := by
  unfold State.irqEdge
  split
  · exact reg_raiseVec _ _ _ h
  · rfl

/-! ### The report of an access (R505) -/

/-- A report changes registers and messages to the host only. -/
theorem accErr_frame (s : State) (a : Agent) (off kind : Nat) :
    s.accErr a off kind = { s with regs := (s.accErr a off kind).regs, msix := (s.accErr a off kind).msix } :=
  irqEdge_frame ..

@[simp] theorem accErr_mem (s : State) (a : Agent) (off kind : Nat) : (s.accErr a off kind).mem = s.mem := by
  rw [accErr_frame]
@[simp] theorem accErr_cores (s : State) (a : Agent) (off kind : Nat) : (s.accErr a off kind).cores = s.cores := by
  rw [accErr_frame]
@[simp] theorem accErr_fab (s : State) (a : Agent) (off kind : Nat) : (s.accErr a off kind).fab = s.fab := by
  rw [accErr_frame]
@[simp] theorem accErr_links (s : State) (a : Agent) (off kind : Nat) : (s.accErr a off kind).links = s.links := by
  rw [accErr_frame]
@[simp] theorem accErr_ward (s : State) (a : Agent) (off kind : Nat) : (s.accErr a off kind).ward = s.ward := by
  rw [accErr_frame]
@[simp] theorem accErr_cpls (s : State) (a : Agent) (off kind : Nat) : (s.accErr a off kind).cpls = s.cpls := by
  rw [accErr_frame]

/-- The registers of other pages are as they were. -/
theorem reg_accErr_ne {p : Page} {o : Nat} (h : ∀ x < 0x1000, p.addr + o ≠ pgHif.addr + x) (s : State) (a : Agent)
    (off kind : Nat) : (s.accErr a off kind).reg p o = s.reg p o := by
  have put (s : State) {x : Nat} (hx : x < 0x1000) (v : Word) : (s.setReg pgHif x v).reg p o = s.reg p o := by
    rw [reg_setReg, if_neg (h x hx)]
  rw [State.accErr, State.irq, reg_irqEdge _ _ _ (h _ (by decide)), put _ (by decide), State.count, State.tally, State.setFld,
    put _ (by decide), put _ (by decide), put _ (by decide)]

/-- A report leaves what R505 says. -/
theorem reported_accErr (s : State) (a : Agent) (off : Nat) {kind : Nat} (hk : kind < 4) :
    Reported s a off kind (s.accErr a off kind) := by
  have edge (b t : State) {o : Nat} (ho : o ≠ Reg.HIF_TALLY_BADVEC) : (b.irqEdge t pgHif).reg pgHif o = t.reg pgHif o :=
    reg_irqEdge _ _ _ (by simpa using ho)
  have other (t : State) {o x n : Nat} (ho : o ≠ x) : (t.count pgHif x n).reg pgHif o = t.reg pgHif o := reg_setReg_ne _ _ _ ho
  have lo : (s.accErr a off kind).reg pgHif Reg.HIF_LAST_ERR_LO = w32 (off % 2 ^ 28) := by
    rw [State.accErr, State.irq, edge _ _ (by decide), reg_setReg_ne _ _ _ (by decide), other _ (by decide),
      reg_setReg_ne _ _ _ (by decide), reg_setReg_same]
  have hi : (s.accErr a off kind).reg pgHif Reg.HIF_LAST_ERR_HI = w32 (agFn a % 64 + kind * 64) := by
    rw [State.accErr, State.irq, edge _ _ (by decide), reg_setReg_ne _ _ _ (by decide), other _ (by decide), reg_setReg_same]
  have tally : (s.accErr a off kind).reg pgHif Reg.HIF_TALLY_ACCERR = tallied (s.reg pgHif Reg.HIF_TALLY_ACCERR) 1 := by
    rw [State.accErr, State.irq, edge _ _ (by decide), reg_setReg_ne _ _ _ (by decide), reg_count,
      reg_setReg_ne _ _ _ (by decide), reg_setReg_ne _ _ _ (by decide)]
  have stat : (s.accErr a off kind).fld pgHif Reg.PG_IRQ_STAT 0 1 = 1 := by
    rw [State.fld, State.accErr, State.irq, edge _ _ (by decide), reg_setReg_same]
    simp [bitsOf, Nat.or_mod_two_eq_one]
  refine ⟨lo, ?_, ?_, tally, stat, ?_, ?_, ?_, ?_, ?_⟩
  · rw [State.fld, hi, bitsOf_w32 (by decide), bitsOf]
    omega
  · rw [State.fld, hi, bitsOf_w32 (by decide), bitsOf]
    omega
  all_goals simp

end Sys2Proof.Machine
end

section
/-!
PROOF. Register reads and writes by the host and by agents of the device (R26, R27, R30, R492, R493, R504, R505, R521, R618).
-/
namespace Sys2Proof.Machine
open Sys2Proof.Safety

/-! ### The two commands for a function of the host -/

theorem exec_registerRead (a : Agent) (off w : Nat) (s : State) : exec (.registerRead a off w) s = execRegisterRead a off w s := rfl

theorem exec_registerWrite (a : Agent) (off w : Nat) (v : Word) (aux : Aux) (s : State) :
    exec (.registerWrite a off w v aux) s = execRegisterWrite a off w v aux s := rfl

/-- A host's read that the device does not take is unsupported (R493). -/
theorem registerRead_unsupported {s : State} {f off : Nat} (w : Nat) (hf : f < 64) (hl : s.linkDown = false)
    (h : s.hostUp = false ∨ s.fnUp f = false ∨ bar0 (.fn f) off = .outside) :
    Gives (.registerRead (.fn f) off w) s (s.complete f cplUr []) := by
  rw [Gives, exec_registerRead, execRegisterRead, if_neg (by simp [hl, hf]), if_pos (by simpa using h)]

/-- A host's read that the device takes is completed with what the register reads as. -/
theorem registerRead_completes {s : State} {f off : Nat} (w : Nat) (hf : f < 64) (hl : s.linkDown = false)
    (hu : s.hostUp = true) (hn : s.fnUp f = true) (ho : bar0 (.fn f) off ≠ .outside) :
    Gives (.registerRead (.fn f) off w) s
      ((s.regRead (.fn f) off w).1.complete f cplOk (leBytes w (s.regRead (.fn f) off w).2.toNat)) := by
  rw [Gives, exec_registerRead, execRegisterRead, if_neg (by simp [hl, hf]), if_neg (by simp [hu, hn, ho])]

theorem registerWrite_lost {s : State} {f : Nat} (off w : Nat) (v : Word) (aux : Aux)
    (h : s.linkDown = true ∨ s.winUp f = false) : Gives (.registerWrite (.fn f) off w v aux) s s := by
  rw [Gives, exec_registerWrite, execRegisterWrite, if_pos (by simpa using h)]

/-- May the agent's write reach the device's registers at all (R486)? -/
def writeTaken (s : State) (a : Agent) : Prop :=
  match a with
  | .fn f => s.linkDown = false ∧ s.winUp f = true
  | _ => s.pins.on = true

theorem registerWrite_taken {s : State} {a : Agent} (off w : Nat) (v : Word) (aux : Aux) (h : writeTaken s a) :
    Gives (.registerWrite a off w v aux) s (s.regWrite a off w v.toNat aux) := by
  rw [Gives, exec_registerWrite]
  cases a with
  | fn f => rw [execRegisterWrite, if_neg (by simp [h.1, h.2])]
  | ward => exact congrArg Host.Outcome.next (if_pos h)
  | dma ch => exact congrArg Host.Outcome.next (if_pos h)

/-! ### Accesses by what BAR0 decodes -/

/-- An access that is not of 32 aligned bits. -/
theorem narrow_eq_true {w off : Nat} (h : w ≠ 4 ∨ off % 4 ≠ 0) : (w != 4 || off % 4 != 0) = true := by simpa using h

/-- A narrow access to a page, to a function window or to nothing reads zero and is reported as SIZE (R26, R505). -/
theorem regRead_narrow {s : State} {a : Agent} {off w : Nat} (ho : bar0 a off ≠ .outside)
    (hw : ∀ g o, bar0 a off = .window g o → o < 0x1000) (h : w ≠ 4 ∨ off % 4 ≠ 0) :
    s.regRead a off w = (s.accErr a off 0, 0) := by
  unfold State.regRead
  cases hb : bar0 a off with
  | outside => exact absurd hb ho
  | window g o => simp [narrow_eq_true h, Nat.not_le.2 (hw g o hb)]
  | page p o => simp [narrow_eq_true h]
  | nothing => simp [narrow_eq_true h]

theorem regWrite_narrow {s : State} {a : Agent} {off w : Nat} (v : Nat) (aux : Aux) (ho : bar0 a off ≠ .outside)
    (hw : ∀ g o, bar0 a off = .window g o → o < 0x1000) (h : w ≠ 4 ∨ off % 4 ≠ 0) :
    s.regWrite a off w v aux = s.accErr a off 0 := by
  unfold State.regWrite
  cases hb : bar0 a off with
  | outside => exact absurd hb ho
  | window g o => simp [narrow_eq_true h, Nat.not_le.2 (hw g o hb)]
  | page p o => simp [narrow_eq_true h]
  | nothing => simp [narrow_eq_true h]

theorem regRead_window {s : State} {a : Agent} {off g o : Nat} (hb : bar0 a off = .window g o) (ho : o < 0x1000)
    (hal : off % 4 = 0) : s.regRead a off 4 = (s, s.winWord g o) := by
  simp [State.regRead, hb, hal, Nat.not_le.2 ho]

/-- Past the registers of a function window lie the push slots, which read zero. -/
theorem regRead_slots {s : State} {a : Agent} {off g o : Nat} (w : Nat) (hb : bar0 a off = .window g o) (ho : 0x1000 ≤ o) :
    s.regRead a off w = (s, 0) := by
  simp [State.regRead, hb, ho]

theorem regRead_page {s : State} {a : Agent} {off o : Nat} {p : Page} (hb : bar0 a off = .page p o) (hal : off % 4 = 0) :
    s.regRead a off 4 = s.pageReadBy a p o := by
  simp [State.regRead, hb, hal]

theorem regWrite_outside {s : State} {a : Agent} {off : Nat} (w v : Nat) (aux : Aux) (hb : bar0 a off = .outside) :
    s.regWrite a off w v aux = s := by
  simp [State.regWrite, hb]

theorem regWrite_nothing {s : State} {a : Agent} {off : Nat} (v : Nat) (aux : Aux) (hb : bar0 a off = .nothing)
    (hal : off % 4 = 0) : s.regWrite a off 4 v aux = s.accErr a off 1 := by
  simp [State.regWrite, hb, hal]

theorem regWrite_window {s : State} {a : Agent} {off g o : Nat} (v : Word) (aux : Aux) (hb : bar0 a off = .window g o)
    (ho : o < 0x1000) (hal : off % 4 = 0) : s.regWrite a off 4 v.toNat aux = s.winWrite g o v.toNat := by
  simp [State.regWrite, hb, hal, Nat.not_le.2 ho, Nat.mod_eq_of_lt v.isLt]

theorem regWrite_page {s : State} {a : Agent} {off o : Nat} {p : Page} (v : Word) (aux : Aux) (hb : bar0 a off = .page p o)
    (hal : off % 4 = 0) : s.regWrite a off 4 v.toNat aux = s.pageWrite a p o v.toNat aux := by
  simp [State.regWrite, hb, hal, Nat.mod_eq_of_lt v.isLt]

/-! ### Reads of pages (R27, R30, R521) -/

theorem reg_imgNext_ne (s : State) (p : Page) {off : Nat} (h : p.kind = .coreDbg → off ≠ Reg.GVI_IMEM_ADDR)
    (h' : p.kind ≠ .coreDbg → off ≠ Reg.IMG_ADDR) : (s.imgNext p).reg p off = s.reg p off := by
  unfold State.imgNext
  split
  · next hk => exact reg_setReg_ne _ _ _ (h hk)
  · next hk => exact reg_setReg_ne _ _ _ (h' hk)

/-- The address of an image window, which goes on with a read of its data, is another register than the one read. -/
theorem reg_afterRead (s : State) (p : Page) (off : Nat) : (s.afterRead p off).reg p off = s.reg p off := by
  unfold State.afterRead
  split
  · next hk =>
    split
    · next ho => exact reg_imgNext_ne s p (fun _ => by rw [ho]; decide) fun h => absurd hk h
    · rfl
  · next hk =>
    split
    · next ho => exact reg_imgNext_ne s p (fun h => absurd h hk) fun _ => by rw [ho.2.2]; decide
    · rfl

theorem cpls_afterRead (s : State) (p : Page) (off : Nat) : (s.afterRead p off).cpls = s.cpls := by
  unfold State.afterRead State.imgNext
  repeat' split
  all_goals rfl

/-- The read clears the fields that reading clears (R27). -/
def clearOnRead (s : State) (p : Page) (off : Nat) (r : RegRow) : State :=
  let rc := fieldMask r fun f => f.acc == .rc
  if rc = 0 then s else s.setReg p off (w32 ((s.reg p off).toNat &&& (2 ^ 32 - 1 - rc)))

theorem pageRead_whole {s : State} {a : Agent} {p : Page} {off : Nat} {r : RegRow} (hr : rowAt p.kind off = some r)
    (hw : r.half = .whole) :
    s.pageRead a p off =
      ((clearOnRead s p off r).afterRead p off, w32 ((s.view a p off).toNat &&& fieldMask r fun f => f.acc != .wo)) := by
  simp only [State.pageRead, hr, hw, clearOnRead]

theorem bitsOf_clearOnRead {s : State} {p : Page} {off : Nat} {r : RegRow} (hr : r.Fits) {x : RegField} (hx : x ∈ r.fields) :
    bitsOf ((clearOnRead s p off r).reg p off).toNat x.lo x.w =
      if x.acc = .rc then 0 else bitsOf (s.reg p off).toNat x.lo x.w := by
  have masked := bitsOf_maskOut hr (fun f => f.acc == .rc) hx (s.reg p off).toNat
  simp only [beq_iff_eq] at masked
  unfold clearOnRead
  dsimp only
  split
  · next h0 => rwa [h0, Nat.sub_zero, Nat.and_two_pow_sub_one_eq_mod, Nat.mod_eq_of_lt (s.reg p off).isLt] at masked
  · rw [reg_setReg_same, bitsOf_w32 (hr.2 x hx), masked]

theorem cpls_clearOnRead (s : State) (p : Page) (off : Nat) (r : RegRow) : (clearOnRead s p off r).cpls = s.cpls := by
  unfold clearOnRead
  dsimp only
  split <;> rfl

theorem pageReadBy_reachable {s : State} {a : Agent} {p : Page} (off : Nat) (h : s.mode = modeRest → p.always = true) :
    s.pageReadBy a p off = s.pageRead a p off := by
  rw [State.pageReadBy, if_neg]
  rintro ⟨hm, -, hp⟩
  simp [h hm] at hp

/-! ### Writes of pages (R27, R31, R509, R521, R618) -/

theorem pageWrite_turnedAway {s : State} {a : Agent} {p : Page} {off : Nat} {r : RegRow} (v : Nat) (aux : Aux)
    (hr : rowAt p.kind off = some r) (hc : off ≠ Reg.PG_CMD) {k : Nat} (hk : s.turnedAway a p = some k) :
    s.pageWrite a p off v aux = s.accErr a (p.addr + off) k := by
  simp only [State.pageWrite, hr, if_neg hc, hk]

theorem turnedAway_lt {s : State} {a : Agent} {p : Page} {k : Nat} (h : s.turnedAway a p = some k) : k < 4 := by
  unfold State.turnedAway at h
  split at h
  · cases h; decide
  · split at h
    · cases h; decide
    · cases h

/-- Kinds of page whose own registers have no effect beside what a write leaves in them. -/
def storeKinds : List PageKind :=
  [.coreCtl, .bfe, .dte, .tfe, .fdc, .lde, .lee, .pce, .tce, .stop, .ringSys, .hif, .ward, .thermal]

theorem regPut_storeKinds {s : State} {a : Agent} {p : Page} {off : Nat} (v : Nat) (aux : Aux) (hk : p.kind ∈ storeKinds)
    (hlo : 0x40 ≤ off) (hhi : off < 0xF00) : s.regPut a p off v false aux = s.plainWrite a p off v false := by
  have hdbg : p.kind ≠ .coreDbg := by
    intro h
    rw [h] at hk
    exact absurd hk (by decide)
  have h1 : ¬(off = Reg.PG_IRQ_STAT ∨ off = Reg.PG_IRQ_EN) := by simp only [Reg.PG_IRQ_STAT, Reg.PG_IRQ_EN]; omega
  have h2 : off ≠ Reg.PG_IRQ_FORCE := by simp only [Reg.PG_IRQ_FORCE]; omega
  have h3 : off ≠ Reg.PG_OWNER := by simp only [Reg.PG_OWNER]; omega
  rw [State.regPut, if_neg h1, if_neg h2, if_neg h3, if_neg (by omega), if_neg hdbg, if_neg (by omega)]
  obtain ⟨k, ix⟩ := p
  simp only [storeKinds, List.mem_cons, List.not_mem_nil, or_false] at hk
  rcases hk with rfl | rfl | rfl | rfl | rfl | rfl | rfl | rfl | rfl | rfl | rfl | rfl | rfl | rfl <;> rfl

theorem pageWrite_whole {s : State} {a : Agent} {p : Page} {off : Nat} {r : RegRow} (v : Word) (aux : Aux)
    (hr : rowAt p.kind off = some r) (hw : r.half = .whole) (hk : p.kind ∈ storeKinds) (hlo : 0x40 ≤ off) (hhi : off < 0xF00)
    (ht : s.turnedAway a p = none) : s.pageWrite a p off v.toNat aux = s.plainWrite a p off v.toNat false := by
  have hc : off ≠ Reg.PG_CMD := by simp only [Reg.PG_CMD]; omega
  simp only [State.pageWrite, hr, if_neg hc, ht, hw, Nat.mod_eq_of_lt v.isLt, regPut_storeKinds _ aux hk hlo hhi]

theorem writeInRange_whole {p : Page} {off : Nat} {r : RegRow} (hr : rowAt p.kind off = some r) (v : Word) :
    State.writeInRange p off v.toNat false = r.inRange v.toNat := by
  simp [State.writeInRange, hr, Nat.mod_eq_of_lt v.isLt]

theorem plainWrite_outOfRange {s : State} {a : Agent} {p : Page} {off : Nat} {r : RegRow} {v : Word}
    (hr : rowAt p.kind off = some r) (hv : r.inRange v.toNat = false) :
    s.plainWrite a p off v.toNat false = s.accErr a (p.addr + off) 2 := by
  simp [State.plainWrite, writeInRange_whole hr, hv]

theorem plainWrite_inRange {s : State} {a : Agent} {p : Page} {off : Nat} {r : RegRow} {v : Word}
    (hr : rowAt p.kind off = some r) (hv : r.inRange v.toNat = true)
    (ho : ∀ x ∈ r.fields, x.acc = .rwl → s.rwlOpen p = true) :
    s.plainWrite a p off v.toNat false =
      s.setReg p off (w32 (r.apply (s.rwlOpen p) (s.reg p off).toNat v.toNat)) := by
  have shut : s.rwlShut p off = false := by
    simp only [State.rwlShut, hr, Bool.and_eq_false_imp, Bool.not_eq_true', List.any_eq_false, beq_iff_eq]
    intro hc x hx hacc
    rw [ho x hx hacc] at hc
    cases hc
  simp [State.plainWrite, writeInRange_whole hr, hv, shut, State.store32, hr, Nat.mod_eq_of_lt v.isLt]

theorem landed_apply {s : State} {p : Page} {off : Nat} {r : RegRow} (hr : r.Fits) (v : Nat) :
    Landed s p off r v (s.setReg p off (w32 (r.apply (s.rwlOpen p) (s.reg p off).toNat v))) := by
  refine ⟨by rw [reg_setReg_same], fun f hf => ?_⟩
  rw [reg_setReg_same, bitsOf_w32 (hr.2 f hf), bitsOf_apply hr hf]
  rfl

/-! ### Writes of function windows (R492) -/

theorem win_setWin (s : State) (f : Nat) (w : FnWin) : (s.setWin f w).win f = w := by simp [State.win, State.setWin]

theorem winWrite_mbxReq (s : State) (g : Nat) {o : Nat} (v : Word) (hlo : 0x800 ≤ o) (hhi : o < 0x900) :
    s.winWrite g o v.toNat = s.setWin g { s.win g with mbxReq := (s.win g).mbxReq.set ((o - 0x800) / 4) v } := by
  rw [State.winWrite, if_neg (by omega), if_neg (by omega), if_neg (by omega), if_neg (by omega), if_neg (by omega),
    if_pos ⟨hlo, hhi⟩, w32, BitVec.ofNat_toNat, BitVec.setWidth_eq]

/-- The window after HEAD of a delivery ring was written: it is stored as written. -/
def headPut (w : FnWin) (r v : Nat) : FnWin :=
  { w with dlv := insertKey r { lookupD FnDlv.reset r w.dlv with head := v % 65536 } w.dlv }

theorem winWrite_head (s : State) (g : Nat) {o : Nat} (v : Nat) (hlo : 0x210 ≤ o) (hhi : o < 0x230) :
    s.winWrite g o v = s.setWin g (headPut (s.win g) ((o - 0x210) / 4) v) := by
  rw [State.winWrite, if_neg (by omega), if_neg (by omega), if_neg (by omega), if_pos ⟨hlo, hhi⟩]
  rfl

theorem head_headPut (w : FnWin) (r v : Nat) : (lookupD FnDlv.reset r (headPut w r v).dlv).head = v % 65536 := by
  simp [headPut]

end Sys2Proof.Machine

namespace Sys2Proof.Proofs
open Sys2Proof Sys2Proof.Machine Sys2Proof.Safety

/-! ### The statement about registers -/

/-- A host's read of a register that is no half of a pair, on a page that can be read. -/
theorem registerRead_page {s : State} {f off o : Nat} {p : Page} {r : RegRow} (hf : f < 64) (hl : s.linkDown = false)
    (hu : s.hostUp = true) (hn : s.fnUp f = true) (hb : bar0 (.fn f) off = .page p o) (hal : off % 4 = 0)
    (hr : rowAt p.kind o = some r) (hw : r.half = .whole) (hm : s.mode = modeRest → p.always = true) :
    Runs (.registerRead (.fn f) off 4) s fun t =>
      t.cpls = s.cpls ++ [⟨f, cplOk, leBytes 4
        (((s.view (.fn f) p o).toNat &&& fieldMask r fun x => x.acc != .wo) % 2 ^ 32)⟩] ∧
      ∀ x ∈ r.fields, bitsOf (t.reg p o).toNat x.lo x.w = if x.acc = .rc then 0 else bitsOf (s.reg p o).toNat x.lo x.w := by
  have hread := (regRead_page hb hal).trans ((pageReadBy_reachable o hm).trans (pageRead_whole hr hw))
  refine ⟨_, registerRead_completes 4 hf hl hu hn (by simp [hb]), ?_, fun x hx => ?_⟩
  · rw [hread, State.complete, cpls_afterRead, cpls_clearOnRead, BitVec.toNat_ofNat]
  · rw [hread]
    exact (congrArg (fun v : Word => bitsOf v.toNat x.lo x.w) (reg_afterRead _ p o)).trans
      (bitsOf_clearOnRead (rowAt_fits hr) hx)

/-- A host's read that is not of 32 aligned bits is answered with zeros and reported (R26, R505). -/
theorem registerRead_narrow {s : State} {f off w : Nat} (hf : f < 64) (hl : s.linkDown = false) (hu : s.hostUp = true)
    (hn : s.fnUp f = true) (ho : bar0 (.fn f) off ≠ .outside) (hw : ∀ g o, bar0 (.fn f) off = .window g o → o < 0x1000)
    (h : w ≠ 4 ∨ off % 4 ≠ 0) :
    Runs (.registerRead (.fn f) off w) s fun t =>
      t.cpls = s.cpls ++ [⟨f, cplOk, leBytes w 0⟩] ∧ Reported s (.fn f) off 0 t := by
  refine ⟨_, registerRead_completes w hf hl hu hn ho, ?_⟩
  rw [regRead_narrow ho hw h]
  exact ⟨by rw [State.complete, accErr_cpls]; rfl, reported_accErr s (.fn f) off (by decide)⟩

/-- A write that the mode or the page's lock turns away is reported (R509, R521, R580). -/
theorem registerWrite_turnedAway {s : State} {a : Agent} {off o k : Nat} {p : Page} {r : RegRow} (v : Word) (aux : Aux)
    (ha : writeTaken s a) (hb : bar0 a off = .page p o) (hal : off % 4 = 0) (hc : o ≠ Reg.PG_CMD)
    (hr : rowAt p.kind o = some r) (hk : s.turnedAway a p = some k) :
    Runs (.registerWrite a off 4 v aux) s (Reported s a off k) := by
  refine ⟨_, registerWrite_taken off 4 v aux ha, ?_⟩
  rw [regWrite_page v aux hb hal, pageWrite_turnedAway v.toNat aux hr hc hk, addr_of_bar0 hb]
  exact reported_accErr s a off (turnedAway_lt hk)

/-- A write to a register with no effect of its own lands by its access codes, or is out of range and is discarded whole
(R27, R618). -/
theorem registerWrite_stores {s : State} {a : Agent} {off o : Nat} {p : Page} {r : RegRow} (v : Word) (aux : Aux)
    (ha : writeTaken s a) (hb : bar0 a off = .page p o) (hal : off % 4 = 0) (hr : rowAt p.kind o = some r)
    (ht : s.turnedAway a p = none) (hw : r.half = .whole) (hlo : 0x40 ≤ o) (hhi : o < 0xF00) (hk : p.kind ∈ storeKinds) :
    (r.inRange v.toNat = true → (∀ x ∈ r.fields, x.acc = .rwl → s.rwlOpen p = true) →
      Runs (.registerWrite a off 4 v aux) s (Landed s p o r v.toNat)) ∧
    (r.inRange v.toNat = false →
      Runs (.registerWrite a off 4 v aux) s fun t => Reported s a off 2 t ∧ (p ≠ pgHif → t.reg p o = s.reg p o)) := by
  have hput := (regWrite_page v aux hb hal).trans (pageWrite_whole v aux hr hw hk hlo hhi ht)
  have runs := registerWrite_taken off 4 v aux ha
  rw [hput] at runs
  constructor
  · intro hv ho
    rw [plainWrite_inRange hr hv ho] at runs
    exact ⟨_, runs, landed_apply (rowAt_fits hr) v.toNat⟩
  · intro hv
    rw [plainWrite_outOfRange hr hv, addr_of_bar0 hb] at runs
    exact ⟨_, runs, reported_accErr s a off (by decide), fun hp => reg_accErr_ne (fun x hx => addr_ne_hif hb hp hx) s a off 2⟩

/-- Settles O54: reads and writes of registers, case by case of what BAR0 decodes; a report is `reported_accErr`, a write that
lands is `landed_apply`. -/
theorem hostRegisters : Obligations.HostRegisters := by
  refine ⟨fun s f off w hf hl => ⟨registerRead_unsupported w hf hl, fun hu hn => ⟨?_, ?_, ?_, ?_⟩⟩,
    fun s f off w v aux _ => ⟨registerWrite_lost off w v aux, fun hl hup => ⟨?_, ?_, ?_, ?_, ?_⟩⟩,
    fun s a off o p r v aux ha hb hal hc hr =>
      ⟨fun k hk => registerWrite_turnedAway v aux ha hb hal hc hr hk,
        fun ht hw hlo hhi hk => registerWrite_stores v aux ha hb hal hr ht hw hlo hhi hk⟩⟩
  · rintro g o hb ho rfl hal
    have h := registerRead_completes (off := off) 4 hf hl hu hn (by simp [hb])
    rwa [regRead_window hb ho hal] at h
  · intro g o hb ho
    have h := registerRead_completes (off := off) w hf hl hu hn (by simp [hb])
    rwa [regRead_slots w hb ho] at h
  · rintro p o r hb rfl hal hr hw hm
    exact registerRead_page hf hl hu hn hb hal hr hw hm
  · exact registerRead_narrow hf hl hu hn
  · intro hb
    have h := registerWrite_taken off w v aux (a := .fn f) ⟨hl, hup⟩
    rwa [regWrite_outside w v.toNat aux hb] at h
  · rintro g o hb rfl hal hlo hhi
    have h := registerWrite_taken off 4 v aux (a := .fn f) ⟨hl, hup⟩
    rwa [regWrite_window v aux hb (by omega) hal, winWrite_mbxReq s g v hlo hhi] at h
  · rintro g o hb rfl hal hlo hhi
    have h := registerWrite_taken off 4 v aux (a := .fn f) ⟨hl, hup⟩
    rw [regWrite_window v aux hb (by omega) hal, winWrite_head s g v.toNat hlo hhi] at h
    exact ⟨_, h, by rw [win_setWin, head_headPut], rfl, rfl, rfl⟩
  · intro ho hw h
    refine ⟨_, registerWrite_taken off w v aux (a := .fn f) ⟨hl, hup⟩, ?_⟩
    rw [regWrite_narrow v.toNat aux ho hw h]
    exact reported_accErr s (.fn f) off (by decide)
  · rintro hb rfl hal
    refine ⟨_, registerWrite_taken off 4 v aux (a := .fn f) ⟨hl, hup⟩, ?_⟩
    rw [regWrite_nothing v.toNat aux hb hal]
    exact reported_accErr s (.fn f) off (by decide)

end Sys2Proof.Proofs
end

section
/-!
PROOF. The idle step: a clock cycle moves more than time.
-/
namespace Sys2Proof.Proofs
open Sys2Proof Sys2Proof.Machine Sys2Proof.Safety

/-- Lane 0 is READY and follows schedule 0 of its group, whose window is open for the first 8,192 Tc of each 32,768; AIRTIME is
one clock cycle before the window's END, and the window holds the receiver asleep (R427, R428). -/
def lastCycleOfWindow : State :=
  let s := State.reset.setFld (pgLane 0) Reg.PG_STATE 0 4 stReady
  let s := s.setFld (pgLng 0) Reg.LNG_SCHED_CTRL 0 1 1
  let s := s.setFld (pgLane 0) Reg.LN_CFG 14 2 1
  let s := { s with airtime := 8188, links := { s.links with scheds := [(0, ⟨0, 32768, [(0, 8192)], 0⟩)] } }
  (s.setLane 0 { LaneSt.reset with window := some 8192 }).rxSettle 0

theorem lastCycleOfWindow_idle : lastCycleOfWindow.pending = [] := by decide +kernel

/-- The receiver sleeps in that state, and the next clock cycle wakes it: RX_ASLEEP goes from 1 to 0 (R427, R430). -/
theorem clock_wakes_receiver :
    lastCycleOfWindow.fld (pgLane 0) Reg.LN_SLEEP 3 1 = 1 ∧ lastCycleOfWindow.clock.fld (pgLane 0) Reg.LN_SLEEP 3 1 = 0 := by
  decide +kernel

/-- Refutes O3: not only time moves in an idle clock cycle. At the END of a schedule window the lane's RX_ASLEEP follows AIRTIME
(`clock_wakes_receiver`), so IdleClock's clause that the registers are as they were fails. -/
theorem not_idleClockAndReset : ¬ Obligations.IdleClockAndReset := by
  rintro ⟨idle, -⟩
  obtain ⟨⟨t, hstep, _, _, hregs, _⟩, _⟩ := idle lastCycleOfWindow lastCycleOfWindow_idle
  obtain ⟨before, after⟩ := clock_wakes_receiver
  have ht : lastCycleOfWindow.clock = t := by
    rw [step, lastCycleOfWindow_idle] at hstep
    exact Host.Outcome.next.inj hstep
  have same : lastCycleOfWindow.clock.fld (pgLane 0) Reg.LN_SLEEP 3 1 = lastCycleOfWindow.fld (pgLane 0) Reg.LN_SLEEP 3 1 := by
    rw [ht, State.fld, State.reg, hregs]
    rfl
  rw [before, after] at same
  cases same

end Sys2Proof.Proofs
end

section
/-!
PROOF. What the shared operations of the time base and of the links leave: fields put into a register, writes that a page takes,
events posted, and the receivers that follow AIRTIME (R427, R430, R431).
-/
namespace Sys2Proof.Machine
open Sys2Proof.Safety

/-! ### Registers and fields -/

theorem reg_setReg_apart (s : State) {p q : Page} {off o : Nat} (v : Word) (h : q.addr + o ≠ p.addr + off) :
    (s.setReg p off v).reg q o = s.reg q o := by
  rw [reg_setReg, if_neg h]

theorem reg_count_apart (s : State) {p q : Page} {off o : Nat} (n : Nat) (h : q.addr + o ≠ p.addr + off) :
    (s.count p off n).reg q o = s.reg q o :=
  reg_setReg_apart s _ h

theorem fld_setFld_same (s : State) (p : Page) (off v : Nat) {lo w : Nat} (h : lo + w ≤ 32) :
    (s.setFld p off lo w v).fld p off lo w = v % 2 ^ w := by
  rw [State.fld, State.setFld, reg_setReg_same, bitsOf_w32 h, bitsOf_setBits_same]

/-- A pair of registers reads as the 64-bit value put there (R31). -/
theorem reg64_setReg64_same (s : State) (p : Page) (off : Nat) {v : Nat} (h : v < 2 ^ 64) :
    (s.setReg64 p off v).reg64 p off = v := by
  rw [State.reg64, State.setReg64, reg_setReg_same, reg_setReg_ne _ _ _ (by omega), reg_setReg_same,
    BitVec.toNat_ofNat, BitVec.toNat_ofNat]
  omega

/-- Another pair of the page is as it was. -/
theorem reg64_setReg64_ne (s : State) (p : Page) {off o : Nat} (v : Nat) (h : o + 4 < off ∨ off + 4 < o) :
    (s.setReg64 p off v).reg64 p o = s.reg64 p o := by
  rw [State.reg64, State.setReg64, reg_setReg_ne _ _ _ (by omega), reg_setReg_ne _ _ _ (by omega),
    reg_setReg_ne _ _ _ (by omega), reg_setReg_ne _ _ _ (by omega), State.reg64]

/-! ### Writes that a page takes (R509, R521) -/

theorem onPage_allowed {s : State} {a : Agent} {p : Page} (off : Nat) (k : State → State) (h : allowed s a p = true) :
    s.onPage a p off k = k s := by
  obtain ⟨hr, ht⟩ := Bool.and_eq_true_iff.1 h
  rw [State.onPage, hr, Option.isNone_iff_eq_none.1 ht]
  rfl

/-- The time base's registers lie outside the host interface's page. -/
theorem addr_time_ne_hif {o : Nat} : ∀ x < 0x1000, pgTime.addr + o ≠ pgHif.addr + x := by
  intro x hx
  rw [show pgTime.addr = 0xE018000 from rfl, show pgHif.addr = 0x2000 from rfl]
  omega

theorem fld_accErr_time (s : State) (a : Agent) (off kind o lo w : Nat) :
    (s.accErr a off kind).fld pgTime o lo w = s.fld pgTime o lo w := by
  rw [State.fld, reg_accErr_ne addr_time_ne_hif, State.fld]

@[simp] theorem accErr_airtime (s : State) (a : Agent) (off kind : Nat) : (s.accErr a off kind).airtime = s.airtime := by
  rw [accErr_frame]

@[simp] theorem accErr_time (s : State) (a : Agent) (off kind : Nat) : (s.accErr a off kind).time = s.time :=
  congrArg Links.time (accErr_links ..)

/-! ### Events (R287, R288) -/

/-- A published event joins those on their way to the fabric; nothing else changes but its source's sequence number. -/
theorem publish_eq (s : State) (cls inst : Nat) (low : Word) (o : Nat) :
    s.publish cls inst low o = { s with fab := { s.fab with
      seqs := insertKey (cls * 4096 + inst) ((lookupD 0 (cls * 4096 + inst) s.fab.seqs + 1) % 4096) s.fab.seqs
      evs := s.fab.evs ++ [⟨evWord cls inst (lookupD 0 (cls * 4096 + inst) s.fab.seqs) low, .published o⟩] } } := rfl

/-! ### Receivers that follow AIRTIME -/

/-- `t` differs from `s` in the stores of the lanes and in their registers LN_SLEEP and LN_TALLY_RXSLEEP only. -/
def LaneMove (s t : State) : Prop :=
  ∃ regs lanes, t = { s with regs := regs, links := { s.links with lanes := lanes } } ∧
    ∀ a, a % 0x1000 ≠ Reg.LN_SLEEP → a % 0x1000 ≠ Reg.LN_TALLY_RXSLEEP → lookup? a regs = lookup? a s.regs

namespace LaneMove

theorem refl (s : State) : LaneMove s s := ⟨_, _, rfl, fun _ _ _ => rfl⟩

theorem trans {s t u : State} : LaneMove s t → LaneMove t u → LaneMove s u := by
  rintro ⟨r, l, rfl, h⟩ ⟨r', l', rfl, h'⟩
  exact ⟨r', l', rfl, fun a hs ht => (h' a hs ht).trans (h a hs ht)⟩

theorem setLane (s : State) (l : Nat) (x : LaneSt) : LaneMove s (s.setLane l x) := ⟨_, _, rfl, fun _ _ _ => rfl⟩

theorem setReg (s : State) (l : Nat) {off : Nat} (v : Word) (h : off = Reg.LN_SLEEP ∨ off = Reg.LN_TALLY_RXSLEEP) :
    LaneMove s (s.setReg (pgLane l) off v) := by
  refine ⟨_, _, rfl, fun a hs ht => ?_⟩
  rw [lookup?_insertKey, if_neg]
  rintro rfl
  have hmod : ((pgLane l).addr + off) % 0x1000 = off % 0x1000 := by
    simp only [Page.addr]
    omega
  obtain rfl | rfl := h
  · exact hs (hmod.trans (by decide))
  · exact ht (hmod.trans (by decide))

theorem foldl {β : Type} {f : State → β → State} (hf : ∀ s x, LaneMove s (f s x)) (l : List β) : ∀ s, LaneMove s (l.foldl f s) := by
  induction l with
  | nil => exact refl
  | cons x l ih => exact fun s => (hf s x).trans (ih _)

theorem airtime {s t : State} (h : LaneMove s t) : t.airtime = s.airtime := by
  obtain ⟨_, _, rfl, _⟩ := h
  rfl

theorem time {s t : State} (h : LaneMove s t) : t.time = s.time := by
  obtain ⟨_, _, rfl, _⟩ := h
  rfl

theorem ctrl {s t : State} (h : LaneMove s t) : t.reg pgTime Reg.TB_CTRL = s.reg pgTime Reg.TB_CTRL := by
  obtain ⟨r, l, rfl, h⟩ := h
  rw [State.reg, h _ (by decide) (by decide), State.reg]

end LaneMove

theorem laneMove_rxSettle (s : State) (l : Nat) : LaneMove s (s.rxSettle l) := by
  unfold State.rxSettle State.rxResumes
  extract_lets p x held u want is
  have hu : LaneMove s u := by
    unfold u
    split
    · exact .refl s
    · exact .setLane ..
  split
  · split
    · exact hu
    · exact hu.trans (.setReg _ _ _ (.inl rfl))
  · split
    · exact (hu.trans (.setReg _ _ _ (.inl rfl))).trans (.setReg _ _ _ (.inr rfl))
    · exact (hu.trans (.setReg _ _ _ (.inl rfl))).trans (.setLane ..)

theorem laneMove_rxClock (s : State) : LaneMove s s.rxClock := by
  refine .foldl (fun s e => ?_) _ s
  refine .trans ?_ (laneMove_rxSettle ..)
  split
  · split
    · exact .setLane ..
    · exact .refl s
  · exact .refl s

theorem laneMove_skipWindows (s : State) (t0 : Nat) : LaneMove s (s.skipWindows t0) := by
  refine .foldl (fun s l => ?_) _ s
  split
  · split
    · split
      · exact .refl s
      · exact .setLane ..
    · exact .refl s
  · exact .refl s

end Sys2Proof.Machine
end

section
/-!
PROOF. The time base: ticks, the discipline of AIRTIME, generator writes and timed requests (R43 to R45, R457, R458, R466, R467).
-/
namespace Sys2Proof.Machine
open Sys2Proof.Safety

/-! ### Ticks (R43 to R45) -/

/-- The next tick is at or after the first that is still to be posted. -/
theorem le_code_of_nextTick {s : State} {g : Nat} {k : Tick} (h : s.nextTick g = some k) : lookupD 0 g s.time.genFrom ≤ k.code :=
  of_decide_eq_true (List.find?_some h :)

/-- The low word of a tick's event (R43). -/
def tickLow (s : State) (g : Nat) (k : Tick) : Nat :=
  k.sym * 2 ^ 2 + k.slot * 2 ^ 6 + k.sfn * 2 ^ 13 + bit (s.tickLate g k) * 2 ^ 23 + (0x10 + k.code % 2) * 2 ^ 24

/-- The state in which tick `k` of generator `g` is posted. -/
def tickPosted (s : State) (g : Nat) (k : Tick) : State :=
  (s.setTime { s.time with genFrom := insertKey g (k.code + 1) s.time.genFrom }).publish 0x01 g (w32 (tickLow s g k))
    (s.owner pgTime)

theorem genFrom_tickPosted (s : State) (g : Nat) (k : Tick) :
    (tickPosted s g k).time.genFrom = insertKey g (k.code + 1) s.time.genFrom := rfl

/-- A generator that is on posts its next tick when AIRTIME has reached the tick's instant, and does nothing before. -/
theorem execTick_on {s : State} {g : Nat} {k : Tick} (hg : g < 64) (hon : s.genOn g = true) (hserv : s.serving pgTime = true)
    (hsafe : s.mode ≠ modeSafe) (hk : s.nextTick g = some k) :
    execTick g s = .next (if s.airtime + s.genLead g < k.code / 2 then s else tickPosted s g k) := by
  rw [execTick, if_neg (by simp [hon, hserv, hsafe, hg]), hk]
  dsimp only
  split <;> rfl

/-! ### The discipline of AIRTIME (R45, R457, R458) -/

theorem exec_slew (a : Agent) (v : Word) (s : State) : exec (.slew a v) s = execSlew a v s := rfl
theorem exec_step (a : Agent) (v : DWord) (s : State) : exec (.step a v) s = execStep a v s := rfl

theorem execSlew_allowed {s : State} {a : Agent} (v : Word) (h : allowed s a pgTime = true) :
    execSlew a v s = .next (s.slewWrite a v) := by
  rw [execSlew, onPage_allowed _ _ h]

theorem execStep_allowed {s : State} {a : Agent} (v : DWord) (h : allowed s a pgTime = true) :
    execStep a v s = .next (s.stepWrite a v) := by
  rw [execStep, onPage_allowed _ _ h]

theorem stepOn_move (s : State) (d : Nat) :
    LaneMove { s.setTime { s.time with steps := s.time.steps ++ [(s.airtime, s.airtime + d)] } with airtime := s.airtime + d }
      (s.stepOn d) :=
  (laneMove_skipWindows ..).trans (laneMove_rxClock ..)

theorem airtime_stepOn (s : State) (d : Nat) : (s.stepOn d).airtime = s.airtime + d := (stepOn_move s d).airtime

theorem time_stepOn (s : State) (d : Nat) :
    (s.stepOn d).time = { s.time with steps := s.time.steps ++ [(s.airtime, s.airtime + d)] } := (stepOn_move s d).time

theorem airtime_stepBack (s : State) (d : Nat) : (s.stepBack d).airtime = s.airtime - d := (laneMove_rxClock _).airtime

theorem held_stepBack (s : State) (d : Nat) : (s.stepBack d).time.held = s.time.held :=
  (congrArg TimeSt.held (laneMove_rxClock _).time :)

theorem ctrl_stepBack (s : State) (d : Nat) : (s.stepBack d).reg pgTime Reg.TB_CTRL = s.reg pgTime Reg.TB_CTRL :=
  (laneMove_rxClock _).ctrl

section StepWrite
variable {s : State} {v : DWord} (a : Agent) (hheld : s.time.held = none)
include hheld

theorem stepWrite_forward (hv : 0 ≤ v.toInt) : s.stepWrite a v = s.stepOn v.toInt.natAbs := by
  rw [State.stepWrite, if_neg (by simp [hheld]; omega), if_pos hv]

theorem stepWrite_back (hv : v.toInt < 0) (hd : v.toInt.natAbs ≤ s.airtime) (hg : s.noGen = true) :
    s.stepWrite a v = s.stepBack v.toInt.natAbs := by
  rw [State.stepWrite, if_neg (by simp [hheld]; omega), if_neg (by omega), if_pos hg]

theorem stepWrite_held (hv : v.toInt < 0) (hd : v.toInt.natAbs ≤ s.airtime) (hg : s.noGen = false) :
    s.stepWrite a v = (s.setTime { s.time with held := some v.toInt.natAbs }).setFld pgTime Reg.TB_CTRL 4 1 1 := by
  rw [State.stepWrite, if_neg (by simp [hheld]; omega), if_neg (by omega), if_neg (by simp [hg])]

end StepWrite

theorem stepWrite_rejected {s : State} {v : DWord} (a : Agent) (hv : v.toInt < 0) (hd : s.airtime < v.toInt.natAbs) :
    s.stepWrite a v = s.accErr a (pgTime.addr + Reg.TB_STEP_HI) 2 := by
  rw [State.stepWrite, if_pos (.inr ⟨hv, hd⟩)]

/-- A step that was held takes effect once every generator is disabled. -/
theorem execStepApply_held {s : State} {d : Nat} (h : s.time.held = some d) :
    execStepApply s = .next (if s.noGen = true then
      ((s.setTime { s.time with held := none }).setFld pgTime Reg.TB_CTRL 4 1 0).stepBack d else s) := by
  rw [execStepApply, h]
  cases s.noGen <;> rfl

/-! ### Generator writes (R467) -/

theorem execGenEnable_allowed {s : State} {a : Agent} {g : Nat} (v : Word) (hg : g < 64) (h : allowed s a pgTime = true) :
    execGenEnable a g v s = .next (s.genCfgWrite a g v.toNat) := by
  rw [execGenEnable, if_neg (by omega), onPage_allowed _ _ h]

/-- The bit that `genOn` tests. -/
theorem bitOf_genOn (s : State) (g : Nat) : bitOf (s.reg pgTime (genOff g Reg.GEN_CFG)).toNat 4 = s.genOn g := rfl

theorem genLead_setCfg (s : State) (g : Nat) (v : Word) : (s.setReg pgTime (genOff g Reg.GEN_CFG) v).genLead g = s.genLead g := by
  rw [State.genLead, State.fld, reg_setReg_ne _ _ _ (by simp [genOff, Reg.GEN_LEAD, Reg.GEN_CFG]), State.genLead, State.fld]

theorem genCfgWrite_taken {s : State} (a : Agent) {g v : Nat} (hoff : s.genOn g = false)
    (hok : bitOf v 4 = true → (genCfgOf v).ok = true) :
    s.genCfgWrite a g v =
      let t := s.setReg pgTime (genOff g Reg.GEN_CFG) (w32 (v % 32))
      if bitOf v 4 then t.setTime { s.time with genFrom := insertKey g (2 * (s.airtime + s.genLead g)) s.time.genFrom } else t := by
  rw [State.genCfgWrite, bitOf_genOn, if_neg (by simp [hoff]), if_neg (by simpa using hok)]
  dsimp only
  rw [genLead_setCfg]
  rfl

theorem genCfgWrite_rejected {s : State} (a : Agent) {g v : Nat} (hoff : s.genOn g = false) (hen : bitOf v 4 = true)
    (hbad : (genCfgOf v).ok = false) : s.genCfgWrite a g v = s.accErr a (pgTime.addr + genOff g Reg.GEN_CFG) 2 := by
  rw [State.genCfgWrite, bitOf_genOn, if_neg (by simp [hoff]), if_pos (by simp [hen, hbad])]

/-- While EN is 1 only EN is written; a write that would change the layout is reported besides. -/
theorem genCfgWrite_on {s : State} (a : Agent) {g v : Nat} (hon : s.genOn g = true) :
    ∃ off kind, let t := s.setFld pgTime (genOff g Reg.GEN_CFG) 4 1 (bitsOf v 4 1)
      s.genCfgWrite a g v = t ∨ s.genCfgWrite a g v = t.accErr a off kind := by
  refine ⟨pgTime.addr + genOff g Reg.GEN_CFG, 2, ?_⟩
  rw [State.genCfgWrite, bitOf_genOn, if_pos hon]
  dsimp only
  split
  · exact .inl rfl
  · exact .inr rfl

/-! ### Timed requests (R466) -/

/-- The first instant of a timed request that is still to be raised. -/
def nextInstant (from_ base per : Nat) : Option Nat :=
  if from_ ≤ base then some base else if per = 0 then none else some (base + (from_ - base + per - 1) / per * per)

theorem nextInstant_first {from_ base : Nat} (per : Nat) (h : from_ ≤ base) : nextInstant from_ base per = some base := if_pos h

/-- After the first, it is the instant of the grid that lies less than a period ahead. -/
theorem nextInstant_later {from_ base per x : Nat} (hf : base < from_) (hper : 0 < per) (hlo : from_ ≤ x) (hhi : x < from_ + per)
    (hx : (x - base) % per = 0) : nextInstant from_ base per = some x := by
  obtain ⟨k, hk⟩ := Nat.dvd_of_mod_eq_zero hx
  have hq : (from_ - base + per - 1) / per = k := by
    apply Nat.div_eq_of_lt_le
    · rw [Nat.mul_comm, ← hk]
      omega
    · rw [Nat.succ_mul, Nat.mul_comm, ← hk]
      omega
  rw [nextInstant, if_neg (by omega), if_neg (by omega), hq, Nat.mul_comm, ← hk]
  exact congrArg some (by omega)

theorem nextInstant_once {from_ base : Nat} (h : base < from_) : nextInstant from_ base 0 = none := by
  rw [nextInstant, if_neg (by omega), if_pos rfl]

/-- A request that a line has room for is held on it (R397). -/
theorem raiseLine_room {s : State} {line : Nat} (r : DmaReq) (h : (s.lineReqs line).length < 16) :
    s.raiseLine line r = (s.setLine line (s.lineReqs line ++ [r]), true) := by
  rw [State.raiseLine, if_neg (by omega)]

/-- The next instant of timed request `n`, by its registers. -/
def State.treqNext (s : State) (n : Nat) : Option Nat :=
  nextInstant (lookupD 0 n s.time.treqFrom) (s.reg64 pgTime (treqOff n Reg.TB_TREQ_BASE_LO))
    (s.fld pgTime (treqOff n Reg.TB_TREQ_PERIOD) 0 31)

theorem execTimedRequest_raises {s : State} {n x : Nat} (hn : n < 20) (hserv : s.serving pgTime = true)
    (hen : s.fld pgTime (treqOff n Reg.TB_TREQ_PERIOD) 31 1 = 1) (hroom : (s.lineReqs (204 + n)).length < 16)
    (hnext : s.treqNext n = some x) (hx : x ≤ s.airtime) :
    execTimedRequest n s = .next ((s.setTime { s.time with treqFrom := insertKey n (x + 1) s.time.treqFrom }).setLine (204 + n)
      (s.lineReqs (204 + n) ++ [DmaReq.plain])) := by
  unfold execTimedRequest
  extract_lets p base from_ next
  rw [show next = some x from hnext]
  dsimp only
  rw [if_neg (by simp [hen, hserv]; omega), raiseLine_room]
  · rfl
  · exact hroom

theorem execTimedRequest_none {s : State} {n : Nat} (hnext : s.treqNext n = none) : execTimedRequest n s = .next s := by
  unfold execTimedRequest
  extract_lets p base from_ next
  rw [show next = none from hnext]

end Sys2Proof.Machine

namespace Sys2Proof.Proofs
open Sys2Proof Sys2Proof.Machine Sys2Proof.Safety

/-! ### Commands of the time base -/

theorem tick_posts {s : State} {g : Nat} {k : Tick} (hg : g < 64) (hon : s.genOn g = true) (hserv : s.serving pgTime = true)
    (hsafe : s.mode ≠ modeSafe) (hk : s.nextTick g = some k) (hdue : k.code / 2 ≤ s.airtime + s.genLead g) :
    Runs (.tick g) s fun t =>
      t.fab.evs = s.fab.evs ++
        [⟨evWord 0x01 g (lookupD 0 (4096 + g) s.fab.seqs) (BitVec.ofNat 32 (tickLow s g k)), .published (s.owner pgTime)⟩] ∧
      t.time = { s.time with genFrom := t.time.genFrom } ∧ t.regs = s.regs ∧ t.mem = s.mem ∧
      ∀ k2, t.nextTick g = some k2 → k.code < k2.code := by
  have hrun := execTick_on hg hon hserv hsafe hk
  rw [if_neg (by omega)] at hrun
  refine ⟨_, hrun, rfl, rfl, rfl, rfl, fun k2 hk2 => ?_⟩
  have hle := le_code_of_nextTick hk2
  rw [genFrom_tickPosted, lookupD_insertKey, if_pos rfl] at hle
  exact hle

theorem tick_waits {s : State} {g : Nat} {k : Tick} (hg : g < 64) (hon : s.genOn g = true) (hserv : s.serving pgTime = true)
    (hsafe : s.mode ≠ modeSafe) (hk : s.nextTick g = some k) (hearly : s.airtime + s.genLead g < k.code / 2) :
    Gives (.tick g) s s := by
  have hrun := execTick_on hg hon hserv hsafe hk
  rwa [if_pos hearly] at hrun

theorem slew_starts {s : State} {a : Agent} (v : Word) (h : allowed s a pgTime = true) (hz : s.time.slew = 0) :
    Gives (.slew a v) s (s.setTime { s.time with slew := v.toInt * 2 ^ 40 }) := by
  rw [Gives, exec_slew, execSlew_allowed v h, State.slewWrite, if_neg (by simpa using hz)]

theorem slew_rejected {s : State} {a : Agent} (v : Word) (h : allowed s a pgTime = true) (hz : s.time.slew ≠ 0) :
    Runs (.slew a v) s fun t => t.time = s.time ∧ t.airtime = s.airtime := by
  refine ⟨s.accErr a (pgTime.addr + Reg.TB_SLEW) 2, ?_, accErr_time .., accErr_airtime ..⟩
  rw [exec_slew, execSlew_allowed v h, State.slewWrite, if_pos hz]

section Step
variable {s : State} {a : Agent} {v : DWord} (h : allowed s a pgTime = true)
include h

theorem step_forward (hheld : s.time.held = none) (hv : 0 ≤ v.toInt) :
    Runs (.step a v) s fun t => t.airtime = s.airtime + v.toInt.toNat ∧
      t.time = { s.time with steps := s.time.steps ++ [(s.airtime, s.airtime + v.toInt.toNat)] } := by
  refine ⟨s.stepOn v.toInt.toNat, ?_, airtime_stepOn .., time_stepOn ..⟩
  rw [exec_step, execStep_allowed v h, stepWrite_forward a hheld hv, show v.toInt.toNat = v.toInt.natAbs by omega]

theorem step_back (hheld : s.time.held = none) (hv : v.toInt < 0) (hd : v.toInt.natAbs ≤ s.airtime) (hg : s.noGen = true) :
    Runs (.step a v) s fun t => t.airtime + v.toInt.natAbs = s.airtime := by
  refine ⟨s.stepBack v.toInt.natAbs, ?_, (congrArg (· + _) (airtime_stepBack ..)).trans (Nat.sub_add_cancel hd)⟩
  rw [exec_step, execStep_allowed v h, stepWrite_back a hheld hv hd hg]

theorem step_held (hheld : s.time.held = none) (hv : v.toInt < 0) (hd : v.toInt.natAbs ≤ s.airtime) (hg : s.noGen = false) :
    Runs (.step a v) s fun t => t.airtime = s.airtime ∧ t.time = { s.time with held := some v.toInt.natAbs } ∧
      t.fld pgTime Reg.TB_CTRL 4 1 = 1 := by
  have hrun := execStep_allowed v h
  rw [stepWrite_held a hheld hv hd hg] at hrun
  exact ⟨_, hrun, rfl, rfl, fld_setFld_same _ _ _ _ (by decide)⟩

theorem step_rejected (hv : v.toInt < 0) (hd : s.airtime < v.toInt.natAbs) :
    Runs (.step a v) s fun t => t.airtime = s.airtime ∧ t.time = s.time := by
  refine ⟨s.accErr a (pgTime.addr + Reg.TB_STEP_HI) 2, ?_, accErr_airtime .., accErr_time ..⟩
  rw [exec_step, execStep_allowed v h, stepWrite_rejected a hv hd]

end Step

theorem stepApply_applies {s : State} {d : Nat} (h : s.time.held = some d) (hg : s.noGen = true) :
    Runs .stepApply s fun t => t.airtime = s.airtime - d ∧ t.time.held = none ∧ t.fld pgTime Reg.TB_CTRL 4 1 = 0 := by
  have hrun := execStepApply_held h
  rw [if_pos hg] at hrun
  refine ⟨_, hrun, airtime_stepBack .., held_stepBack .., ?_⟩
  rw [State.fld, ctrl_stepBack]
  exact fld_setFld_same _ _ _ _ (by decide)

theorem stepApply_waits {s : State} {d : Nat} (h : s.time.held = some d) (hg : s.noGen = false) : Gives .stepApply s s := by
  have hrun := execStepApply_held h
  rwa [if_neg (by simp [hg])] at hrun

section GenEnable
variable {s : State} {a : Agent} {g : Nat} {v : Word} (hg : g < 64) (h : allowed s a pgTime = true)
include hg h

theorem genEnable_taken (hoff : s.genOn g = false) (hok : (genCfgOf v.toNat).ok = true) :
    Runs (.genEnable a g v) s fun t => t.reg pgTime (genOff g Reg.GEN_CFG) = BitVec.ofNat 32 (v.toNat % 32) ∧
      (bitOf v.toNat 4 = true → lookup? g t.time.genFrom = some (2 * (s.airtime + s.genLead g))) := by
  have hrun := execGenEnable_allowed v hg h
  rw [genCfgWrite_taken a hoff fun _ => hok] at hrun
  refine ⟨_, hrun, ?_, fun hen => ?_⟩
  · dsimp only
    split
    · exact reg_setReg_same ..
    · exact reg_setReg_same ..
  · rw [if_pos hen, time_setTime, lookup?_insertKey, if_pos rfl]

theorem genEnable_rejected (hoff : s.genOn g = false) (hbad : (genCfgOf v.toNat).ok = false) (hen : bitOf v.toNat 4 = true) :
    Runs (.genEnable a g v) s fun t =>
      t.reg pgTime (genOff g Reg.GEN_CFG) = s.reg pgTime (genOff g Reg.GEN_CFG) ∧ t.time = s.time := by
  have hrun := execGenEnable_allowed v hg h
  rw [genCfgWrite_rejected a hoff hen hbad] at hrun
  exact ⟨_, hrun, reg_accErr_ne addr_time_ne_hif .., accErr_time ..⟩

theorem genEnable_on (hon : s.genOn g = true) :
    Runs (.genEnable a g v) s fun t =>
      t.fld pgTime (genOff g Reg.GEN_CFG) 0 4 = s.fld pgTime (genOff g Reg.GEN_CFG) 0 4 ∧
      t.fld pgTime (genOff g Reg.GEN_CFG) 4 1 = bitsOf v.toNat 4 1 ∧ t.time = s.time := by
  have hrun := execGenEnable_allowed v hg h
  have layout : (s.setFld pgTime (genOff g Reg.GEN_CFG) 4 1 (bitsOf v.toNat 4 1)).fld pgTime (genOff g Reg.GEN_CFG) 0 4 =
      s.fld pgTime (genOff g Reg.GEN_CFG) 0 4 := by
    rw [State.fld, State.setFld, reg_setReg_same, bitsOf_w32 (by decide), bitsOf_setBits_apart (.inr (by decide)), State.fld]
  have en : (s.setFld pgTime (genOff g Reg.GEN_CFG) 4 1 (bitsOf v.toNat 4 1)).fld pgTime (genOff g Reg.GEN_CFG) 4 1 =
      bitsOf v.toNat 4 1 := by
    rw [fld_setFld_same _ _ _ _ (by decide), Nat.mod_eq_of_lt (bitsOf_lt ..)]
  obtain ⟨off, kind, heq | heq⟩ := genCfgWrite_on (v := v.toNat) a hon
  · rw [heq] at hrun
    exact ⟨_, hrun, layout, en, rfl⟩
  · rw [heq] at hrun
    exact ⟨_, hrun, (fld_accErr_time ..).trans layout, (fld_accErr_time ..).trans en, accErr_time ..⟩

end GenEnable

theorem timedRequest_raises {s : State} {n x : Nat} (hn : n < 20) (hserv : s.serving pgTime = true)
    (hen : s.fld pgTime (treqOff n Reg.TB_TREQ_PERIOD) 31 1 = 1) (hroom : (s.lineReqs (204 + n)).length < 16)
    (hnext : s.treqNext n = some x) (hx : x ≤ s.airtime) :
    Runs (.timedRequest n) s fun t => t.lineReqs (204 + n) = s.lineReqs (204 + n) ++ [⟨0, 0, [], none⟩] ∧
      t.time = { s.time with treqFrom := insertKey n (x + 1) s.time.treqFrom } ∧ t.regs = s.regs :=
  ⟨_, execTimedRequest_raises hn hserv hen hroom hnext hx, (lineReqs_setLine ..).trans (if_pos rfl), rfl, rfl⟩

/-- The commands of the time base, clause by clause. -/
theorem timeBaseCommands : Claims.TimeBaseCommands := by
  refine ⟨fun s g k hg hon hserv hsafe hk => ⟨tick_posts hg hon hserv hsafe hk, tick_waits hg hon hserv hsafe hk⟩,
    fun s a v h => ⟨slew_starts v h, slew_rejected v h⟩,
    fun s a v h hheld => ⟨step_forward h hheld, step_back h hheld, step_held h hheld, step_rejected h⟩,
    fun s d h => ⟨stepApply_applies h, stepApply_waits h⟩,
    fun s a g v hg h => ⟨genEnable_taken hg h, genEnable_rejected hg h, genEnable_on hg h⟩,
    fun s n hn hserv => ?_⟩
  intro per base from_ hen hroom
  refine ⟨fun x hx hat => timedRequest_raises hn hserv hen hroom ?_ hx, fun hlate hper => ?_⟩
  · obtain ⟨hle, rfl⟩ | ⟨hlt, hper, hlo, hhi, hmod, -⟩ := hat
    · exact nextInstant_first per hle
    · exact nextInstant_later hlt hper hlo hhi hmod
  · refine execTimedRequest_none ((congrArg (nextInstant _ _) hper).trans (nextInstant_once hlate))

end Sys2Proof.Proofs
end

section
/-!
PROOF. PPS, time-of-day messages and PTP entries (R460, R462 to R464).
-/
namespace Sys2Proof.Machine
open Sys2Proof.Safety

/-! ### PPS (R463) -/

/-- How long ago AIRTIME was congruent to `off` modulo a second, when that was at `e`, less than a second ago. -/
theorem since_pulse {now e off : Nat} (he : e ≤ now) (hnow : now < e + tcSecond) (hoff : e % tcSecond = off % tcSecond) :
    (now + tcSecond - off % tcSecond) % tcSecond = now - e := by
  unfold tcSecond at *
  omega

/-- The state in which the edge at `e` goes out. -/
def ppsSent (s : State) (e : Nat) : State :=
  let t := s.setTime { s.time with
    ppsAt := some e
    tod := if s.fld pgTime Reg.TB_TOD_CTRL 0 1 = 1 then some e else none }
  State.send { t with pins := { t.pins with ppsHigh := some (e + t.fld pgTime Reg.TB_PPS_WIDTH 0 8 * 1966080) } } padPps []

theorem execPpsOut_edge {s : State} {e : Nat} (hon : s.pins.on = true) (hen : s.fld pgTime Reg.TB_PPS_OUT 31 1 = 1)
    (he : e ≤ s.airtime) (hnow : s.airtime ≤ e + 5) (hoff : e % tcSecond = s.fld pgTime Reg.TB_PPS_OUT 0 31 % tcSecond)
    (hnew : s.time.ppsAt ≠ some e) : execPpsOut s = .next (ppsSent s e) := by
  unfold execPpsOut
  dsimp only
  rw [since_pulse he (by unfold tcSecond; omega) hoff, Nat.sub_sub_self he, if_neg (by simp [hon, hen, hnew]; omega)]
  rfl

/-- The state in which an edge on PPS_IN is stamped, and in REST counted. -/
def ppsStamped (s : State) (sub : Nat) : State :=
  { s.setReg64 pgTime Reg.TB_PPS_IN_LO (s.airtime + sub % 4) with rest := s.rest.map fun r => { r with edges := r.edges + 1 } }

theorem reg64_ppsStamped (s : State) (sub : Nat) : (ppsStamped s sub).reg64 pgTime Reg.TB_PPS_IN_LO =
    (s.setReg64 pgTime Reg.TB_PPS_IN_LO (s.airtime + sub % 4)).reg64 pgTime Reg.TB_PPS_IN_LO := rfl

theorem execPpsIn_eq (sub : Nat) (s : State) : execPpsIn sub s = .next (ppsStamped s sub) := rfl

/-! ### Time of day (R464) -/

theorem exec_todRx (m : List Byte) (s : State) : exec (.todRx m) s = execTodRx m s := rfl

@[simp] theorem length_beNum (n v : Nat) : (beNum n v).length = n := by
  induction n generalizing v with
  | zero => rfl
  | succ n ih => simp [beNum, ih]

theorem foldl_numBe (bs : List Byte) (a : Nat) : bs.foldl (fun a b => a * 256 + b.toNat) a = a * 256 ^ bs.length + numBe bs := by
  unfold numBe
  induction bs generalizing a with
  | nil => simp
  | cons b bs ih =>
    rw [List.foldl_cons, List.foldl_cons, ih, ih (0 * 256 + _), List.length_cons, Nat.pow_succ, Nat.zero_mul, Nat.zero_add,
      Nat.add_mul, Nat.mul_assoc, Nat.mul_comm 256, Nat.add_assoc]

/-- The big-endian bytes of a number spell it, modulo what they can hold. -/
theorem numBe_beNum (n v : Nat) : numBe (beNum n v) = v % 2 ^ (8 * n) := by
  induction n with
  | zero => simp [beNum, numBe, Nat.mod_one]
  | succ n ih =>
    have hpow : 2 ^ (8 * n) = 256 ^ n := Nat.pow_mul 2 8 n
    rw [beNum, numBe, List.foldl_cons, foldl_numBe, length_beNum, ih, BitVec.toNat_ofNat, Nat.zero_mul, Nat.zero_add, ← hpow,
      Nat.mul_succ, Nat.pow_add, Nat.mod_mul, Nat.add_comm, Nat.mul_comm (2 ^ (8 * n))]

theorem numBe_lt (bs : List Byte) : numBe bs < 256 ^ bs.length := by
  induction bs with
  | nil => simp [numBe]
  | cons b bs ih =>
    have hb : (b.toNat + 1) * 256 ^ bs.length ≤ 256 * 256 ^ bs.length := Nat.mul_le_mul_right _ b.isLt
    rw [Nat.succ_mul] at hb
    rw [numBe, List.foldl_cons, foldl_numBe, List.length_cons, Nat.pow_succ, Nat.zero_mul, Nat.zero_add, Nat.mul_comm _ 256]
    omega

/-- The sum of bytes as a byte is that of their values. -/
theorem ofNat_sum (bs : List Byte) (a : Nat) :
    BitVec.ofNat 8 ((bs.map (·.toNat)).foldl (· + ·) a) = bs.foldl (· + ·) (BitVec.ofNat 8 a) := by
  induction bs generalizing a with
  | nil => rfl
  | cons b bs ih => rw [List.map_cons, List.foldl_cons, List.foldl_cons, ih, BitVec.ofNat_add, BitVec.ofNat_toNat, BitVec.setWidth_eq]

theorem todSum_eq (bs : List Byte) : todSum bs = ((bs.drop 2).take 13).foldl (· + ·) 0 := ofNat_sum _ 0

/-- A ToD message without its sum: the seconds, the UTC offset and whether AIRTIME is disciplined. -/
def todBody (sec : Nat) (utc : BitVec 16) (locked : Nat) : List Byte :=
  [0xA5, 0x5A] ++ beNum 6 sec ++ beNum 2 utc.toNat ++ [BitVec.ofNat 8 locked, 0, 0, 0, 0]

/-- Where the fields of a ToD message lie. -/
theorem todBody_fields (sec : Nat) (utc : BitVec 16) (locked : Nat) (sum : Byte) :
    let m := todBody sec utc locked ++ [sum]
    m.length = 16 ∧ m.take 2 = [0xA5, 0x5A] ∧ (m.drop 2).take 6 = beNum 6 sec ∧ (m.drop 8).take 2 = beNum 2 utc.toNat ∧
      m.getD 10 0 = BitVec.ofNat 8 locked ∧ (m.drop 11).take 4 = [0, 0, 0, 0] ∧ m.getD 15 0 = sum ∧
      (m.drop 2).take 13 = ((todBody sec utc locked).drop 2).take 13 :=
  ⟨rfl, rfl, rfl, rfl, rfl, rfl, rfl, rfl⟩

theorem execTodTx_due {s : State} {e : Nat} (utc : BitVec 16) (htod : s.time.tod = some e)
    (hen : s.fld pgTime Reg.TB_TOD_CTRL 0 1 = 1) (hnow : s.airtime ≤ e + 196608000) :
    let m := todBody (ptpTime e).1 utc (s.fld pgTime Reg.TB_CTRL 3 1)
    execTodTx utc s = .next ((s.setTime { s.time with tod := none }).send padTod (m ++ [todSum m])) := by
  rw [execTodTx, htod]
  dsimp only
  rw [if_neg (by simp [hen]; omega)]
  rfl

/-- The state in which a valid message is latched, with the last PPS_IN stamp. -/
def todLatched (s : State) (m : List Byte) : State :=
  (s.setReg64 pgTime Reg.TB_TOD_RX_LO (numBe ((m.drop 2).take 6))).setTime
    { s.time with todPps := s.reg64 pgTime Reg.TB_PPS_IN_LO }

theorem execTodRx_valid {s : State} {m : List Byte} (hlen : m.length = 16) (hsync : m.take 2 = [0xA5, 0x5A])
    (hsum : m.getD 15 0 = todSum m) : execTodRx m s = .next (todLatched s m) := by
  rw [execTodRx, if_neg (not_or.2 ⟨not_not_intro hlen, not_or.2 ⟨not_not_intro hsync, not_not_intro hsum⟩⟩)]
  dsimp only
  rw [reg64_setReg64_ne _ _ _ (.inl (by decide))]
  rfl

/-! ### PTP (R460, R462) -/

theorem exec_ptpTx (host : List Byte) (s : State) : exec (.ptpTx host) s = execPtpTx host s := rfl

theorem queue_egress (s : State) (p q : Nat) (it : TxItem) :
    lookupD [] q ((s.egress p q it).mac p).queues = lookupD [] q (s.mac p).queues ++ [it] := by
  simp [State.egress]

/-- At a whole second the nanoseconds are 0. -/
theorem ptpTime_second {t : Nat} (h : t % tcSecond = 0) : ptpTime t = (t / tcSecond + 315964819, 0) := by
  have hq : t * 10 ^ 9 / tcSecond = t / tcSecond * 10 ^ 9 := Nat.div_mul_right_comm (Nat.dvd_of_mod_eq_zero h) _ |>.symm
  have hr : t * 10 ^ 9 % tcSecond = 0 := by rw [Nat.mul_mod, h, Nat.zero_mul, Nat.zero_mod]
  rw [ptpTime, hq, hr, if_pos (.inl (by decide)), Nat.mul_div_cancel _ (by decide), Nat.mul_mod_left]

end Sys2Proof.Machine

namespace Sys2Proof.Proofs
open Sys2Proof Sys2Proof.Machine Sys2Proof.Safety

theorem ppsOut_sends {s : State} {e : Nat} (hon : s.pins.on = true) (hen : s.fld pgTime Reg.TB_PPS_OUT 31 1 = 1)
    (he : e ≤ s.airtime) (hnow : s.airtime ≤ e + 5) (hoff : e % tcSecond = s.fld pgTime Reg.TB_PPS_OUT 0 31 % tcSecond)
    (hnew : s.time.ppsAt ≠ some e) :
    Runs .ppsOut s fun t => t.time.ppsAt = some e ∧ t.links.sent = s.links.sent ++ [⟨0x100, s.airtime, []⟩] ∧
      t.pins.ppsHigh = some (e + s.fld pgTime Reg.TB_PPS_WIDTH 0 8 * 1966080) ∧
      (s.fld pgTime Reg.TB_TOD_CTRL 0 1 = 1 → t.time.tod = some e) :=
  ⟨_, execPpsOut_edge hon hen he hnow hoff hnew, rfl, rfl, rfl, fun htod => if_pos htod⟩

theorem ppsIn_stamps {s : State} (sub : Nat) (h : s.airtime + 4 < 2 ^ 64) :
    Runs (.ppsIn sub) s fun t => t.reg64 pgTime Reg.TB_PPS_IN_LO = s.airtime + sub % 4 ∧
      (∀ r, s.rest = some r → t.rest = some { r with edges := r.edges + 1 }) ∧ t.time = s.time ∧ t.mem = s.mem :=
  ⟨_, execPpsIn_eq sub s, (reg64_ppsStamped s sub).trans (reg64_setReg64_same s _ _ (by omega)),
    fun _ hr => congrArg (Option.map _) hr, rfl, rfl⟩

theorem todTx_sends {s : State} (utc : BitVec 16) {e : Nat} (htod : s.time.tod = some e)
    (hen : s.fld pgTime Reg.TB_TOD_CTRL 0 1 = 1) (hnow : s.airtime ≤ e + 196608000) :
    Runs (.todTx utc) s fun t => t.time = { s.time with tod := none } ∧
      ∃ m : List Byte, t.links.sent = s.links.sent ++ [⟨0x101, s.airtime, m⟩] ∧ m.length = 16 ∧ m.take 2 = [0xA5, 0x5A] ∧
        numBe ((m.drop 2).take 6) = (ptpTime e).1 % 2 ^ 48 ∧ numBe ((m.drop 8).take 2) = utc.toNat ∧
        m.getD 10 0 = BitVec.ofNat 8 (s.fld pgTime Reg.TB_CTRL 3 1) ∧ (m.drop 11).take 4 = [0, 0, 0, 0] ∧
        m.getD 15 0 = ((m.drop 2).take 13).foldl (· + ·) 0 := by
  obtain ⟨hlen, hsync, hsec, hutc, hlocked, hzero, hsum, hbody⟩ := todBody_fields (ptpTime e).1 utc (s.fld pgTime Reg.TB_CTRL 3 1)
    (todSum (todBody (ptpTime e).1 utc (s.fld pgTime Reg.TB_CTRL 3 1)))
  refine ⟨_, execTodTx_due utc htod hen hnow, rfl, _, rfl, hlen, hsync, ?_, ?_, hlocked, hzero, ?_⟩
  · exact (congrArg numBe hsec).trans (numBe_beNum 6 _)
  · exact ((congrArg numBe hutc).trans (numBe_beNum 2 _)).trans (Nat.mod_eq_of_lt utc.isLt)
  · rw [hsum, hbody, todSum_eq]

theorem todRx_valid {s : State} {m : List Byte} (hlen : m.length = 16) (hsync : m.take 2 = [0xA5, 0x5A])
    (hsum : m.getD 15 0 = ((m.drop 2).take 13).foldl (· + ·) 0) :
    Runs (.todRx m) s fun t => t.reg64 pgTime Reg.TB_TOD_RX_LO = numBe ((m.drop 2).take 6) ∧
      t.time = { s.time with todPps := s.reg64 pgTime Reg.TB_PPS_IN_LO } := by
  have hlt : numBe ((m.drop 2).take 6) < 2 ^ 64 := by
    refine Nat.lt_of_lt_of_le (numBe_lt _) ?_
    rw [List.length_take, List.length_drop, hlen]
    decide
  exact ⟨_, execTodRx_valid hlen hsync (by rw [hsum, todSum_eq]), reg64_setReg64_same s _ _ hlt, rfl⟩

theorem todRx_discarded {s : State} {m : List Byte} (hsum : m.getD 15 0 ≠ ((m.drop 2).take 13).foldl (· + ·) 0) :
    Gives (.todRx m) s s := by
  rw [Gives, exec_todRx, execTodRx, if_pos (.inr (.inr (by rwa [todSum_eq])))]

theorem ptpTx_queues {s : State} (host : List Byte) (hserv : s.serving pgTime = true) :
    let n := s.fld pgTime Reg.TB_PTP_SIZE 16 12
    let j := s.time.ptpTx
    let e := s.ptpGet (s.reg64 pgTime Reg.TB_PTP_TX_LO + 2048 * j) 2048 host
    let w := ofLe (e.take 4)
    0 < n → j ≠ s.fld pgTime Reg.TB_PTP_TX_TAIL 0 12 → bitOf w 0 = true →
    Runs (.ptpTx host) s fun t => t.time = { s.time with ptpTx := (j + 1) % n } ∧
      lookupD [] 7 (t.mac (bitsOf w 14 6)).queues =
        lookupD [] 7 (s.mac (bitsOf w 14 6)).queues ++ [⟨(e.drop 32).take (bitsOf w 1 13), some (4096 * w + j), none, none⟩] ∧
      t.mem = s.mem ∧ t.regs = s.regs := by
  intro n j e w hn htail hvalid
  refine ⟨(s.setTime { s.time with ptpTx := (j + 1) % n }).egress (bitsOf w 14 6) 7
    ⟨(e.drop 32).take (bitsOf w 1 13), some (4096 * w + j), none, none⟩, ?_, rfl, queue_egress .., rfl, rfl⟩
  rw [exec_ptpTx, execPtpTx, if_neg (by simp [hserv]; omega)]
  exact if_neg (by simpa [e, w, j] using hvalid)

/-- PPS, time of day and PTP, clause by clause. -/
theorem pulsesAndStamps : Claims.PulsesAndStamps :=
  ⟨fun _ hon hen _ he hnow hoff hnew => ppsOut_sends hon hen he hnow hoff hnew,
    fun _ sub h => ppsIn_stamps sub h,
    fun _ utc _ htod hen hnow => todTx_sends utc htod hen hnow,
    fun _ _ hlen hsync => ⟨todRx_valid hlen hsync, todRx_discarded⟩,
    fun _ host hserv => ptpTx_queues host hserv,
    fun _ h => ptpTime_second h⟩

/-- Settles O42, clause by clause: what each command of the time base leaves is said once of its meaning (`execTick_on`,
`stepOn_move`, `genCfgWrite_taken`, `execTimedRequest_raises`, `execPpsOut_edge`, `execTodTx_due`). -/
theorem timeBaseAndStamps : Obligations.TimeBaseAndStamps := ⟨timeBaseCommands, pulsesAndStamps⟩

end Sys2Proof.Proofs
end

section
/-!
PROOF. Frames received: what a MAC and a framer do with a frame, what its window decides, and the symbols and halves that follow
(R54, R438, R440, R442, R444, R445, R447).
-/
namespace Sys2Proof.Machine
open Sys2Proof.Safety

/-! ### What operations leave of the framers -/

theorem foldl_keeps {β γ : Type} (view : State → γ) {f : State → β → State} (hf : ∀ s x, view (f s x) = view s) (l : List β) :
    ∀ s, view (l.foldl f s) = view s := by
  induction l with
  | nil => exact fun _ => rfl
  | cons x l ih => exact fun s => (ih _).trans (hf s x)

theorem writeLine_links (s : State) (blk : Nat) (bs : List (Nat × Byte)) : (s.writeLine blk bs).1.links = s.links := by
  unfold State.writeLine
  dsimp only
  split
  · exact foldl_keeps State.links (f := fun s x => s.mark (blk + x.1) false) (fun _ _ => rfl) bs _
  · split
    · rfl
    · split
      · exact foldl_keeps State.links (f := fun s p => (s.count pgMem Reg.MEM_TALLY_POISON_WR 1).count p Reg.MEM_BK_TALLY_POISON_WR 1)
          (fun _ _ => rfl) (s.copyParts blk) _
      · rfl

theorem rvTake_framers (s : State) (n : Nat) (b : RvBody) : (s.rvTake n b).links.framers = s.links.framers := by
  unfold State.rvTake
  dsimp only
  split
  · rfl
  · split
    · rfl
    · split <;> rfl

theorem mirrorOut_framers (s : State) (bs : List (Nat × Byte)) : (s.mirrorOut bs).links.framers = s.links.framers :=
  foldl_keeps (·.links.framers) (fun s _ => foldl_keeps (·.links.framers)
    (fun s _ => foldl_keeps (·.links.framers) (fun s _ => rvTake_framers s _ _) _ s) _ s) _ s

theorem writeSome_framers (s : State) (blk : Nat) (bs : List (Nat × Byte)) :
    (s.writeSome blk bs).1.links.framers = s.links.framers := by
  have line := congrArg Links.framers (writeLine_links s blk bs)
  unfold State.writeSome
  dsimp only
  split
  · exact line
  · exact (mirrorOut_framers _ _).trans line

/-- A write to memory leaves the framers alone, whatever the links send of it (R476). -/
theorem write_framers (s : State) (a : Nat) (bs : List Byte) : (s.write a bs).1.links.framers = s.links.framers := by
  unfold State.write
  refine List.foldlRecOn (motive := fun r : State × Wr => r.1.links.framers = s.links.framers) _ _ rfl fun r hr p _ => ?_
  split
  · exact (writeSome_framers _ _ _).trans hr
  · exact hr

@[simp] theorem framer_write (s : State) (a : Nat) (bs : List Byte) (f : Nat) : (s.write a bs).1.framer f = s.framer f :=
  congrArg (lookupD FramerSt.reset f) (write_framers s a bs)

@[simp] theorem framer_setFramer_same (s : State) (f : Nat) (x : FramerSt) : (s.setFramer f x).framer f = x := by simp

theorem framer_flowTally (s : State) (f i w d : Nat) : (s.flowTally f i w d).framer f =
    { s.framer f with flows := insertKey i (bumpWord ((s.framer f).flow i) w d) (s.framer f).flows } :=
  framer_setFramer_same ..

theorem framer_carrierTally (s : State) (f c w d : Nat) : (s.carrierTally f c w d).framer f =
    { s.framer f with carriers := insertKey c (bumpWord ((s.framer f).carrier c) w d) (s.framer f).carriers } :=
  framer_setFramer_same ..

theorem framer_updSym (s : State) (f c start : Nat) (g : SymSt → SymSt) : (s.updSym f c start g).framer f =
    { s.framer f with syms := (s.framer f).syms.map fun y => if y.carrier = c ∧ y.start = start then g y else y } :=
  framer_setFramer_same ..

theorem w32_satAdd (x : Word) (d : Nat) : w32 (satAdd 32 x.toNat d) = tallied x d := by
  rw [tallied, show satAdd 32 x.toNat d = min (x.toNat + d) (2 ^ 32 - 1) by unfold satAdd; split <;> omega]

theorem getD_bumpWord (ws : List Word) (i d : Nat) :
    (bumpWord ws i d).getD i 0 = if ws.length ≤ i then 0 else tallied (ws.getD i 0) d := by
  rw [bumpWord, w32_satAdd, List.getD_eq_getElem?_getD, List.getElem?_set_self']
  split
  · next h => simp [h]
  · next h => simp [Nat.lt_of_not_le h]

/-! ### Reception by a MAC (R438, R440) -/

theorem reg_frm_count_port {p off : Nat} (s : State) (f o n : Nat) (hp : p < 64) (hoff : off < 0x1000) :
    (s.count (pgPort p) off n).reg (pgFrm f) o = s.reg (pgFrm f) o := by
  refine reg_count_apart s n ?_
  simp only [Page.addr, Page.num, pgFrm, pgPort, PageKind.base]
  omega

theorem reg_time_count_port {p off : Nat} (s : State) (o n : Nat) (hp : p < 64) (hoff : off < 0x1000) :
    (s.count (pgPort p) off n).reg pgTime o = s.reg pgTime o := by
  refine reg_count_apart s n ?_
  simp only [Page.addr, Page.num, pgTime, pgPort, PageKind.base]
  omega

theorem framerAs_count_port {p off : Nat} (s : State) (k n : Nat) (hp : p < 64) (hoff : off < 0x1000) :
    (s.count (pgPort p) off n).framerAs k = s.framerAs k := by
  have hid (f : Nat) : (s.count (pgPort p) off n).identity (pgFrm f) = s.identity (pgFrm f) := by
    unfold State.identity State.fld
    rw [reg_frm_count_port s f _ n hp hoff]
  have hready (f : Nat) : (s.count (pgPort p) off n).ready (pgFrm f) = s.ready (pgFrm f) := by
    unfold State.ready State.part State.fld
    rw [show (pgFrm f).home = pgFrm f from rfl, reg_frm_count_port s f _ n hp hoff]
  simp only [State.framerAs, hid, hready]

/-- The tally of received frames leaves the framer that a port names. -/
theorem framerOf_counted {p : Nat} (s : State) (hp : p < 64) :
    (s.count (pgPort p) Reg.PORT_TALLY_RX 1).framerAs ((s.count (pgPort p) Reg.PORT_TALLY_RX 1).fld (pgPort p) Reg.PORT_CFG 5 4) =
      s.framerAs (s.fld (pgPort p) Reg.PORT_CFG 5 4) := by
  rw [framerAs_count_port s _ 1 hp (by decide), State.fld, State.count, State.tally, State.setFld, reg_setReg_ne _ _ _ (by decide),
    State.fld]

theorem serving_time_count_port {p off : Nat} (s : State) (n : Nat) (hp : p < 64) (hoff : off < 0x1000) :
    (s.count (pgPort p) off n).serving pgTime = s.serving pgTime := by
  unfold State.serving State.part State.fld
  rw [show pgTime.home = pgTime from rfl, reg_time_count_port s _ n hp hoff]

/-- A received frame that a MAC drops as bad. -/
def rxBad (s : State) (p : Nat) (bytes : List Byte) : Prop :=
  bytes.length < 64 ∨ s.fld (pgPort p) Reg.PORT_CFG 9 14 < bytes.length ∨ fcsOk bytes = false

section RxFrame
variable {s : State} {p : Nat} (sub : Nat) {bytes : List Byte} (host : List Byte) (hp : p < 64)
  (hserv : s.serving (pgPort p) = true) (hsafe : s.mode ≠ modeSafe)
include hp hserv hsafe

theorem execRxFrame_bad (hbad : rxBad s p bytes) :
    execRxFrame p sub bytes host s = .next (s.count (pgPort p) Reg.PORT_TALLY_BAD 1) := by
  rw [execRxFrame, if_neg (by simp [hserv, hsafe, hp]), if_pos (by simpa [rxBad] using hbad)]

theorem execRxFrame_twoTags (hgood : ¬rxBad s p bytes) (hparse : ethParse bytes = none) :
    execRxFrame p sub bytes host s = .next (s.count (pgPort p) Reg.PORT_TALLY_OTHER 1) := by
  rw [execRxFrame, if_neg (by simp [hserv, hsafe, hp]), if_neg (by simpa [rxBad] using hgood), hparse]

variable {vid : Option Nat} {ty : Nat} {rest : List Byte} (hgood : ¬rxBad s p bytes) (hparse : ethParse bytes = some (vid, ty, rest))
include hgood hparse

theorem execRxFrame_ecpri {f : Nat} (hty : ty = 0xAEFE) (hq : s.quiet = false)
    (hf : s.framerAs (s.fld (pgPort p) Reg.PORT_CFG 5 4) = some f) :
    execRxFrame p sub bytes host s = .next ((s.count (pgPort p) Reg.PORT_TALLY_RX 1).framerRx f p (s.airtime + sub % 4) vid
      (numBe ((bytes.drop 6).take 6)) (rest.take (rest.length - 4))) := by
  rw [execRxFrame, if_neg (by simp [hserv, hsafe, hp]), if_neg (by simpa [rxBad] using hgood), hparse]
  dsimp only
  rw [if_pos hty, framerOf_counted s hp, hf]
  exact if_neg (by simpa [State.quiet] using hq)

theorem execRxFrame_noFramer (hty : ty = 0xAEFE) (hf : s.framerAs (s.fld (pgPort p) Reg.PORT_CFG 5 4) = none) :
    execRxFrame p sub bytes host s =
      .next ((s.count (pgPort p) Reg.PORT_TALLY_RX 1).count (pgPort p) Reg.PORT_TALLY_NOFRAMER 1) := by
  rw [execRxFrame, if_neg (by simp [hserv, hsafe, hp]), if_neg (by simpa [rxBad] using hgood), hparse]
  dsimp only
  rw [if_pos hty, framerOf_counted s hp, hf]

theorem execRxFrame_other (hty : ty ≠ 0xAEFE) (hptp : ptpFrame ty (rest.take (rest.length - 4)) = false) :
    execRxFrame p sub bytes host s =
      .next ((s.count (pgPort p) Reg.PORT_TALLY_RX 1).count (pgPort p) Reg.PORT_TALLY_OTHER 1) := by
  rw [execRxFrame, if_neg (by simp [hserv, hsafe, hp]), if_neg (by simpa [rxBad] using hgood), hparse]
  dsimp only
  rw [if_neg hty, if_neg (by simp [hptp])]

theorem execRxFrame_ptp (hty : ty ≠ 0xAEFE) (hptp : ptpFrame ty (rest.take (rest.length - 4)) = true)
    (htime : s.serving pgTime = true) :
    execRxFrame p sub bytes host s = .next ((s.count (pgPort p) Reg.PORT_TALLY_RX 1).ptpRx p (s.airtime + sub % 4)
      (bytes.take (bytes.length - 4)) host) := by
  rw [execRxFrame, if_neg (by simp [hserv, hsafe, hp]), if_neg (by simpa [rxBad] using hgood), hparse]
  dsimp only
  rw [if_neg hty, if_pos ⟨hptp, (serving_time_count_port s 1 hp (by decide)).trans htime⟩]
  rfl

end RxFrame

/-- Without a receive ring, a frame for the time base is dropped (R462). -/
theorem ptpRx_noRing {s : State} (p t : Nat) (fr host : List Byte) (h : s.fld pgTime Reg.TB_PTP_SIZE 0 12 = 0) :
    s.ptpRx p t fr host = s.count pgTime Reg.TB_TALLY_PTPDROP 1 :=
  if_pos (.inl h)

/-! ### A framer takes a frame (R442) -/

/-- A frame joins those that wait for the framer, counted on its flow. -/
def framerTook (s : State) (f : Nat) (m : InFrame) : State :=
  let u := s.flowTally f m.flow 4 1
  u.setFramer f { u.framer f with inbox := (u.framer f).inbox ++ [m] }

theorem framerRx_uPlane {s : State} {f p n : Nat} (t : Nat) {vid : Option Nat} (peer : Nat) {m : List Byte} (hok : ecpriOk m = true)
    (hty : ecpriType m = 0)
    (hflow : ((s.framer f).portFlows p).find? (fun j =>
      let fl := (s.framer f).flow j
      !flDown fl && !flCplane fl && flEaxc fl == numBe ((ecpriBody m).take 2) && (!flVlan fl || vid == some (flVid fl))) = some n) :
    s.framerRx f p t vid peer m = framerTook s f ⟨p, t, n, peer, m⟩ := by
  unfold State.framerRx
  dsimp only
  rw [if_neg (by simp [hok, hty]), if_neg (by simp [hty]), hflow]
  exact if_neg (by simp [hty])

theorem framerTook_frame (s : State) (f : Nat) (m : InFrame) :
    ((framerTook s f m).framer f).inbox = (s.framer f).inbox ++ [m] ∧ ((framerTook s f m).framer f).syms = (s.framer f).syms := by
  rw [framerTook, framer_setFramer_same, framer_flowTally]
  exact ⟨rfl, rfl⟩

/-! ### Frames judged by their receive stamp (R442, R444) -/

/-- The oldest frame that waits for a framer is taken out. -/
def headTaken (s : State) (f : Nat) (rest : List InFrame) : State := s.setFramer f { s.framer f with inbox := rest }

theorem framer_headTaken (s : State) (f : Nat) (rest : List InFrame) :
    (headTaken s f rest).framer f = { s.framer f with inbox := rest } :=
  framer_setFramer_same ..

/-- The oldest frame, if it is a U-plane message, is taken out and judged. -/
theorem execUPlaneFrame_head {s : State} {f : Nat} {m : InFrame} {rest : List InFrame} (hon : s.framerOn f = true)
    (hin : (s.framer f).inbox = m :: rest) (hty : ecpriType m.bytes = 0) :
    execUPlaneFrame f s = .next ((headTaken s f rest).uJudge f m.flow m.at_ ((ecpriBody m.bytes).drop 4)) := by
  rw [execUPlaneFrame, State.framerHead, hin]
  dsimp only
  rw [if_pos ⟨hon, hty⟩]
  rfl

/-- The carrier of a flow of a framer. -/
def flowCarrier (s : State) (f i : Nat) : List Word := (s.framer f).carrier (flCarrier ((s.framer f).flow i))

/-- A U-plane message that a framer does not drop for what it says: an uplink message of version 1, for symbol `a` of a flow and an
enabled uplink carrier that fit each other, its sections laid out as the flow has them. -/
structure UTaken (s : State) (f i t : Nat) (b : List Byte) (a : SymAt) (secs : List (Nat × Nat × List Byte)) (short : Bool) : Prop where
  version : bitsOf (b.getD 0 0).toNat 4 3 = 1
  uplink : bitsOf (b.getD 0 0).toNat 7 1 = 0
  fits : flowFits ((s.framer f).flow i) (flowCarrier s f i) = true
  enabled : flCarrier ((s.framer f).flow i) ∈ (s.framer f).carrierOn
  receives : caDown (flowCarrier s f i) = false
  parsed : s.uParse ((s.framer f).flow i) (flowCarrier s f i) t b = (some a, secs, true, short)

theorem flowCarrier_headTaken (s : State) (f i : Nat) (rest : List InFrame) :
    flowCarrier (headTaken s f rest) f i = flowCarrier s f i := by
  rw [flowCarrier, framer_headTaken]
  rfl

theorem UTaken.of_head {s : State} {f i t : Nat} {b : List Byte} {a : SymAt} {secs : List (Nat × Nat × List Byte)} {short : Bool}
    (h : UTaken s f i t b a secs short) (rest : List InFrame) : UTaken (headTaken s f rest) f i t b a secs short where
  version := h.version
  uplink := h.uplink
  fits := by rw [flowCarrier_headTaken, framer_headTaken]; exact h.fits
  enabled := by rw [framer_headTaken]; exact h.enabled
  receives := by rw [flowCarrier_headTaken]; exact h.receives
  parsed := by rw [flowCarrier_headTaken, framer_headTaken]; exact h.parsed

/-- The receive stamp alone decides what becomes of such a message. -/
theorem uJudge_taken {s : State} {f i t : Nat} {b : List Byte} {a : SymAt} {secs : List (Nat × Nat × List Byte)} {short : Bool}
    (h : UTaken s f i t b a secs short) :
    s.uJudge f i t b =
      let ca := flowCarrier s f i
      let x := s.framer f
      let early := s.flowTally f i 5 1
      if (t : Int) < a.start + caWinStart ca - (s.fld (pgFrm f) Reg.FRM_EARLY 0 24 : Nat) then
        (early.count (pgFrm f) Reg.FRM_TALLY_EARLYDROP 1).antLost f i a.start
      else if (t : Int) < a.start + caWinStart ca then
        if (x.early.map fun e => e.bytes.length).foldl (· + ·) 0 + b.length > 262144 then
          (s.count (pgFrm f) Reg.FRM_TALLY_EARLYDROP 1).antLost f i a.start
        else early.setFramer f { early.framer f with
          early := (early.framer f).early ++ [⟨i, ((a.start : Int) + caWinStart ca).toNat, t, b⟩] }
      else if (t : Int) ≤ a.start + caWinEnd ca then s.uProcess f i a secs short
      else (s.flowTally f i 6 1).count (pgFrm f) Reg.FRM_TALLY_LATE 1 := by
  obtain ⟨hver, hup, hfit, hcar, hdown, hparse⟩ := h
  unfold flowCarrier at *
  unfold State.uJudge
  dsimp only
  rw [hver, hup, hparse, if_neg (by simp [hfit]), if_neg (by simp [hcar, hdown])]

/-- The first held frame whose window has opened is taken out and processed. -/
theorem execEarlyRelease_open {s : State} {f : Nat} {e : EarlyFrame} {a : SymAt} {secs : List (Nat × Nat × List Byte)} {ok short : Bool}
    (hon : s.framerOn f = true) (he : (s.framer f).early.find? (fun e => decide (e.openAt ≤ s.airtime)) = some e)
    (hparse : (s.setFramer f { s.framer f with early := (s.framer f).early.erase e }).uParse ((s.framer f).flow e.flow)
      ((s.framer f).carrier (flCarrier ((s.framer f).flow e.flow))) e.at_ e.bytes = (some a, secs, ok, short)) :
    execEarlyRelease f s =
      .next ((s.setFramer f { s.framer f with early := (s.framer f).early.erase e }).uProcess f e.flow a secs short) := by
  unfold execEarlyRelease
  dsimp only
  rw [if_neg (by simp [hon]), he]
  dsimp only
  rw [hparse]

end Sys2Proof.Machine
end

section
/-!
PROOF. Symbols whose window closes, symbols complete, and staging notices (R54, R445, R447).
-/
namespace Sys2Proof.Machine
open Sys2Proof.Safety

/-! ### Symbols of a framer (R445) -/

theorem carrier_start_of_sym? {x : FramerSt} {c start : Nat} {y : SymSt} (h : x.sym? c start = some y) :
    y.carrier = c ∧ y.start = start := by
  simpa using List.find?_some h

/-- A change of a symbol that keeps its carrier and its start is what a look-up of the symbol finds. -/
theorem sym?_updSym {s : State} {f c start : Nat} {y : SymSt} {g : SymSt → SymSt} (h : (s.framer f).sym? c start = some y)
    (hg : ∀ z, (g z).carrier = z.carrier ∧ (g z).start = z.start) :
    ((s.updSym f c start g).framer f).sym? c start = some (g y) := by
  have hsame : (fun z : SymSt => z.carrier == c && z.start == start) ∘ (fun z => if z.carrier = c ∧ z.start = start then g z else z) =
      fun z => z.carrier == c && z.start == start := by
    funext z
    simp only [Function.comp]
    split
    · rw [(hg z).1, (hg z).2]
    · rfl
  rw [framer_updSym, FramerSt.sym?, List.find?_map, hsame, show (s.framer f).syms.find? _ = some y from h, Option.map_some,
    if_pos (carrier_start_of_sym? h)]

/-- Taking a half leaves the symbols, the tables and memory alone. -/
theorem claimUp_keeps (s : State) (f c : Nat) (y : SymSt) : ((s.claimUp f c y).1.framer f).syms = (s.framer f).syms ∧
    ((s.claimUp f c y).1.framer f).carriers = (s.framer f).carriers ∧ (s.claimUp f c y).1.mem = s.mem := by
  unfold State.claimUp
  dsimp only
  split
  · split
    · exact ⟨rfl, rfl, rfl⟩
    · split
      · exact ⟨rfl, rfl, rfl⟩
      · rw [framer_setFramer_same]
        exact ⟨rfl, rfl, rfl⟩
  · rw [framer_setFramer_same]
    exact ⟨rfl, rfl, rfl⟩

/-- Zeros are written for the missing PRBs of a symbol, if it holds its half. -/
def zeroFilled (s : State) (f : Nat) (y : SymSt) : State :=
  let ca := (s.framer f).carrier y.carrier
  match s.claimUp f y.carrier y with
  | (s', true) => ((s.framer f).missing y).foldl
      (fun (s : State) (p : Nat × Nat) => (s.write (caAddr ca (y.sym % 2) p.1 p.2) (List.replicate (caPrbBytes ca) 0)).1) s'
  | (s', false) => s'

theorem closeSym_eq (s : State) (f : Nat) (y : SymSt) : s.closeSym f y =
    ((zeroFilled s f y).carrierTally f y.carrier 8 ((s.framer f).missing y).length).updSym f y.carrier y.start fun z =>
      { z with got := z.got.filter fun p => !((s.framer f).missing y).contains p, closed := some ((s.framer f).missing y).length } :=
  rfl

theorem zeroFilled_keeps (s : State) (f : Nat) (y : SymSt) : ((zeroFilled s f y).framer f).syms = (s.framer f).syms ∧
    ((zeroFilled s f y).framer f).carriers = (s.framer f).carriers ∧ ((s.framer f).missing y = [] → (zeroFilled s f y).mem = s.mem) := by
  obtain ⟨hsyms, hcars, hmem⟩ := claimUp_keeps s f y.carrier y
  unfold zeroFilled
  dsimp only
  split
  · next s' heq =>
    rw [heq] at hsyms hcars hmem
    rw [foldl_keeps (State.framer · f) (fun s _ => framer_write s _ _ f)]
    exact ⟨hsyms, hcars, fun hnone => by rw [hnone]; exact hmem⟩
  · next s' heq =>
    rw [heq] at hsyms hcars hmem
    exact ⟨hsyms, hcars, fun _ => hmem⟩

section Symbol
variable {s : State} {f c start : Nat} {y : SymSt} (hon : s.framerOn f = true) (hy : (s.framer f).sym? c start = some y)
include hon hy

theorem execRxWindowClose_over (hposted : y.posted = false) (hopen : y.closed = none)
    (hover : y.start + caWinEnd ((s.framer f).carrier c) ≤ s.airtime) : execRxWindowClose f c start s = .next (s.closeSym f y) := by
  rw [execRxWindowClose, if_neg (by simp [hon]), hy]
  exact if_neg (by simp [hposted, hopen]; omega)

theorem execRxWindowClose_early (hopen : s.airtime < y.start + caWinEnd ((s.framer f).carrier c)) :
    execRxWindowClose f c start s = .next s := by
  rw [execRxWindowClose, if_neg (by simp [hon]), hy]
  exact if_pos (.inr (.inr hopen))

theorem execSymbolComplete_lacking (hopen : y.closed = none) (hlack : ¬∀ p ∈ y.want, p ∈ y.got) :
    execSymbolComplete f c start s = .next s := by
  rw [execSymbolComplete, if_neg (by simp [hon]), hy]
  exact if_pos (.inr (.inl (by simpa [hopen] using hlack)))

end Symbol

/-- The symbol is marked posted, and symbols posted more than a frame ago are forgotten. -/
def symPosted (s : State) (f c start : Nat) (y : SymSt) : State :=
  let t := s.updSym f c start fun z => { z with closed := some (y.closed.getD 0), posted := true }
  t.setFramer f { t.framer f with
    syms := (t.framer f).syms.filter fun z => !(z.posted && decide (z.start + tcFrame < t.airtime)) }

theorem execSymbolComplete_done {s : State} {f c start : Nat} {y : SymSt} (hon : s.framerOn f = true)
    (hy : (s.framer f).sym? c start = some y) (hposted : y.posted = false)
    (hdone : y.closed.isSome = true ∨ ∀ p ∈ y.want, p ∈ y.got)
    (hreqs : (s.framerReqs f).any (fun r => r.carrier == c && r.start == start) = false) :
    execSymbolComplete f c start s = .next ((symPosted s f c start y).publish 0x02 f
      (w32 (0x50 * 2 ^ 24 + c % 64 * 2 ^ 18 + y.sym % 16 * 2 ^ 14 + min (y.closed.getD 0) 16383)) (s.owner (pgFrm f))) := by
  have hdone' : (y.closed.isSome || y.want.all y.got.contains) = true := by simpa using hdone
  rw [execSymbolComplete, if_neg (by simp [hon]), hy]
  exact if_neg (by rw [hposted, hdone', hreqs]; decide)

theorem posted_symPosted {s : State} {f c start : Nat} {y z : SymSt} (h : ((symPosted s f c start y).framer f).sym? c start = some z) :
    z.posted = true := by
  obtain ⟨hc, hs⟩ := carrier_start_of_sym? h
  have hz := List.mem_of_find?_eq_some h
  rw [symPosted, framer_setFramer_same, framer_updSym] at hz
  obtain ⟨u, -, rfl⟩ := List.mem_map.1 (List.mem_filter.1 hz).1
  by_cases hu : u.carrier = c ∧ u.start = start
  · rw [if_pos hu]
  · rw [if_neg hu] at hc hs
    exact absurd ⟨hc, hs⟩ hu

/-! ### Notices (R447) -/

theorem carrier_half_of_half {x : FramerSt} {c h : Nat} {y : HalfSt} (hy : x.half c h = some y) : y.carrier = c ∧ y.half = h := by
  simpa using List.find?_some hy

theorem half_setHalf (x : FramerSt) (y : HalfSt) : (x.setHalf y).half y.carrier y.half = some y := by
  simp [FramerSt.half, FramerSt.setHalf]

/-- A notice for an uplink symbol that holds its half is counted; the last one frees the half. -/
theorem framerNotice_uplink {s : State} {f c : Nat} {y : HalfSt} (hcar : c ∈ (s.framer f).carrierOn)
    (hdown : caDown ((s.framer f).carrier c) = false) (hy : (s.framer f).half c (y.sym % 2) = some y) (hfull : y.full = true) :
    s.framerNotice f c y.slot y.sym = s.setFramer f ((s.framer f).setHalf { y with
      notices := y.notices + 1
      full := decide (y.notices + 1 < caNotices ((s.framer f).carrier c)) }) := by
  unfold State.framerNotice
  dsimp only
  rw [if_neg (by simpa using hcar), if_pos (by simp [hdown]), hy]
  exact if_neg (by simp [hfull])

end Sys2Proof.Machine

namespace Sys2Proof.Proofs
open Sys2Proof Sys2Proof.Machine Sys2Proof.Safety

/-! ### Frames received -/

/-- A U-plane message goes to the framer that holds the port's logical identity, with its receive stamp. -/
theorem rxFrame_uPlane {s : State} {p f n ty : Nat} (sub : Nat) {bytes : List Byte} (host : List Byte) {vid : Option Nat}
    {rest : List Byte} (hp : p < 64) (hserv : s.serving (pgPort p) = true) (hsafe : s.mode ≠ modeSafe) (hgood : ¬rxBad s p bytes)
    (hparse : ethParse bytes = some (vid, ty, rest)) (hty : ty = 0xAEFE) (hq : s.quiet = false)
    (hf : s.framerAs (s.fld (pgPort p) Reg.PORT_CFG 5 4) = some f) (hok : ecpriOk (rest.take (rest.length - 4)) = true)
    (hu : ecpriType (rest.take (rest.length - 4)) = 0)
    (hflow : ((s.framer f).portFlows p).find? (fun j =>
      let fl := (s.framer f).flow j
      !flDown fl && !flCplane fl && flEaxc fl == numBe ((ecpriBody (rest.take (rest.length - 4))).take 2) &&
        (!flVlan fl || vid == some (flVid fl))) = some n) :
    Runs (.rxFrame p sub bytes host) s fun t =>
      (t.framer f).inbox = (s.framer f).inbox ++
        [⟨p, s.airtime + sub % 4, n, numBe ((bytes.drop 6).take 6), rest.take (rest.length - 4)⟩] ∧
      (t.framer f).syms = (s.framer f).syms ∧
      t.reg (pgPort p) Reg.PORT_TALLY_RX = tallied (s.reg (pgPort p) Reg.PORT_TALLY_RX) 1 ∧ t.mem = s.mem := by
  have hrun := execRxFrame_ecpri sub host hp hserv hsafe hgood hparse hty hq hf
  rw [framerRx_uPlane (s := s.count (pgPort p) Reg.PORT_TALLY_RX 1) _ _ hok hu hflow] at hrun
  obtain ⟨hinbox, hsyms⟩ := framerTook_frame (s.count (pgPort p) Reg.PORT_TALLY_RX 1) f
    ⟨p, s.airtime + sub % 4, n, numBe ((bytes.drop 6).take 6), rest.take (rest.length - 4)⟩
  exact ⟨_, hrun, hinbox, hsyms, reg_count .., rfl⟩

/-- A tally of the port beside that of the frames received counts one up. -/
theorem reg_count_count (s : State) (p : Page) {x o : Nat} (h : o ≠ x) :
    ((s.count p x 1).count p o 1).reg p o = tallied (s.reg p o) 1 := by
  rw [reg_count, State.count, State.tally, State.setFld, reg_setReg_ne _ _ _ h]

theorem rxFrame_ptpDrop {s : State} {p ty : Nat} (sub : Nat) {bytes : List Byte} (host : List Byte) {vid : Option Nat}
    {rest : List Byte} (hp : p < 64) (hserv : s.serving (pgPort p) = true) (hsafe : s.mode ≠ modeSafe) (hgood : ¬rxBad s p bytes)
    (hparse : ethParse bytes = some (vid, ty, rest)) (hty : ty ≠ 0xAEFE)
    (hptp : ptpFrame ty (rest.take (rest.length - 4)) = true) (htime : s.serving pgTime = true)
    (hring : s.fld pgTime Reg.TB_PTP_SIZE 0 12 = 0) :
    Runs (.rxFrame p sub bytes host) s fun t => t.links = s.links ∧
      t.reg pgTime Reg.TB_TALLY_PTPDROP = tallied (s.reg pgTime Reg.TB_TALLY_PTPDROP) 1 := by
  have hring' : (s.count (pgPort p) Reg.PORT_TALLY_RX 1).fld pgTime Reg.TB_PTP_SIZE 0 12 = 0 := by
    rw [State.fld, reg_time_count_port s _ 1 hp (by decide)]
    exact hring
  have hrun := execRxFrame_ptp sub host hp hserv hsafe hgood hparse hty hptp htime
  rw [ptpRx_noRing _ _ _ _ hring'] at hrun
  refine ⟨_, hrun, rfl, ?_⟩
  rw [reg_count, reg_time_count_port s _ 1 hp (by decide)]

section UPlane
variable {s : State} {f : Nat} {m : InFrame} {rest : List InFrame} {a : SymAt} {secs : List (Nat × Nat × List Byte)} {short : Bool}
  (hon : s.framerOn f = true) (hin : (s.framer f).inbox = m :: rest) (hty : ecpriType m.bytes = 0)
  (taken : UTaken s f m.flow m.at_ ((ecpriBody m.bytes).drop 4) a secs short)
include hon hin hty taken

theorem uPlaneFrame_inWindow (hlo : a.start + caWinStart (flowCarrier s f m.flow) ≤ m.at_)
    (hhi : m.at_ ≤ a.start + caWinEnd (flowCarrier s f m.flow)) :
    Gives (.uPlaneFrame f) s ((headTaken s f rest).uProcess f m.flow a secs short) := by
  have hrun := execUPlaneFrame_head hon hin hty
  rwa [uJudge_taken (taken.of_head rest), flowCarrier_headTaken, if_neg (by omega), if_neg (by omega), if_pos hhi] at hrun

theorem uPlaneFrame_late (hlo : a.start + caWinStart (flowCarrier s f m.flow) ≤ m.at_)
    (hhi : a.start + caWinEnd (flowCarrier s f m.flow) < m.at_) :
    Gives (.uPlaneFrame f) s (((headTaken s f rest).flowTally f m.flow 6 1).count (pgFrm f) Reg.FRM_TALLY_LATE 1) := by
  have hrun := execUPlaneFrame_head hon hin hty
  rwa [uJudge_taken (taken.of_head rest), flowCarrier_headTaken, if_neg (by omega), if_neg (by omega), if_neg (by omega)] at hrun

/-- A frame before its window, by no more than the early margin, is held until the window opens. -/
theorem uPlaneFrame_early (hlo : m.at_ < a.start + caWinStart (flowCarrier s f m.flow))
    (hmargin : a.start + caWinStart (flowCarrier s f m.flow) ≤ m.at_ + ((headTaken s f rest).fld (pgFrm f) Reg.FRM_EARLY 0 24 : Nat))
    (hnone : (s.framer f).early = []) (hlen : ((ecpriBody m.bytes).drop 4).length ≤ 262144) :
    Runs (.uPlaneFrame f) s fun t =>
      (t.framer f).early = [⟨m.flow, (a.start + caWinStart (flowCarrier s f m.flow)).toNat, m.at_, (ecpriBody m.bytes).drop 4⟩] ∧
      (t.framer f).inbox = rest ∧ t.mem = s.mem ∧ t.dmaLines = s.dmaLines := by
  have hrun := execUPlaneFrame_head hon hin hty
  rw [uJudge_taken (taken.of_head rest), flowCarrier_headTaken, if_neg (by omega), if_pos hlo,
    if_neg (by simpa [framer_headTaken, hnone] using hlen)] at hrun
  refine ⟨_, hrun, ?_, ?_, rfl, rfl⟩
  · rw [framer_setFramer_same, framer_flowTally, framer_headTaken, hnone]
    rfl
  · rw [framer_setFramer_same, framer_flowTally, framer_headTaken]

end UPlane

theorem rxWindowClose_closes {s : State} {f c start : Nat} {y : SymSt} (hon : s.framerOn f = true)
    (hy : (s.framer f).sym? c start = some y) (hposted : y.posted = false) (hopen : y.closed = none)
    (hover : y.start + caWinEnd ((s.framer f).carrier c) ≤ s.airtime) :
    Runs (.rxWindowClose f c start) s fun t =>
      (t.framer f).sym? c start = some { y with
        got := y.got.filter fun p => !((s.framer f).missing y).contains p
        closed := some ((s.framer f).missing y).length } ∧
      ((s.framer f).missing y = [] → t.mem = s.mem) ∧
      ((t.framer f).carrier c).getD 8 0 = (if ((s.framer f).carrier c).length ≤ 8 then 0
        else tallied (((s.framer f).carrier c).getD 8 0) ((s.framer f).missing y).length) := by
  obtain ⟨rfl, rfl⟩ := carrier_start_of_sym? hy
  obtain ⟨hsyms, hcars, hmem⟩ := zeroFilled_keeps s f y
  have hrun := execRxWindowClose_over hon hy hposted hopen hover
  rw [closeSym_eq] at hrun
  refine ⟨_, hrun, sym?_updSym ?_ fun z => ⟨rfl, rfl⟩, hmem, ?_⟩
  · rw [framer_carrierTally, FramerSt.sym?, hsyms]
    exact hy
  · have hcar : ((zeroFilled s f y).framer f).carrier y.carrier = (s.framer f).carrier y.carrier := by
      rw [FramerSt.carrier, hcars, FramerSt.carrier]
    rw [framer_updSym, framer_carrierTally, FramerSt.carrier, lookupD_insertKey, if_pos rfl, getD_bumpWord, hcar]

theorem symbolComplete_posts {s : State} {f c start : Nat} {y : SymSt} (hon : s.framerOn f = true)
    (hy : (s.framer f).sym? c start = some y) (hposted : y.posted = false)
    (hdone : y.closed.isSome = true ∨ ∀ p ∈ y.want, p ∈ y.got)
    (hreqs : (s.framerReqs f).any (fun r => r.carrier == c && r.start == start) = false) :
    Runs (.symbolComplete f c start) s fun t =>
      t.fab.evs = s.fab.evs ++ [⟨evWord 0x02 f (lookupD 0 (2 * 4096 + f) s.fab.seqs) (BitVec.ofNat 32
        (0x50 * 2 ^ 24 + c % 64 * 2 ^ 18 + y.sym % 16 * 2 ^ 14 + min (y.closed.getD 0) 16383)), .published (s.owner (pgFrm f))⟩] ∧
      (∀ z, (t.framer f).sym? c start = some z → z.posted = true) ∧ t.mem = s.mem ∧ t.dmaLines = s.dmaLines :=
  ⟨_, execSymbolComplete_done hon hy hposted hdone hreqs, rfl, fun _ hz => posted_symPosted hz, rfl, rfl⟩

theorem stagingNotice_counts {s : State} {n : Nat} {m : Notice} {y : HalfSt} (hm : s.links.notices[n]? = some m)
    (hon : s.framerOn m.framer = true) (hcar : m.carrier ∈ (s.framer m.framer).carrierOn)
    (hdown : caDown ((s.framer m.framer).carrier m.carrier) = false)
    (hy : (s.framer m.framer).half m.carrier (m.sym % 2) = some y) (hfull : y.full = true) (hslot : y.slot = m.slot)
    (hsym : y.sym = m.sym) :
    Runs (.stagingNotice n) s fun t => t.links.notices = s.links.notices.eraseIdx n ∧
      (t.framer m.framer).half m.carrier (m.sym % 2) = some { y with
        notices := y.notices + 1
        full := decide (y.notices + 1 < caNotices ((s.framer m.framer).carrier m.carrier)) } ∧ t.mem = s.mem := by
  obtain ⟨hc, hh⟩ := carrier_half_of_half hy
  have hrun : execStagingNotice n s = .next
      (({ s with links := { s.links with notices := s.links.notices.eraseIdx n } } : State).framerNotice m.framer m.carrier m.slot m.sym) := by
    rw [execStagingNotice, hm]
    exact congrArg _ (if_pos hon)
  rw [← hslot, ← hsym, framerNotice_uplink (s := { s with links := { s.links with notices := s.links.notices.eraseIdx n } }) hcar hdown
    (hsym ▸ hy) hfull] at hrun
  refine ⟨_, hrun, rfl, ?_, rfl⟩
  rw [framer_setFramer_same, ← hc, ← hh]
  exact half_setHalf ..

/-- Settles O43, command by command: the MAC's tallies and hand-over, the judgement by the receive stamp (`uJudge_taken`), frames
held and released, the end of a window, the event of a symbol, and notices. -/
theorem framerReceive : Obligations.FramerReceive := by
  refine ⟨fun s p sub bytes host hp hserv hsafe => ⟨?_, ?_, ?_⟩, ?_, ?_, ?_, ?_⟩
  · exact fun hbad => execRxFrame_bad sub host hp hserv hsafe hbad
  · exact fun hgood hparse => execRxFrame_twoTags sub host hp hserv hsafe hgood hparse
  · intro vid ty rest hgood hparse
    refine ⟨?_, ?_, ?_, ?_⟩
    · exact fun f n hty hq hf hok hu hflow => rxFrame_uPlane sub host hp hserv hsafe hgood hparse hty hq hf hok hu hflow
    · exact fun hty hf => ⟨_, execRxFrame_noFramer sub host hp hserv hsafe hgood hparse hty hf, rfl,
        reg_count_count _ _ (by decide)⟩
    · exact fun hty hptp => ⟨_, execRxFrame_other sub host hp hserv hsafe hgood hparse hty hptp, rfl, reg_count_count _ _ (by decide)⟩
    · exact fun hty hptp htime hring => rxFrame_ptpDrop sub host hp hserv hsafe hgood hparse hty hptp htime hring
  · intro s f m rest a secs short hon hin hty x u fl ca b open_ hver hup hfit hcar hdown hparse
    have taken : UTaken s f m.flow m.at_ b a secs short := ⟨hver, hup, hfit, hcar, hdown, hparse⟩
    exact ⟨uPlaneFrame_inWindow hon hin hty taken, uPlaneFrame_late hon hin hty taken, uPlaneFrame_early hon hin hty taken⟩
  · exact fun s f e a secs ok short hon he hparse => execEarlyRelease_open hon he hparse
  · intro s f c start y hon hy hposted
    exact ⟨rxWindowClose_closes hon hy hposted, execRxWindowClose_early hon hy, execSymbolComplete_lacking hon hy,
      symbolComplete_posts hon hy hposted⟩
  · exact fun s n m y hm hon hcar hdown hy hfull hslot hsym => stagingNotice_counts hm hon hcar hdown hy hfull hslot hsym

end Sys2Proof.Proofs
end

section
/-!
PROOF. The element-wise operations of slot V on the integer types (R110, R117, R118, R120): each is one integer function of its
operands' elements, narrowed to the element width.
-/
namespace Sys2Proof.Machine

/-! ### Two's complement and narrowing (R19, R117) -/

theorem two_pow_pos_int (n : Nat) : (0 : Int) < 2 ^ n := Int.pow_pos (by decide)

theorem sx_mem_range {n : Nat} (hn : 0 < n) (x : Nat) : -(2 ^ (n - 1) : Int) ≤ sx n x ∧ sx n x ≤ 2 ^ (n - 1) - 1 := by
  obtain ⟨m, rfl⟩ := Nat.exists_eq_add_of_lt hn
  have hlt : x % 2 ^ (0 + m + 1) < 2 ^ (0 + m + 1) := Nat.mod_lt _ (Nat.two_pow_pos _)
  have hcast : ((2 ^ m : Nat) : Int) = 2 ^ m := Int.natCast_pow 2 m
  simp only [sx, Nat.zero_add, Nat.add_sub_cancel, Nat.pow_succ, Int.pow_succ] at hlt ⊢
  split <;> omega

/-- The pattern of a number's two's-complement reading is the number's low bits. -/
theorem pat_sx (n x : Nat) : pat n (sx n x) = x % 2 ^ n := by
  have hcast : ((2 ^ n : Nat) : Int) = 2 ^ n := Int.natCast_pow 2 n
  have hmod : sx n x % (2 ^ n : Int) = ((x % 2 ^ n : Nat) : Int) := by
    dsimp only [sx]
    split
    · rw [Int.sub_emod_right, ← hcast, ← Int.natCast_emod, Nat.mod_mod]
    · rw [← hcast, ← Int.natCast_emod, Nat.mod_mod]
  rw [pat, hmod, Int.toNat_natCast]

theorem pat_lt (n : Nat) (y : Int) : pat n y < 2 ^ n := by
  have hlt := Int.emod_lt_of_pos y (two_pow_pos_int n)
  have hnonneg := Int.emod_nonneg y (Int.ne_of_gt (two_pow_pos_int n))
  have hcast : ((2 ^ n : Nat) : Int) = 2 ^ n := Int.natCast_pow 2 n
  rw [pat]
  omega

theorem pat_sx_pat (n : Nat) (y : Int) : pat n (sx n (pat n y)) = pat n y := by
  rw [pat_sx, Nat.mod_eq_of_lt (pat_lt n y)]

/-- Narrowing keeps the low bits with WRAP on and the nearer bound with WRAP off; SATF is due exactly out of range. -/
theorem npat_eq_clamp (wrap : Bool) (n : Nat) (y : Int) :
    npat wrap n y = (pat n (if wrap then y else max (-(2 ^ (n - 1) : Int)) (min (2 ^ (n - 1) - 1) y)),
      decide (y < -(2 ^ (n - 1) : Int)) || decide (2 ^ (n - 1) - 1 < y)) := by
  have hpos := two_pow_pos_int (n - 1)
  by_cases hlo : y < -(2 ^ (n - 1) : Int)
  · have hclamp : max (-(2 ^ (n - 1) : Int)) (min (2 ^ (n - 1) - 1) y) = -(2 ^ (n - 1) : Int) := by omega
    rw [npat, narrow, if_pos hlo, hclamp, decide_eq_true hlo, Bool.true_or]
    cases wrap
    · rfl
    · exact congrArg (·, true) (pat_sx_pat n y)
  · by_cases hhi : (2 ^ (n - 1) : Int) - 1 < y
    · have hclamp : max (-(2 ^ (n - 1) : Int)) (min (2 ^ (n - 1) - 1) y) = 2 ^ (n - 1) - 1 := by omega
      rw [npat, narrow, if_neg hlo, if_pos hhi, hclamp, decide_eq_true hhi, Bool.or_true]
      cases wrap
      · rfl
      · exact congrArg (·, true) (pat_sx_pat n y)
    · have hclamp : max (-(2 ^ (n - 1) : Int)) (min (2 ^ (n - 1) - 1) y) = y := by omega
      rw [npat, narrow, if_neg hlo, if_neg hhi, hclamp, decide_eq_false hlo, decide_eq_false hhi, ite_self, Bool.or_false]

/-- The reading of an `n`-bit pattern is in range: narrowing gives the pattern back and nothing saturates. -/
theorem npat_sx (wrap : Bool) {n : Nat} (hn : 0 < n) {x : Nat} (hx : x < 2 ^ n) : npat wrap n (sx n x) = (x, false) := by
  obtain ⟨hlo, hhi⟩ := sx_mem_range hn x
  rw [npat, narrow, if_neg (Int.not_lt.mpr hlo), if_neg (Int.not_lt.mpr hhi), pat_sx, Nat.mod_eq_of_lt hx]

/-- The pattern that vmin keeps of two elements (R120) is that of the smaller reading. -/
theorem npat_min_sx (wrap : Bool) {n : Nat} (hn : 0 < n) {x y : Nat} (hx : x < 2 ^ n) (hy : y < 2 ^ n) :
    (if sx n y < sx n x then y else x, false) = npat wrap n (min (sx n x) (sx n y)) := by
  split
  next h => rw [Int.min_eq_right (Int.le_of_lt h), npat_sx wrap hn hy]
  next h => rw [Int.min_eq_left (Int.not_lt.mp h), npat_sx wrap hn hx]

/-- The pattern that vmax keeps of two elements (R120) is that of the larger reading. -/
theorem npat_max_sx (wrap : Bool) {n : Nat} (hn : 0 < n) {x y : Nat} (hx : x < 2 ^ n) (hy : y < 2 ^ n) :
    (if sx n x < sx n y then y else x, false) = npat wrap n (max (sx n x) (sx n y)) := by
  split
  next h => rw [Int.max_eq_right (Int.le_of_lt h), npat_sx wrap hn hy]
  next h => rw [Int.max_eq_left (Int.not_lt.mp h), npat_sx wrap hn hx]

/-! ### Elements of integer operands (R107, R109, R110) -/

theorem getElem_lt (c : Core) (regs : List Nat) (s i : Nat) : getElem c regs s i < 2 ^ s := bitsOf_lt ..

theorem etBits_pos (et : Nat) : 0 < etBits et := by
  unfold etBits
  split <;> decide

theorem etBits_of_int {et : Nat} (h : et ≤ 2) : etBits et = 8 * 2 ^ et := by
  match et with
  | 0 | 1 | 2 => rfl

theorem etCap_of_int {et : Nat} (long : Bool) (h : et ≤ 2) : etCap long et = (if long then 2048 else 512) / (8 * 2 ^ et) := by
  rw [etCap, if_neg (by omega), etBits_of_int h]

theorem isIntT_of_le {et : Nat} (h : et ≤ 2) : isIntT et = true := decide_eq_true h

/-- An integer type that the operation lists passes the checks of R112 when the long operands are aligned (R136). -/
theorem vGuard_of_int {c : Core} {long : Bool} {ops : List Grp} {types : List Nat} (k : Except OpFault OpOut) (he : vET c ≤ 2)
    (ht : ∀ e ≤ 2, e ∈ types) (ha : long = true → ∀ G ∈ ops, G.toNat % 4 = 0) : vGuard c long ops types k = k := by
  refine if_neg ?_
  rintro (h | h | ⟨h, -⟩ | ⟨hl, h⟩)
  · omega
  · exact h (List.contains_iff_mem.mpr (ht _ he))
  · omega
  · obtain ⟨G, hG, hne⟩ := List.any_eq_true.mp h
    exact of_decide_eq_true hne (ha hl G hG)

/-- Element `i` of an operand, read as an integer of the element width. -/
def intElem (c : Core) (long : Bool) (G : Grp) (i : Nat) : Int :=
  sx (etBits (vET c)) (getElem c (grpRegs c long G) (etBits (vET c)) i)

/-- The writes of an operation whose effective element `i` is `f i`, narrowed to the element width. -/
def intOut (c : Core) (long : Bool) (vd : Grp) (f : Nat → Int) : OpOut :=
  vOut (grpRegs c long vd) (etBits (vET c))
    ((List.range (effCount c long [vET c])).map fun i => (i, npat (vWrap c) (etBits (vET c)) (f i)))

theorem vBin_eq_intOut {c : Core} {f : Nat → Nat → Nat × Bool} (g : Int → Int → Int) (long : Bool) (vd va vb : Grp)
    (hf : ∀ x < 2 ^ etBits (vET c), ∀ y < 2 ^ etBits (vET c),
      f x y = npat (vWrap c) (etBits (vET c)) (g (sx (etBits (vET c)) x) (sx (etBits (vET c)) y))) :
    vBin c long vd va vb false f = intOut c long vd fun i => g (intElem c long va i) (intElem c long vb i) :=
  congrArg (vOut _ _) (List.map_congr_left fun _ _ => congrArg _ (hf _ (getElem_lt ..) _ (getElem_lt ..)))

/-! ### The operations on integer types (R120) -/

section IntegerOps
variable {c : Core} {long : Bool} {vd va vb : Grp}
  (hlong : long = true → vd.toNat % 4 = 0 ∧ va.toNat % 4 = 0 ∧ vb.toNat % 4 = 0)
include hlong

theorem aligned_binary : long = true → ∀ G ∈ vecOps false vd va vb, G.toNat % 4 = 0 := by
  intro hl
  obtain ⟨hd, ha, hb⟩ := hlong hl
  simp [vecOps, hd, ha, hb]

variable (he : vET c ≤ 2)
include he

theorem vAddSub_of_int (sub : Bool) : vAddSub c sub long vd va vb false = .ok (intOut c long vd fun i =>
    if sub then intElem c long va i - intElem c long vb i else intElem c long va i + intElem c long vb i) := by
  rw [vAddSub, vGuard_of_int _ he (by decide) (aligned_binary hlong), if_pos (isIntT_of_le he)]
  exact congrArg _ (vBin_eq_intOut (fun x y => if sub then x - y else x + y) _ _ _ _ fun _ _ _ _ => rfl)

theorem vMulOp_of_int : vMulOp c long vd va vb false false = .ok (intOut c long vd fun i =>
    rnd (vTrunc c) (intElem c long va i * intElem c long vb i) (etBits (vET c) - 1)) := by
  rw [vMulOp, vGuard_of_int _ he (by decide) (aligned_binary hlong), if_pos (isIntT_of_le he)]
  exact congrArg _ (vBin_eq_intOut (fun x y => rnd (vTrunc c) (x * y) _) _ _ _ _ fun _ _ _ _ => rfl)

theorem vMin_of_int : vMinMax c false long vd va vb false = .ok (intOut c long vd fun i =>
    min (intElem c long va i) (intElem c long vb i)) := by
  rw [vMinMax, vGuard_of_int _ he (by decide) (aligned_binary hlong), if_pos (isIntT_of_le he)]
  refine congrArg _ (vBin_eq_intOut min _ _ _ _ fun x hx y hy => ?_)
  simp only [Bool.false_eq_true, if_false, decide_eq_true_eq]
  exact npat_min_sx (vWrap c) (etBits_pos _) hx hy

theorem vMax_of_int : vMinMax c true long vd va vb false = .ok (intOut c long vd fun i =>
    max (intElem c long va i) (intElem c long vb i)) := by
  rw [vMinMax, vGuard_of_int _ he (by decide) (aligned_binary hlong), if_pos (isIntT_of_le he)]
  refine congrArg _ (vBin_eq_intOut max _ _ _ _ fun x hx y hy => ?_)
  simp only [if_true, decide_eq_true_eq]
  exact npat_max_sx (vWrap c) (etBits_pos _) hx hy

theorem vShift_of_int (left : Bool) (t : BitVec 5) : vShift c left long vd va t = .ok (intOut c long vd fun i =>
    if left then intElem c long va i * 2 ^ t.toNat else rnd (vTrunc c) (intElem c long va i) t.toNat) := by
  have hal : long = true → ∀ G ∈ [vd, va], G.toNat % 4 = 0 := by
    intro hl
    obtain ⟨hd, ha, -⟩ := hlong hl
    simp [hd, ha]
  rw [vShift, vGuard_of_int _ he (by decide) hal, if_neg (show vET c ≠ 5 by omega)]
  rfl

end IntegerOps

end Sys2Proof.Machine

namespace Sys2Proof.Proofs
open Sys2Proof Sys2Proof.Machine

/-- Settles O20, row by row of R120's table: every operation has an equation in `intOut`, whose narrowing `npat_eq_clamp` spells out
as the clamped or wrapped value and its saturation. -/
theorem integerVectorResults : Obligations.IntegerVectorResults := by
  intro c long vd va vb t he hlong w count x y lo hi out
  have hout : intOut c long vd = out := by
    funext f
    simp only [intOut, npat_eq_clamp, effCount, List.foldl, etCap_of_int long he, etBits_of_int he]
    rfl
  have helem (G : Grp) : intElem c long G = fun i => sx w (getElem c (grpRegs c long G) w i) := by
    funext i
    rw [intElem, etBits_of_int he]
  have hadd := vAddSub_of_int hlong he
  have hmul := vMulOp_of_int hlong he
  have hmin := vMin_of_int hlong he
  have hmax := vMax_of_int hlong he
  have hshift := fun left => vShift_of_int hlong he left t
  simp only [hout, helem, etBits_of_int he] at hadd hmul hmin hmax hshift
  exact ⟨hadd false, hadd true, hmin, hmax, hmul, hshift false, hshift true⟩

end Sys2Proof.Proofs
end

section
/-!
PROOF. Commands that write one register of a page: PG_IRQ_FORCE (R506), PG_OWNER with its lock (R509), GLOBAL_FREEZE (R218) and
SED_RING_r_CFG (R588).
-/
namespace Sys2Proof.Machine
open Sys2Proof.Safety

/-! ### The commands -/

theorem execPgIrqForce_page {pg : Nat} {p : Page} (hp : pageAt pg = some p) (a : Agent) (v : Word) (s : State) :
    exec (.pgIrqForce a pg v) s = .next (wordTo a p Reg.PG_IRQ_FORCE v.toNat s) := by
  rw [show exec (.pgIrqForce a pg v) s = execPgIrqForce a pg v s from rfl, execPgIrqForce, hp]

theorem execPgOwner_page {pg : Nat} {p : Page} (hp : pageAt pg = some p) (a : Agent) (v : Word) (s : State) :
    exec (.pgOwner a pg v) s = .next (wordTo a p Reg.PG_OWNER v.toNat s) := by
  rw [show exec (.pgOwner a pg v) s = execPgOwner a pg v s from rfl, execPgOwner, hp]

theorem execGlobalFreeze_inst {inst : Nat} (hi : inst < 17) (a : Agent) (v : Word) (s : State) :
    exec (.globalFreeze a inst v) s = .next (wordTo a (engPage 4 inst) Reg.FDC_DCB_CTRL v.toNat s) :=
  congrArg Host.Outcome.next (if_pos hi)

theorem execSedRingCfg_ring {r : Nat} (hr : r < 8) (a : Agent) (v : Word) (s : State) :
    exec (.sedRingCfg a r v) s = .next (wordTo a pgSed (sedOff Reg.SED_RING_CFG r) v.toNat s) :=
  congrArg Host.Outcome.next (if_pos hr)

/-- PG_IRQ_FORCE and PG_OWNER stand in the header that every page has (R506). -/
theorem rowAt_irqForce (k : PageKind) : rowAt k Reg.PG_IRQ_FORCE =
    some ⟨0x01C, 0, 1, .whole, [⟨0, 30, .w1s, 0x0, .any⟩, ⟨30, 1, .w1s, 0x0, .any⟩, ⟨31, 1, .w1s, 0x0, .any⟩]⟩ := rfl

theorem rowAt_owner (k : PageKind) : rowAt k Reg.PG_OWNER =
    some ⟨0x02C, 0, 1, .whole, [⟨0, 6, .rw, 0x0, .any⟩, ⟨6, 1, .rw, 0x0, .any⟩, ⟨8, 11, .rw, 0x0, .any⟩,
      ⟨19, 1, .rw, 0x0, .any⟩]⟩ := rfl

section WordTo
variable {s : State} {a : Agent} {p : Page} {off : Nat} {r : RegRow} (hr : rowAt p.kind off = some r) (hc : off ≠ Reg.PG_CMD)
  (ha : agTrusted a = true)
include hr hc ha

theorem wordTo_turnedAway (v : Nat) {k : Nat} (hreach : s.reaches a = true) (hk : s.turnedAway a p = some k) :
    wordTo a p off v s = s.accErr a (p.addr + off) k := by
  rw [wordTo, if_pos ⟨ha, hreach⟩, pageWrite_turnedAway v _ hr hc hk]

theorem wordTo_allowed (v : Word) (hw : r.half = .whole) (h : allowed s a p = true) :
    wordTo a p off v.toNat s = s.regPut a p off v.toNat false ⟨.ready, 0⟩ := by
  obtain ⟨hreach, ht⟩ := Bool.and_eq_true_iff.1 h
  rw [wordTo, if_pos ⟨ha, hreach⟩]
  simp only [State.pageWrite, hr, if_neg hc, Option.isNone_iff_eq_none.1 ht, hw, Nat.mod_eq_of_lt v.isLt]

end WordTo

/-! ### PG_IRQ_FORCE (R506) -/

/-- Registers at different offsets are different registers, whatever their pages. -/
theorem addr_add_ne {p q : Page} {o x : Nat} (ho : o < 0x1000) (hx : x < 0x1000) (h : o ≠ x) : p.addr + o ≠ q.addr + x := by
  simp only [Page.addr]
  omega

theorem reg_irq_stat (s : State) (p : Page) (bits : Nat) :
    (s.irq p bits).reg p Reg.PG_IRQ_STAT = s.reg p Reg.PG_IRQ_STAT ||| w32 bits := by
  rw [State.irq, reg_irqEdge _ _ _ (addr_add_ne (by decide) (by decide) (by decide)), reg_setReg_same]

/-- An interrupt changes registers and messages to the host only. -/
theorem irq_frame (s : State) (p : Page) (bits : Nat) :
    s.irq p bits = { s with regs := (s.irq p bits).regs, msix := (s.irq p bits).msix } :=
  irqEdge_frame ..

theorem reg_irqForce_stat (s : State) (p : Page) (v : Word) :
    (s.irqForce p v.toNat).reg p Reg.PG_IRQ_STAT =
      s.reg p Reg.PG_IRQ_STAT ||| (v &&& BitVec.ofNat 32 (kindIrq p.kind ||| 3 * 2 ^ 30)) := by
  rw [State.irqForce, reg_irq_stat]
  congr 1
  apply BitVec.eq_of_toNat_eq
  rw [BitVec.toNat_ofNat, BitVec.toNat_and, BitVec.toNat_ofNat, Nat.and_mod_two_pow, Nat.mod_mod, Nat.mod_eq_of_lt v.isLt]

/-! ### PG_OWNER (R509) -/

theorem ix_lt_of_kindIx {k : PageKind} {inst i : Nat} (h : kindIx k inst = some i) : i < k.count := by
  unfold kindIx at h
  split at h <;> obtain ⟨_, hi⟩ := Option.ite_none_right_eq_some.1 h <;> cases hi
  · exact Nat.div_lt_of_lt_mul (n := 2) (k := 272) (by omega)
  · exact Nat.div_lt_of_lt_mul (n := 2) (k := 272) (by omega)
  · omega

theorem ix_lt_of_pageAt {a : Nat} {p : Page} (h : pageAt a = some p) : p.ix < p.kind.count := by
  obtain ⟨k, -, hp⟩ := List.mem_filterMap.1 (List.mem_of_mem_head? (pageAt_eq_some h).2)
  obtain ⟨i, hi, rfl⟩ := Option.map_eq_some_iff.1 hp
  exact ix_lt_of_kindIx hi

/-- Kinds of page whose owner no write changes (R509, R514, R583). -/
def ownerFixed : List PageKind := [.fnPage, .device, .ward, .kaolin]

theorem owner_of_not_fixed (s : State) {p : Page} (h : p.kind ∉ ownerFixed) : s.owner p = s.fld p.home Reg.PG_OWNER 0 6 := by
  unfold State.owner
  split
  case h_5 => rfl
  all_goals exact absurd (by simp [ownerFixed, *]) h

theorem owner_lt (s : State) {p : Page} (h : p.ix < p.kind.count) : s.owner p < 2 ^ 6 := by
  unfold State.owner
  split
  · next hk => rwa [hk] at h
  · decide
  · decide
  · decide
  · exact bitsOf_lt ..

/-- Would a write of `v` change the field of PG_OWNER? -/
def State.ownerChange (s : State) (p : Page) (v lo w : Nat) : Bool :=
  bitsOf (s.headView p Reg.PG_OWNER).toNat lo w != bitsOf v lo w

theorem headView_owner (s : State) {p : Page} (hp : p.home = p) :
    s.headView p Reg.PG_OWNER = w32 (setBits (s.reg p Reg.PG_OWNER).toNat 0 6 (s.owner p)) := by
  have hview : s.headView p Reg.PG_OWNER = w32 (setBits (s.reg p.home Reg.PG_OWNER).toNat 0 6 (s.owner p.home)) := rfl
  rw [hview, hp]

theorem ownerChange_owner (s : State) {p : Page} (hp : p.home = p) (hix : p.ix < p.kind.count) (v : Nat) :
    s.ownerChange p v 0 6 = (s.owner p != bitsOf v 0 6) := by
  rw [State.ownerChange, headView_owner s hp, bitsOf_w32 (by decide), bitsOf_setBits_same, Nat.mod_eq_of_lt (owner_lt s hix)]

theorem ownerChange_lock (s : State) {p : Page} (hp : p.home = p) (v : Nat) :
    s.ownerChange p v 6 1 = (s.fld p Reg.PG_OWNER 6 1 != bitsOf v 6 1) := by
  rw [State.ownerChange, headView_owner s hp, bitsOf_w32 (by decide), bitsOf_setBits_apart (.inl (by decide)), State.fld]

section OwnerWrite
variable {s : State} {a : Agent} {p : Page} (hp : p.home = p) (ha : agTrusted a = true) (v : Nat)
include hp ha

/-- A write to PG_OWNER by the PF or Ward is judged whole: the owner of a page whose owner is fixed and that of a locked page do
not change, and the other fields change for the owner and Ward only. -/
theorem ownerWrite_eq :
    s.ownerWrite a p v =
      if s.ownerChange p v 0 6 = true ∧ p.kind ∈ ownerFixed then s.accErr a (p.addr + Reg.PG_OWNER) 2
      else if s.ownerChange p v 0 6 = true ∧ s.locked p = true then
        s.accErr a (p.addr + Reg.PG_OWNER) (if agWard a then 2 else 3)
      else if (s.ownerChange p v 6 1 ∨ s.ownerChange p v 8 11 ∨ s.ownerChange p v 19 1) ∧ s.ownsPage a p = false then
        s.accErr a (p.addr + Reg.PG_OWNER) 2
      else s.setReg p Reg.PG_OWNER (w32 (bitsOf v 0 7 + bitsOf v 8 12 * 2 ^ 8)) := by
  unfold State.ownerWrite
  extract_lets h cur ch locked fixed owns off
  have hfixed : fixed = true ↔ p.kind ∈ ownerFixed := by
    simp only [fixed, h, hp]
    cases p.kind <;> decide
  simp only [hfixed, ha, h, hp, ch, cur, locked, owns, off, State.ownerChange, Bool.not_true, Bool.false_eq_true, or_false,
    Bool.not_eq_true']
  rfl

theorem ownerWrite_fixed (hch : s.ownerChange p v 0 6 = true) (hfix : p.kind ∈ ownerFixed) :
    s.ownerWrite a p v = s.accErr a (p.addr + Reg.PG_OWNER) 2 := by
  rw [ownerWrite_eq hp ha, if_pos ⟨hch, hfix⟩]

theorem ownerWrite_taken (hfix : p.kind ∉ ownerFixed) (hl : s.locked p = false) (ho : s.ownsPage a p = true) :
    s.ownerWrite a p v = s.setReg p Reg.PG_OWNER (w32 (bitsOf v 0 7 + bitsOf v 8 12 * 2 ^ 8)) := by
  rw [ownerWrite_eq hp ha, if_neg (by simp [hfix]), if_neg (by simp [hl]), if_neg (by simp [ho])]

/-- LOCK is the owner's and Ward's to change. -/
theorem ownerWrite_lock (hfix : p.kind ∉ ownerFixed) (hl : s.locked p = false) (ho : s.ownsPage a p = false)
    (hch : s.ownerChange p v 6 1 = true) : s.ownerWrite a p v = s.accErr a (p.addr + Reg.PG_OWNER) 2 := by
  rw [ownerWrite_eq hp ha, if_neg (by simp [hfix]), if_neg (by simp [hl]), if_pos ⟨.inl hch, ho⟩]

end OwnerWrite

/-- What PG_OWNER holds after a write: the reserved bit 7 is clear. -/
theorem bitsOf_ownerPut {lo w : Nat} (h : lo + w ≤ 7 ∨ 8 ≤ lo ∧ lo + w ≤ 20) (v : Nat) :
    bitsOf (w32 (bitsOf v 0 7 + bitsOf v 8 12 * 2 ^ 8)).toNat lo w = bitsOf v lo w := by
  have hlow : bitsOf v 0 7 < 2 ^ 8 := Nat.lt_trans (bitsOf_lt v 0 7) (by decide)
  rw [bitsOf_w32 (by omega)]
  refine bitsOf_eq_of_testBit fun i hlo hhi => ?_
  rw [Nat.add_comm, Nat.mul_comm, Nat.testBit_two_pow_mul_add _ hlow, testBit_bitsOf, testBit_bitsOf]
  obtain h | h := h
  · rw [if_pos (by omega), decide_eq_true (by omega), Bool.true_and, Nat.zero_add]
  · rw [if_neg (by omega), decide_eq_true (by omega), Bool.true_and, Nat.add_sub_cancel' (by omega)]

/-- A write by an agent that does not own the page is turned away while the page is locked. -/
theorem locked_eq_false {s : State} {a : Agent} {p : Page} (h : allowed s a p = true) (ho : s.ownsPage a p = false) :
    s.locked p = false := by
  obtain ⟨-, ht⟩ := Bool.and_eq_true_iff.1 h
  rw [Option.isNone_iff_eq_none, State.turnedAway] at ht
  split at ht
  · cases ht
  · simpa [ho] using ht

/-! ### FDC_DCB_CTRL (R218) -/

/-- The row of FDC_DCB_CTRL: GLOBAL_FREEZE. -/
def dcbCtrlRow : RegRow := ⟨0x048, 0, 1, .whole, [⟨0, 1, .rw, 0x0, .any⟩]⟩

theorem rowAt_dcbCtrl : rowAt .fdc Reg.FDC_DCB_CTRL = some dcbCtrlRow := by decide

/-! ### SED_RING_r_CFG (R588) -/

/-- The offset of SED_RING_r_CFG. -/
abbrev ringCfgOff (r : Nat) : Nat := sedOff Reg.SED_RING_CFG r

theorem ringCfgOff_eq (r : Nat) : ringCfgOff r = 0x088 + 16 * r := rfl

theorem ringCfgOff_ne (r : Nat) {o : Nat} (h : o < 0x088) : ringCfgOff r ≠ o := by
  rw [ringCfgOff_eq]
  omega

theorem ringCfgOff_mem {r : Nat} (hr : r < 8) : 0x080 ≤ ringCfgOff r ∧ ringCfgOff r < 0x100 := by
  rw [ringCfgOff_eq]
  omega

theorem ring_of_ringCfgOff (r : Nat) : (ringCfgOff r - 0x080) / 16 = r := by
  rw [ringCfgOff_eq]
  omega

/-- Does a ring of the size that `v` gives lie where a ring may, from the BASE of ring `r`? -/
abbrev State.ringLies (s : State) (r v : Nat) : Bool :=
  s.traceRange (s.reg64 pgSed (sedOff Reg.SED_RING_LO r) % 2 ^ 48) (2 ^ bitsOf v 0 5 * 32)

/-- The row of SED_RING_r_CFG: SIZE_LOG2, STOP and EN. -/
def ringCfgRow : RegRow :=
  ⟨0x088, 16, 8, .whole, [⟨0, 5, .rw, 0xC, .range 7 24⟩, ⟨5, 1, .rw, 0x0, .any⟩, ⟨6, 1, .rw, 0x0, .any⟩]⟩

theorem rowAt_ringCfg : ∀ r < 8, rowAt pgSed.kind (ringCfgOff r) = some ringCfgRow := by decide

theorem inRange_ringCfg (v : Nat) : ringCfgRow.inRange v = decide (7 ≤ bitsOf v 0 5 ∧ bitsOf v 0 5 ≤ 24) := by
  simp [ringCfgRow, RegRow.inRange, Acc.settable, Chk.ok]

/-- The fields of SED_RING_r_CFG take a write each for itself, and lie side by side. -/
theorem bitsOf_apply_ringCfg {lo w : Nat} (h : lo + w ≤ 7) (rwl : Bool) (cur v : Nat) :
    bitsOf (ringCfgRow.apply rwl cur v) lo w = bitsOf v lo w := by
  refine bitsOf_eq_of_testBit fun i _ hi => ?_
  have landed : ringCfgRow.apply rwl cur v =
      setBits (setBits (setBits cur 0 5 (bitsOf v 0 5)) 5 1 (bitsOf v 5 1)) 6 1 (bitsOf v 6 1) := rfl
  simp only [landed, testBit_setBits, testBit_bitsOf]
  by_cases h6 : i = 6
  · simp [h6]
  · by_cases h5 : i = 5
    · simp [h5]
    · rw [if_neg (by omega), if_neg (by omega), if_pos (by omega)]
      simp [show i < 5 by omega]

/-- A number with one of its 32 bits cleared is a register's value. -/
theorem toNat_clearBit (x : Word) {i : Nat} : (w32 (setBits x.toNat i 1 0)).toNat = setBits x.toNat i 1 0 := by
  rw [BitVec.toNat_ofNat]
  refine Nat.mod_eq_of_lt (Nat.lt_pow_two_of_testBit _ fun j hj => ?_)
  rw [testBit_setBits]
  split
  · exact Nat.zero_testBit _
  · exact Nat.testBit_lt_two_pow (Nat.lt_of_lt_of_le x.isLt (Nat.pow_le_pow_right (by decide) hj))

theorem bitsOf_eq_zero_of_bitOf {x i : Nat} (h : bitOf x i = false) : bitsOf x i 1 = 0 := by
  have hlt := bitsOf_lt x i 1
  have hne : bitsOf x i 1 ≠ 1 := by simpa [bitOf] using h
  omega

/-- No register of the Sediment page is one of the host interface's. -/
theorem addr_sed_ne_hif {o : Nat} : ∀ x < 0x1000, pgSed.addr + o ≠ pgHif.addr + x := by
  intro x hx
  rw [show pgSed.addr = 0xF088000 from rfl, show pgHif.addr = 0x2000 from rfl]
  omega

theorem reg_accErr_sed (s : State) (a : Agent) (off kind o : Nat) : (s.accErr a off kind).reg pgSed o = s.reg pgSed o :=
  reg_accErr_ne addr_sed_ne_hif ..

section RingCfg
variable {s : State} {a : Agent} {r : Nat} (hr : r < 8)
include hr

theorem regPut_ringCfg (v : Nat) (aux : Aux) :
    s.regPut a pgSed (ringCfgOff r) v false aux = s.sedWrite a (ringCfgOff r) v false := by
  have hlo := ringCfgOff_mem hr
  have h1 : ¬(ringCfgOff r = Reg.PG_IRQ_STAT ∨ ringCfgOff r = Reg.PG_IRQ_EN) :=
    not_or.2 ⟨ringCfgOff_ne r (by decide), ringCfgOff_ne r (by decide)⟩
  rw [State.regPut, if_neg h1, if_neg (ringCfgOff_ne r (by decide)), if_neg (ringCfgOff_ne r (by decide)), if_neg (by omega),
    if_neg (by decide), if_neg (by omega)]
  rfl

theorem plainWrite_ringCfg {v : Word} (hlo : 7 ≤ bitsOf v.toNat 0 5) (hhi : bitsOf v.toNat 0 5 ≤ 24) :
    s.plainWrite a pgSed (ringCfgOff r) v.toNat false =
      s.setReg pgSed (ringCfgOff r) (w32 (ringCfgRow.apply (s.rwlOpen pgSed)
        (s.reg pgSed (ringCfgOff r)).toNat v.toNat)) :=
  plainWrite_inRange (rowAt_ringCfg r hr) (by simp [inRange_ringCfg, hlo, hhi]) (by simp [ringCfgRow])

theorem fld_plainWrite_ringCfg {v : Word} (hlo : 7 ≤ bitsOf v.toNat 0 5) (hhi : bitsOf v.toNat 0 5 ≤ 24) {lo w : Nat}
    (h : lo + w ≤ 7) :
    (s.plainWrite a pgSed (ringCfgOff r) v.toNat false).fld pgSed (ringCfgOff r) lo w =
      bitsOf v.toNat lo w := by
  rw [plainWrite_ringCfg hr hlo hhi, State.fld, reg_setReg_same, bitsOf_w32 (by omega), bitsOf_apply_ringCfg h]

/-- While EN is 0 the write is taken whole, unless SIZE_LOG2 is out of range or it enables a ring where none may lie. -/
theorem sedWrite_ringOff (hoff : s.fld pgSed (ringCfgOff r) 6 1 = 0) (v : Word) :
    s.sedWrite a (ringCfgOff r) v.toNat false =
      if ringCfgRow.inRange v.toNat = false ∨ bitOf v.toNat 6 = true ∧ s.ringLies r v.toNat = false then
        s.accErr a (pgSed.addr + ringCfgOff r) 2
      else s.plainWrite a pgSed (ringCfgOff r) v.toNat false := by
  have hen : bitOf (s.reg pgSed (ringCfgOff r)).toNat 6 = false := by
    rw [bitOf, ← State.fld, hoff]
    rfl
  rw [State.sedWrite, if_pos (ringCfgOff_mem hr)]
  simp only [ring_of_ringCfgOff, hen, if_true, Bool.false_eq_true, if_false, false_and, State.rejected,
    writeInRange_whole (rowAt_ringCfg r hr), Bool.not_eq_true']

/-- While EN is 1, a write that clears EN leaves the other fields as they were. -/
theorem fld_sedWrite_ringOn (hon : s.fld pgSed (ringCfgOff r) 6 1 = 1) {v : Word} (hv : bitOf v.toNat 6 = false)
    (hlo : 7 ≤ s.fld pgSed (ringCfgOff r) 0 5) (hhi : s.fld pgSed (ringCfgOff r) 0 5 ≤ 24) {lo w : Nat} (h : lo + w ≤ 7) :
    (s.sedWrite a (ringCfgOff r) v.toNat false).fld pgSed (ringCfgOff r) lo w =
      bitsOf (setBits (s.reg pgSed (ringCfgOff r)).toNat 6 1 0) lo w := by
  have hen : bitOf (s.reg pgSed (ringCfgOff r)).toNat 6 = true := by
    rw [bitOf, ← State.fld, hon]
    rfl
  obtain ⟨x, hx⟩ : ∃ x : Word, x.toNat = setBits (s.reg pgSed (ringCfgOff r)).toNat 6 1 0 :=
    ⟨_, toNat_clearBit _⟩
  have hsize : bitsOf x.toNat 0 5 = s.fld pgSed (ringCfgOff r) 0 5 := by
    rw [hx, bitsOf_setBits_apart (.inr (by decide)), State.fld]
  rw [← hsize] at hlo hhi
  have hrange : State.writeInRange pgSed (ringCfgOff r) x.toNat false = true := by
    rw [writeInRange_whole (rowAt_ringCfg r hr), inRange_ringCfg]
    exact decide_eq_true ⟨hlo, hhi⟩
  rw [State.sedWrite, if_pos (ringCfgOff_mem hr)]
  simp only [ring_of_ringCfgOff, hen, hv, bitsOf_eq_zero_of_bitOf hv, ← hx, hrange, if_true, if_false, Bool.not_true,
    Bool.false_eq_true, true_and, false_and, or_false]
  split
  · rw [State.fld, State.rejected, reg_accErr_sed, ← State.fld, fld_plainWrite_ringCfg hr hlo hhi h]
  · rw [fld_plainWrite_ringCfg hr hlo hhi h]

end RingCfg

end Sys2Proof.Machine

namespace Sys2Proof.Proofs
open Sys2Proof Sys2Proof.Machine Sys2Proof.Safety

/-! ### The statement about header and trace writes -/

theorem pgIrqForce_sets {s : State} {a : Agent} {pg : Nat} {p : Page} (v : Word) (hp : pageAt pg = some p)
    (ha : agTrusted a = true) (h : allowed s a p = true) :
    Runs (.pgIrqForce a pg v) s fun t =>
      t.reg p Reg.PG_IRQ_STAT = s.reg p Reg.PG_IRQ_STAT ||| (v &&& BitVec.ofNat 32 (kindIrq p.kind ||| 3 * 2 ^ 30)) ∧
      t.mem = s.mem ∧ t.fab = s.fab ∧ t.cores = s.cores := by
  have hput : wordTo a p Reg.PG_IRQ_FORCE v.toNat s = s.irqForce p v.toNat :=
    wordTo_allowed (rowAt_irqForce p.kind) (by decide) ha v rfl h
  refine ⟨_, execPgIrqForce_page hp a v s, ?_⟩
  rw [hput]
  refine ⟨reg_irqForce_stat s p v, ?_, ?_, ?_⟩
  all_goals rw [State.irqForce, irq_frame]

theorem header_turnedAway {s : State} {a : Agent} {pg : Nat} {p : Page} (v : Word) (hp : pageAt pg = some p)
    (ha : agTrusted a = true) {k : Nat} (hreach : s.reaches a = true) (hk : s.turnedAway a p = some k) :
    Runs (.pgIrqForce a pg v) s (Reported s a (p.addr + Reg.PG_IRQ_FORCE) k) ∧
    Runs (.pgOwner a pg v) s (Reported s a (p.addr + Reg.PG_OWNER) k) := by
  refine ⟨⟨_, execPgIrqForce_page hp a v s, ?_⟩, ⟨_, execPgOwner_page hp a v s, ?_⟩⟩
  · rw [wordTo_turnedAway (rowAt_irqForce p.kind) (by decide) ha v.toNat hreach hk]
    exact reported_accErr s a _ (turnedAway_lt hk)
  · rw [wordTo_turnedAway (rowAt_owner p.kind) (by decide) ha v.toNat hreach hk]
    exact reported_accErr s a _ (turnedAway_lt hk)

section Owner
variable {s : State} {a : Agent} {pg : Nat} {p : Page} {v : Word} (hpg : pageAt pg = some p) (ha : agTrusted a = true)
  (h : allowed s a p = true) (hp : p.home = p)
include hpg ha h

theorem pgOwner_writes : Gives (.pgOwner a pg v) s (s.ownerWrite a p v.toNat) := by
  have hput : wordTo a p Reg.PG_OWNER v.toNat s = s.ownerWrite a p v.toNat :=
    wordTo_allowed (rowAt_owner p.kind) (by decide) ha v rfl h
  rw [Gives, execPgOwner_page hpg, hput]

include hp

theorem pgOwner_fixed (hfix : p.kind ∈ ownerFixed) (hnew : bitsOf v.toNat 0 6 ≠ s.owner p) :
    Runs (.pgOwner a pg v) s (Reported s a (p.addr + Reg.PG_OWNER) 2) := by
  have hrun := pgOwner_writes (v := v) hpg ha h
  rw [ownerWrite_fixed hp ha _ (by simpa [ownerChange_owner s hp (ix_lt_of_pageAt hpg)] using hnew.symm) hfix] at hrun
  exact ⟨_, hrun, reported_accErr s a _ (by decide)⟩

theorem pgOwner_taken (hfix : p.kind ∉ ownerFixed) (hl : s.locked p = false) (ho : s.ownsPage a p = true) :
    Runs (.pgOwner a pg v) s fun t => t.owner p = bitsOf v.toNat 0 6 ∧ t.fld p Reg.PG_OWNER 6 1 = bitsOf v.toNat 6 1 ∧
      t.fld p Reg.PG_OWNER 8 11 = bitsOf v.toNat 8 11 ∧ t.fld p Reg.PG_OWNER 19 1 = bitsOf v.toNat 19 1 ∧
      t = s.setReg p Reg.PG_OWNER (t.reg p Reg.PG_OWNER) := by
  have hrun := pgOwner_writes (v := v) hpg ha h
  rw [ownerWrite_taken hp ha _ hfix hl ho] at hrun
  refine ⟨_, hrun, ?_, ?_, ?_, ?_, by rw [reg_setReg_same]⟩
  · rw [owner_of_not_fixed _ hfix, hp, State.fld, reg_setReg_same, bitsOf_ownerPut (by decide)]
  all_goals rw [State.fld, reg_setReg_same, bitsOf_ownerPut (by decide)]

theorem pgOwner_lock (hfix : p.kind ∉ ownerFixed) (ho : s.ownsPage a p = false)
    (hnew : bitsOf v.toNat 6 1 ≠ s.fld p Reg.PG_OWNER 6 1) :
    Runs (.pgOwner a pg v) s (Reported s a (p.addr + Reg.PG_OWNER) 2) := by
  have hrun := pgOwner_writes (v := v) hpg ha h
  rw [ownerWrite_lock hp ha _ hfix (locked_eq_false h ho) ho (by simpa [ownerChange_lock s hp] using hnew.symm)] at hrun
  exact ⟨_, hrun, reported_accErr s a _ (by decide)⟩

end Owner

theorem globalFreeze_lands {s : State} {a : Agent} {inst : Nat} (v : Word) (hi : inst < 17) (ha : agTrusted a = true)
    (h : allowed s a (engPage 4 inst) = true) :
    Runs (.globalFreeze a inst v) s fun t =>
      t.fld (engPage 4 inst) Reg.FDC_DCB_CTRL 0 1 = v.toNat % 2 ∧
      t = s.setReg (engPage 4 inst) Reg.FDC_DCB_CTRL (t.reg (engPage 4 inst) Reg.FDC_DCB_CTRL) := by
  have hr : rowAt (engPage 4 inst).kind Reg.FDC_DCB_CTRL = some dcbCtrlRow := rowAt_dcbCtrl
  have hput := (wordTo_allowed hr (by decide) ha v rfl h).trans
    (regPut_storeKinds v.toNat ⟨.ready, 0⟩ (p := engPage 4 inst) (by simp [engPage, engKind, storeKinds]) (by decide) (by decide))
  rw [plainWrite_inRange hr (by simp [dcbCtrlRow, RegRow.inRange, Chk.ok]) (by simp [dcbCtrlRow])] at hput
  obtain ⟨hreg, hfields⟩ := landed_apply (s := s) (p := engPage 4 inst) (rowAt_fits hr) v.toNat
  refine ⟨_, execGlobalFreeze_inst hi a v s, ?_⟩
  rw [hput]
  refine ⟨?_, hreg⟩
  have hf := hfields _ List.mem_cons_self
  rw [State.fld, hf]
  simp [bitsOf]

section Ring
variable {s : State} {a : Agent} {r : Nat} {v : Word} (hr : r < 8) (ha : agTrusted a = true) (h : allowed s a pgSed = true)
include hr ha h

theorem sedRingCfg_writes : Gives (.sedRingCfg a r v) s (s.sedWrite a (ringCfgOff r) v.toNat false) := by
  rw [Gives, execSedRingCfg_ring hr, wordTo_allowed (rowAt_ringCfg r hr) (ringCfgOff_ne r (by decide)) ha v rfl h, regPut_ringCfg hr]

theorem sedRingCfg_taken (hoff : s.fld pgSed (ringCfgOff r) 6 1 = 0) (hlo : 7 ≤ bitsOf v.toNat 0 5)
    (hhi : bitsOf v.toNat 0 5 ≤ 24)
    (hok : bitOf v.toNat 6 = false ∨ s.ringLies r v.toNat = true) :
    Runs (.sedRingCfg a r v) s fun t => t.fld pgSed (ringCfgOff r) 0 7 = v.toNat % 128 ∧
      t = s.setReg pgSed (ringCfgOff r) (t.reg pgSed (ringCfgOff r)) := by
  have hrun := sedRingCfg_writes (v := v) hr ha h
  rw [sedWrite_ringOff hr hoff, if_neg] at hrun
  · refine ⟨_, hrun, (fld_plainWrite_ringCfg hr hlo hhi (by decide)).trans (by simp [bitsOf]), ?_⟩
    rw [plainWrite_ringCfg hr hlo hhi, reg_setReg_same]
  · rw [inRange_ringCfg, decide_eq_true ⟨hlo, hhi⟩]
    rintro (hsize | ⟨hen, hbad⟩)
    · cases hsize
    · rw [hen, hbad] at hok
      simp at hok

theorem sedRingCfg_noRange (hoff : s.fld pgSed (ringCfgOff r) 6 1 = 0) (hen : bitOf v.toNat 6 = true)
    (hbad : s.ringLies r v.toNat = false) :
    Runs (.sedRingCfg a r v) s fun t => Reported s a (pgSed.addr + ringCfgOff r) 2 t ∧
      t.reg pgSed (ringCfgOff r) = s.reg pgSed (ringCfgOff r) := by
  have hrun := sedRingCfg_writes (v := v) hr ha h
  rw [sedWrite_ringOff hr hoff, if_pos (.inr ⟨hen, hbad⟩)] at hrun
  exact ⟨_, hrun, reported_accErr s a _ (by decide), reg_accErr_sed ..⟩

theorem sedRingCfg_badSize (hoff : s.fld pgSed (ringCfgOff r) 6 1 = 0)
    (hbad : bitsOf v.toNat 0 5 < 7 ∨ 24 < bitsOf v.toNat 0 5) :
    Runs (.sedRingCfg a r v) s (Reported s a (pgSed.addr + ringCfgOff r) 2) := by
  have hrun := sedRingCfg_writes (v := v) hr ha h
  rw [sedWrite_ringOff hr hoff, if_pos (.inl (by simp [inRange_ringCfg]; omega))] at hrun
  exact ⟨_, hrun, reported_accErr s a _ (by decide)⟩

theorem sedRingCfg_stops (hon : s.fld pgSed (ringCfgOff r) 6 1 = 1)
    (hlo : 7 ≤ s.fld pgSed (ringCfgOff r) 0 5) (hhi : s.fld pgSed (ringCfgOff r) 0 5 ≤ 24)
    (hv : bitOf v.toNat 6 = false) :
    Runs (.sedRingCfg a r v) s fun t => t.fld pgSed (ringCfgOff r) 6 1 = 0 ∧
      t.fld pgSed (ringCfgOff r) 0 6 = s.fld pgSed (ringCfgOff r) 0 6 := by
  refine ⟨_, sedRingCfg_writes hr ha h, ?_, ?_⟩
  · rw [fld_sedWrite_ringOn hr hon hv hlo hhi (by decide)]
    exact bitsOf_setBits_same _ 6 1 0
  · rw [fld_sedWrite_ringOn hr hon hv hlo hhi (by decide), bitsOf_setBits_apart (.inr (by decide)), State.fld]

end Ring

/-- Settles O55, register by register: PG_OWNER is judged by `ownerWrite_eq`, and a trace ring's configuration by
`sedWrite_ringOff` and `fld_sedWrite_ringOn`. -/
theorem headerAndTraceWrites : Obligations.HeaderAndTraceWrites := by
  refine ⟨fun s a pg p v hpg ha => ⟨pgIrqForce_sets v hpg ha, fun k => header_turnedAway v hpg ha, fun h hp => ⟨?_, ?_, ?_⟩⟩,
    fun s a inst v hi ha h => globalFreeze_lands v hi ha h, fun s a r v hr ha h => ⟨fun hoff hlo hhi => ⟨?_, ?_⟩, ?_, ?_⟩⟩
  · exact pgOwner_fixed hpg ha h hp
  · exact pgOwner_taken hpg ha h hp
  · exact pgOwner_lock hpg ha h hp
  · exact sedRingCfg_taken hr ha h hoff hlo hhi
  · exact sedRingCfg_noRange hr ha h hoff
  · exact fun hbad hoff => sedRingCfg_badSize hr ha h hoff hbad
  · exact sedRingCfg_stops hr ha h

end Sys2Proof.Proofs
end

section
/-!
PROOF. What Tilth decides about work and data already placed: migrations (R325, R326), a command moved to another instance (R315),
a context moved off a draining instance (R326), and the placement of an abandoned attempt (R327).
-/
namespace Sys2Proof.Machine
open Sys2Proof.Safety

/-! ### What writes and records leave of the fabric, of Tilth and of the contexts -/

/-- What the fabric and Tilth keep, and the contexts that engines hold: decisions change these, storing bytes does not. -/
def State.placement (s : State) : Fabric × Tilth × List Ctx := (s.fab, s.tilth, s.ctxs)

theorem placement_writeLine (s : State) (blk : Nat) (bs : List (Nat × Byte)) :
    (s.writeLine blk bs).1.placement = s.placement := by
  unfold State.writeLine
  dsimp only
  split
  · exact foldl_keeps State.placement (f := fun s x => s.mark (blk + x.1) false) (fun _ _ => rfl) bs _
  · split
    · rfl
    · split
      · exact foldl_keeps State.placement
          (f := fun s p => (s.count pgMem Reg.MEM_TALLY_POISON_WR 1).count p Reg.MEM_BK_TALLY_POISON_WR 1)
          (fun _ _ => rfl) (s.copyParts blk) _
      · rfl

theorem placement_rvTake (s : State) (n : Nat) (b : RvBody) : (s.rvTake n b).placement = s.placement := by
  unfold State.rvTake
  dsimp only
  split
  · rfl
  · split
    · rfl
    · split <;> rfl

theorem placement_mirrorOut (s : State) (bs : List (Nat × Byte)) : (s.mirrorOut bs).placement = s.placement :=
  foldl_keeps State.placement (fun s _ => foldl_keeps State.placement
    (fun s _ => foldl_keeps State.placement (fun s _ => placement_rvTake s _ _) _ s) _ s) _ s

theorem placement_writeSome (s : State) (blk : Nat) (bs : List (Nat × Byte)) :
    (s.writeSome blk bs).1.placement = s.placement := by
  unfold State.writeSome
  dsimp only
  split
  · exact placement_writeLine s blk bs
  · exact (placement_mirrorOut _ _).trans (placement_writeLine s blk bs)

theorem placement_write (s : State) (a : Nat) (bs : List Byte) : (s.write a bs).1.placement = s.placement := by
  unfold State.write
  refine List.foldlRecOn (motive := fun r : State × Wr => r.1.placement = s.placement) _ _ rfl fun r hr p _ => ?_
  split
  · exact (placement_writeSome _ _ _).trans hr
  · exact hr

theorem placement_hostWrite (s : State) (a g : Nat) (bs : List Byte) : (s.hostWrite a g bs).1.placement = s.placement := by
  unfold State.hostWrite
  split
  · dsimp only
    split <;> rfl
  · rfl

theorem placement_writeFor (s : State) (g a : Nat) (bs : List Byte) : (s.writeFor g a bs).1.placement = s.placement := by
  unfold State.writeFor
  split
  · exact placement_hostWrite s a g bs
  · exact placement_write s a bs

theorem placement_slotOpen (s : State) (a : Nat) : (s.slotOpen a).placement = s.placement := by
  unfold State.slotOpen
  split
  · exact List.foldlRecOn (motive := fun t : State => t.placement = s.placement) _ _ rfl fun _ ht _ _ => ht
  · rfl

theorem placement_sediment (s : State) (r : Nat) (ws : List Word) : (s.sediment r ws).1.placement = s.placement := by
  have slot (t : State) (b : Bool) (a : Nat) : (if b then t.slotOpen a else t).placement = t.placement := by
    split
    · exact placement_slotOpen t a
    · rfl
  unfold State.sediment
  dsimp only
  split
  · rfl
  · split
    · rfl
    · split <;> exact (slot _ _ _).trans (placement_writeFor s 0 _ _)

/-- A trace record changes nothing of what was decided (R302, R303). -/
theorem placement_trace (s : State) (d : Decision) : (s.trace d).placement = s.placement := by
  unfold State.trace
  split
  · dsimp only
    split <;> exact placement_sediment ..
  · rfl

@[simp] theorem trace_fab (s : State) (d : Decision) : (s.trace d).fab = s.fab := congrArg (·.1) (placement_trace s d)
@[simp] theorem trace_tilth (s : State) (d : Decision) : (s.trace d).tilth = s.tilth := congrArg (·.2.1) (placement_trace s d)
@[simp] theorem trace_ctxs (s : State) (d : Decision) : (s.trace d).ctxs = s.ctxs := congrArg (·.2.2) (placement_trace s d)

@[simp] theorem traceItem_fab (s : State) (reason : Nat) (it : Item) (w : Word) : (s.traceItem reason it w).fab = s.fab :=
  trace_fab ..
@[simp] theorem traceItem_tilth (s : State) (reason : Nat) (it : Item) (w : Word) :
    (s.traceItem reason it w).tilth = s.tilth := trace_tilth ..

@[simp] theorem traceHandle_tilth (s : State) (reason : Nat) (it : Option Item) (h : Word) (a mcls : Nat) :
    (s.traceHandle reason it h a mcls).tilth = s.tilth := by
  cases it <;> exact trace_tilth ..

@[simp] theorem setEntry_tilth (s : State) (h : Word) (e : List Word) : (s.setEntry h e).tilth = s.tilth :=
  congrArg (·.2.1) (placement_write s _ _)

/-! ### Storage given back (R320, R325) -/

theorem mem_give_migr {s : State} {h : Word} {a : Nat} {m : Migration} :
    m ∈ (s.give h a).tilth.migr ↔ m ∈ s.tilth.migr ∧ m.handle ≠ h := by
  simp [State.give]

theorem mem_give_allocs {s : State} {h : Word} {a : Nat} {x : Alloc} :
    x ∈ (s.give h a).tilth.allocs ↔ x ∈ s.tilth.allocs ∧ (x.handle = h → x.addr ≠ a) := by
  have kept : (!(x.handle == h && x.addr == a)) = true ↔ (x.handle = h → x.addr ≠ a) := by
    by_cases hh : x.handle = h <;> simp [hh]
  exact List.mem_filter.trans (and_congr_right fun _ => kept)

/-! ### Windows and items -/

theorem window_setWindow_ne (s : State) (cls : Nat) {i j : Nat} (w : List Nat) (h : j ≠ i) :
    (s.setWindow cls i w).window cls j = s.window cls j := by
  simp [State.window, State.setWindow, h]

@[simp] theorem window_traceItem (s : State) (reason : Nat) (it : Item) (w : Word) (cls i : Nat) :
    (s.traceItem reason it w).window cls i = s.window cls i := by
  rw [State.window, traceItem_tilth, State.window]

/-- Item `sn` leaves the window of instance `i` for the end of the window of `inst` (R315). -/
def State.rewindow (s : State) (cls i inst sn : Nat) : State :=
  let s := s.setWindow cls i ((s.window cls i).filter (· != sn))
  s.setWindow cls inst (s.window cls inst ++ [sn])

theorem not_mem_window_rewindow (s : State) (cls sn : Nat) {i inst : Nat} (h : inst ≠ i) :
    sn ∉ (s.rewindow cls i inst sn).window cls i := by
  rw [State.rewindow, window_setWindow_ne _ _ _ h.symm, window_setWindow]
  simp

theorem window_rewindow (s : State) (cls sn : Nat) {i inst : Nat} (h : inst ≠ i) :
    (s.rewindow cls i inst sn).window cls inst = s.window cls inst ++ [sn] := by
  rw [State.rewindow, window_setWindow, window_setWindow_ne _ _ _ h]

theorem sn_of_item? {s : State} {sn : Nat} {it : Item} (h : s.item? sn = some it) : it.sn = sn := by
  simpa using List.find?_some h

theorem mem_of_item? {s : State} {sn : Nat} {it : Item} (h : s.item? sn = some it) : it ∈ s.fab.items :=
  List.mem_of_find?_eq_some h

theorem mem_updItem {s : State} {sn : Nat} {f : Item → Item} {j : Item} :
    j ∈ (s.updItem sn f).fab.items ↔ ∃ i ∈ s.fab.items, (if i.sn = sn then f i else i) = j :=
  List.mem_map

/-- An item that exists stands rewritten among the items. -/
theorem updItem_mem {s : State} {sn : Nat} {it : Item} (h : s.item? sn = some it) (f : Item → Item) :
    f it ∈ (s.updItem sn f).fab.items :=
  mem_updItem.2 ⟨it, mem_of_item? h, if_pos (sn_of_item? h)⟩

/-- Every item that bears the serial after the rewriting has been rewritten. -/
theorem updItem_forall {s : State} {sn : Nat} {f : Item → Item} {P : Item → Prop} (hf : ∀ i, P (f i)) :
    ∀ j ∈ (s.updItem sn f).fab.items, j.sn = sn → P j := by
  intro j hj hsn
  obtain ⟨i, -, rfl⟩ := mem_updItem.1 hj
  split at hsn
  · next hi => rw [if_pos hi]; exact hf i
  · next hi => exact absurd hsn hi

/-- The place from which R327's return to the head is counted: no item stands before it. -/
theorem foldl_min_readyAt_le (l : List Item) (m : Int) :
    l.foldl (fun m i => min m i.readyAt) m ≤ m ∧ ∀ x ∈ l, l.foldl (fun m i => min m i.readyAt) m ≤ x.readyAt := by
  induction l generalizing m with
  | nil => simp
  | cons y l ih =>
    obtain ⟨hm, hl⟩ := ih (min m y.readyAt)
    simp only [List.foldl_cons, List.forall_mem_cons]
    exact ⟨Int.le_trans hm (Int.min_le_left ..), Int.le_trans hm (Int.min_le_right ..), hl⟩

end Sys2Proof.Machine

namespace Sys2Proof.Proofs
open Sys2Proof Sys2Proof.Machine Sys2Proof.Safety

/-! ### The statement about Tilth's decisions -/

section Migrate
variable {s : State} {h : Word} {e : List Word} (on : s.tilthOn = true) (named : s.hNamed h = true) (entry : s.hEntry h = some e)
include on named entry

/-- A migration whose copy has landed is over, and its old storage is free (R325). -/
theorem migrate_commits {m : Migration} (hm : s.tilth.migr.find? (fun m => m.handle == h) = some m) (st : eState e = 2) :
    Runs (.migrate h false 0) s fun t =>
      (∀ x ∈ t.tilth.migr, x.handle ≠ h) ∧ (∀ x ∈ t.tilth.allocs, x.handle = h → x.addr ≠ eAddr e) := by
  have hrun : exec (.migrate h false 0) s = execMigrate h false 0 s := rfl
  simp only [execMigrate, on, named, entry, hm, Bool.and_self, Bool.not_true, Bool.false_eq_true, if_false] at hrun
  rw [if_pos st] at hrun
  refine ⟨_, hrun, ?_⟩
  simp only [traceHandle_tilth, count_tilth]
  exact ⟨fun x hx => (mem_give_migr.1 hx).2, fun x hx => (mem_give_allocs.1 hx).2⟩

/-- A buffer that no task references leaves a draining part: its new storage is taken and its migration is under way
(R325, R326). -/
theorem migrate_starts {place : Nat} {l : Loc} (st : eState e = 1) (refs : eRefs e = 0) (cls : eMcls e ≠ 0)
    (idle : s.tilth.migr.any (fun m => m.handle == h) = false) (drain : s.drainingAt (eAddr e) = true)
    (hl : (allowedLocs e none ((List.range 16).map Loc.clodMem ++ (List.range 8).map (fun o => Loc.deepAt (stopDB o)) ++
        [Loc.hbm])).find? (fun l => s.locEver (hPool h) l && s.locRoom (hPool h) l (eSize e) &&
          s.locAt (hPool h) false l (eSize e) place) = some l) :
    let dst : Alloc := ⟨h, place, roundUp (eSize e) (granule l.mcls), l.mcls⟩
    Runs (.migrate h true place) s fun t =>
      t.tilth.migr = s.tilth.migr ++ [⟨h, dst⟩] ∧ t.tilth.allocs = s.tilth.allocs ++ [dst] := by
  have hrun : exec (.migrate h true place) s = execMigrate h true place s := rfl
  simp only [execMigrate, on, named, entry, hl, Bool.and_self, Bool.not_true, Bool.false_eq_true, if_false, if_true] at hrun
  rw [if_pos ⟨st, refs, .inl drain, cls, by rw [idle]; rfl⟩] at hrun
  exact ⟨_, hrun, by simp only [setEntry_tilth, and_self]⟩

end Migrate

/-- A command that cannot meet its deadline where it waits goes behind the window of an instance where it can (R315). -/
theorem replace_moves {s : State} {sn cls i inst : Nat} {it : Item} (on : s.tilthOn = true) (hit : s.item? sn = some it)
    (hx : it.exec = some (.engine cls i)) (disp : it.phase = .dispatched) (waits : it.started = false) (ne : inst ≠ i)
    (dl : dDeadline it.words ≠ 0) (fits : s.eligible it (.engine cls inst) = true) (free : s.execFree (.engine cls inst) = true)
    (late : dDeadline it.words < s.airtime + ((((s.window cls i).takeWhile (· != sn)).filterMap s.item?).foldl
      (fun a j => a + s.estRun j (.engine cls i)) 0 + s.estRun it (.engine cls i)))
    (meets : s.airtime + s.estFinish it (.engine cls inst) ≤ dDeadline it.words) (due : s.tilth.replaceAt + 4096 ≤ s.airtime) :
    Runs (.replace sn inst) s fun t =>
      sn ∉ t.window cls i ∧ t.window cls inst = s.window cls inst ++ [sn] ∧ t.tilth.replaceAt = s.airtime ∧
      ∀ j ∈ t.fab.items, j.sn = sn → j.exec = some (.engine cls inst) := by
  have hrun : exec (.replace sn inst) s = execReplace sn inst s := rfl
  simp only [execReplace, hit, hx] at hrun
  rw [if_pos (by simp [on, disp, waits, ne, dl, late, fits, free, meets, due])] at hrun
  refine ⟨_, hrun, ?_⟩
  simp only [window_traceItem, traceItem_tilth, traceItem_fab]
  exact ⟨not_mem_window_rewindow s cls sn ne, window_rewindow s cls sn ne, rfl, updItem_forall fun _ => rfl⟩

/-- A context of a draining instance whose window is empty comes to the lowest free slot of a READY one (R326; log
entries 24 and 71). -/
theorem ctxMove_moves {s : State} {cls src ctx fn dst : Nat} {c : Ctx} (on : s.tilthOn = true)
    (hc : s.ctxs.find? (fun c => c.cls == cls && c.inst == src && c.ctx == ctx && c.fn == fn) = some c)
    (drain : s.part ⟨engKind cls, src⟩ = stDraining) (empty : s.window cls src = []) (rdy : s.ready ⟨engKind cls, dst⟩ = true)
    (lo : 1 ≤ cls) (hi : cls ≤ 8) (room : s.ctxRoom cls dst c.size = true) (ne : dst ≠ src) :
    Runs (.ctxMove cls src ctx fn dst) s fun t =>
      { c with inst := dst, slot := s.freeSlot cls dst } ∈ t.ctxs ∧ t.fab = s.fab ∧ t.ctxs.length = s.ctxs.length := by
  have hrun : exec (.ctxMove cls src ctx fn dst) s = execCtxMove cls src ctx fn dst s := rfl
  simp only [execCtxMove, hc] at hrun
  rw [if_pos (by simp [on, drain, empty, rdy, lo, hi, room, ne])] at hrun
  refine ⟨_, hrun, ?_⟩
  simp only [trace_ctxs, trace_fab, List.length_map, and_true]
  exact List.mem_map.2 ⟨c, List.mem_of_find?_eq_some hc, if_pos rfl⟩

/-- An abandoned attempt that can still end in time is ready again, on no executor and ahead of every item (R327). -/
theorem rerunPlace_readies {s u : State} {sn : Nat} {places : List Nat} {it : Item} (on : s.tilthOn = true)
    (hit : s.item? sn = some it) (fab : s.fabOn = true) (gone : it.phase = .abandoned)
    (inTime : dDeadline it.words = 0 ∨ s.airtime + 64 * dRunEst it.words ≤ dDeadline it.words)
    (bound : rebind it it.handles.eraseDups places s = some u) (hu : u.item? sn = some it) :
    Runs (.rerunPlace sn places) s fun t =>
      ∃ j ∈ t.fab.items, j.sn = sn ∧ j.phase = .ready ∧ j.exec = none ∧ j.started = false ∧
        ∀ x ∈ u.fab.items, j.readyAt < x.readyAt := by
  have hrun : exec (.rerunPlace sn places) s = execRerunPlace sn places s := rfl
  simp only [execRerunPlace, hit, bound] at hrun
  rw [if_neg (by simp [fab, on, gone]), if_neg (by omega)] at hrun
  refine ⟨_, hrun, ?_⟩
  simp only [traceItem_fab]
  refine ⟨_, updItem_mem hu _, (sn_of_item? hu : it.sn = sn), rfl, rfl, rfl, fun x hx => ?_⟩
  have := (foldl_min_readyAt_le u.fab.items 0).2 x hx
  exact Int.sub_one_lt_of_le this

/-- Settles O35. Each decision is one lemma: what its command answers once its guard holds, and the frame `placement_trace` of the
record it leaves. -/
theorem tilthDecisions : Obligations.TilthDecisions :=
  fun _ _ _ _ _ on => ⟨fun _ named entry => migrate_commits on named entry, fun _ _ named entry => migrate_starts on named entry,
    fun _ _ _ => replace_moves on, fun _ _ _ _ _ _ => ctxMove_moves on, fun _ _ => rerunPlace_readies on⟩

end Sys2Proof.Proofs
end
